-- ==== Sys2Proof/Word.lean ====
section
/-! DEFINITION. The words of the Bilser 9 (00 R7: every multi-byte value is little-endian) and their plainest
arithmetic. -/
namespace Sys2Proof

/-- One byte of memory. -/
abbrev Byte := BitVec 8
/-- A 32-bit lane register or lane instruction word (03 R57, R74). -/
abbrev W32 := BitVec 32
/-- A 64-bit scalar or uniform register, and every virtual address (02 R32). -/
abbrev Word := BitVec 64
/-- A 256-bit bundle (02 R41). -/
abbrev W256 := BitVec 256

/-- The field `[hi:lo]` of a word, as a number. -/
def fieldNat {w : Nat} (x : BitVec w) (hi lo : Nat) : Nat := x.toNat / 2 ^ lo % 2 ^ (hi + 1 - lo)

/-- The field `[hi:lo]` of a number. -/
def natField (x hi lo : Nat) : Nat := x / 2 ^ lo % 2 ^ (hi + 1 - lo)

/-- A number as a signed two's-complement integer of `w` bits. -/
def toSigned (w n : Nat) : Int :=
  if n % 2 ^ w < 2 ^ (w - 1) then (n % 2 ^ w : Nat) else (n % 2 ^ w : Nat) - (2 ^ w : Nat)

/-- An integer taken modulo `2^w`. -/
def ofSigned (w : Nat) (i : Int) : Nat := (i % (2 ^ w : Nat)).toNat

/-- The one bit of a Boolean, as a number. -/
def bit (b : Bool) : Nat := if b then 1 else 0

end Sys2Proof
end

