-- ==== Sys2Proof/Machine/Num.lean ====
section
/-! DEFINITION. Number formats, exact values and the one rounding of a result (spec 01, R11 to R31). Every value is
exact (a sign, a natural number and a power of two); a result is rounded once, where the spec rounds. -/
namespace Sys2Proof.Machine

/-- An exact value: NaN, an infinity, or `±m·2^e`. A zero keeps its sign. -/
inductive FVal where
  | nan
  | inf (neg : Bool)
  | fin (neg : Bool) (m : Nat) (e : Int)
deriving DecidableEq, Repr, Inhabited

/-- How a format encodes special values (R13). -/
inductive Specials where
  | ieee  -- infinities and NaNs at the all-ones exponent
  | e4m3  -- no infinity; one NaN code for each sign
  | none  -- every code is finite
deriving DecidableEq, Repr, Inhabited

/-- A floating-point format (R12). -/
structure FFmt where
  ebits : Nat
  fbits : Nat
  bias  : Nat
  spec  : Specials
deriving DecidableEq, Repr, Inhabited

def fp64 : FFmt := ⟨11, 52, 1023, .ieee⟩
def fp32 : FFmt := ⟨8, 23, 127, .ieee⟩
def fp16 : FFmt := ⟨5, 10, 15, .ieee⟩
def bf16 : FFmt := ⟨8, 7, 127, .ieee⟩
def e4m3 : FFmt := ⟨4, 3, 7, .e4m3⟩
def e5m2 : FFmt := ⟨5, 2, 15, .ieee⟩
def e3m2 : FFmt := ⟨3, 2, 3, .none⟩
def e2m3 : FFmt := ⟨2, 3, 1, .none⟩
def e2m1 : FFmt := ⟨2, 1, 1, .none⟩

/-- What the elements of a number format are. -/
inductive Elem where
  | fp (f : FFmt)
  | int (w : Nat) (signed : Bool)
  | mxInt8
  | e8m0
  | i4e
deriving DecidableEq, Repr, Inhabited

/-- A number format: its elements' width, what they are, and whether blocks of 32 carry a scale (R11). -/
structure Fmt where
  code  : Nat
  bits  : Nat
  elem  : Elem
  block : Bool
deriving DecidableEq, Repr, Inhabited

/-- The number-format codes (R11); `none` for a code that is never a format. -/
def fmtOf (code : Nat) : Option Fmt :=
  match code with
  | 0x00 => some ⟨0x00, 32, .fp fp32, false⟩
  | 0x01 => some ⟨0x01, 16, .fp fp16, false⟩
  | 0x02 => some ⟨0x02, 16, .fp bf16, false⟩
  | 0x03 => some ⟨0x03, 8, .fp e4m3, false⟩
  | 0x04 => some ⟨0x04, 8, .fp e5m2, false⟩
  | 0x05 => some ⟨0x05, 6, .fp e3m2, false⟩
  | 0x06 => some ⟨0x06, 6, .fp e2m3, false⟩
  | 0x07 => some ⟨0x07, 4, .fp e2m1, false⟩
  | 0x08 => some ⟨0x08, 32, .int 32 true, false⟩
  | 0x09 => some ⟨0x09, 8, .int 8 true, false⟩
  | 0x0A => some ⟨0x0A, 8, .int 8 false, false⟩
  | 0x0B => some ⟨0x0B, 4, .int 4 true, false⟩
  | 0x0C => some ⟨0x0C, 64, .fp fp64, false⟩
  | 0x0D => some ⟨0x0D, 8, .e8m0, false⟩
  | 0x13 => some ⟨0x13, 8, .fp e4m3, true⟩
  | 0x14 => some ⟨0x14, 8, .fp e5m2, true⟩
  | 0x15 => some ⟨0x15, 6, .fp e3m2, true⟩
  | 0x16 => some ⟨0x16, 6, .fp e2m3, true⟩
  | 0x17 => some ⟨0x17, 4, .fp e2m1, true⟩
  | 0x19 => some ⟨0x19, 8, .mxInt8, true⟩
  | 0x1B => some ⟨0x1B, 4, .i4e, true⟩
  | _ => none

/-- The NUMFLAGS bits an operation sets (R21). -/
abbrev NFlags := BitVec 32

def flNanIn : NFlags := 1
def flInv : NFlags := 2
def flOvf : NFlags := 4
def flSat : NFlags := 8
def flIovf : NFlags := 16
def flScaleNan : NFlags := 32
def flMalformed : NFlags := 64

/-- Whether a value is NaN. -/
def FVal.isNan (v : FVal) : Bool := match v with | .nan => true | _ => false

/-- Whether a value is a zero. -/
def FVal.isZero (v : FVal) : Bool := match v with | .fin _ m _ => m == 0 | _ => false

/-- The sign of a value (NaN counts as positive: R14). -/
def FVal.neg? (v : FVal) : Bool := match v with | .nan => false | .inf n => n | .fin n _ _ => n

/-- NANIN when any operand is NaN (R30). -/
def nanIn (vs : List FVal) : NFlags := if vs.any FVal.isNan then flNanIn else 0

/-- An integer as an exact value. -/
def FVal.ofInt (i : Int) : FVal := .fin (decide (i < 0)) i.natAbs 0

/-- The value a code of a floating-point format stands for (R12, R13). -/
def FFmt.decode (f : FFmt) (x : Nat) : FVal :=
  let frac := x % 2 ^ f.fbits
  let ex := x / 2 ^ f.fbits % 2 ^ f.ebits
  let sgn := x / 2 ^ (f.fbits + f.ebits) % 2 == 1
  let allOnes := ex == 2 ^ f.ebits - 1
  if f.spec == .ieee && allOnes then (if frac == 0 then .inf sgn else .nan)
  else if f.spec == .e4m3 && allOnes && frac == 2 ^ f.fbits - 1 then .nan
  else if ex == 0 then .fin sgn frac (1 - (f.bias : Int) - f.fbits)
  else .fin sgn (2 ^ f.fbits + frac) ((ex : Int) - f.bias - f.fbits)

/-- The exponent of the smallest subnormal. -/
def FFmt.qmin (f : FFmt) : Int := 1 - (f.bias : Int) - f.fbits

/-- The code of the largest finite value, less its sign. -/
def FFmt.maxCode (f : FFmt) : Nat :=
  match f.spec with
  | .ieee => (2 ^ f.ebits - 1) * 2 ^ f.fbits - 1
  | .e4m3 => 2 ^ (f.ebits + f.fbits) - 2
  | .none => 2 ^ (f.ebits + f.fbits) - 1

/-- The code of infinity, less its sign (formats with infinities). -/
def FFmt.infCode (f : FFmt) : Nat := (2 ^ f.ebits - 1) * 2 ^ f.fbits

/-- The canonical NaN (R14); formats without NaN give 0 (R30). -/
def FFmt.nanCode (f : FFmt) : Nat :=
  match f.spec with
  | .ieee => f.infCode + 2 ^ (f.fbits - 1)
  | .e4m3 => 2 ^ (f.ebits + f.fbits) - 1
  | .none => 0

/-- The sign bit of a code. -/
def FFmt.signCode (f : FFmt) (neg : Bool) : Nat := if neg then 2 ^ (f.ebits + f.fbits) else 0

/-- The canonical NaN of a floating-point format, and whether the format has one. -/
def FFmt.hasNan (f : FFmt) : Bool := f.spec != .none

/-- Rounding on a path (R28). -/
inductive RMode where
  | nearestEven
  | towardZero
deriving DecidableEq, Repr, Inhabited

/-- `m·2^e` as a multiple of `2^q`, rounded. -/
def roundQ (mode : RMode) (m : Nat) (e q : Int) : Nat :=
  if q ≤ e then m * 2 ^ (e - q).toNat
  else
    let k := (q - e).toNat
    let d := m / 2 ^ k
    let r := m % 2 ^ k
    match mode with
    | .towardZero => d
    | .nearestEven =>
      if 2 * r > 2 ^ k then d + 1
      else if 2 * r = 2 ^ k then d + d % 2
      else d

/-- The exponent of the leading one of `m·2^e`, for `m ≠ 0`. -/
def floorLog2 (m : Nat) (e : Int) : Int := (Nat.log2 m : Int) + e

/-- Rounding with unbounded exponent range: the code of the rounded magnitude, were the exponent field as wide as
needed (R29). -/
def FFmt.roundCode (f : FFmt) (mode : RMode) (m : Nat) (e : Int) : Nat :=
  if m = 0 then 0
  else
    let q := max (floorLog2 m e - f.fbits) f.qmin
    (q - f.qmin).toNat * 2 ^ f.fbits + roundQ mode m e q

/-- Conversion of an exact value to a floating-point format on a path (R28 to R30). `sat` is `.sat`; `drain` is the
accumulator drain, which saturates. -/
def FFmt.convert (f : FFmt) (mode : RMode) (sat drain : Bool) (v : FVal) : Nat × NFlags :=
  match v with
  | .nan => if f.spec == .none then (0, flInv ||| flNanIn) else (f.nanCode, flNanIn)
  | .inf n =>
    match f.spec with
    | .ieee => (f.signCode n + f.infCode, 0)
    | .e4m3 => if sat || drain then (f.signCode n + f.maxCode, flSat) else (f.nanCode, flInv)
    | .none => (f.signCode n + f.maxCode, flSat)
  | .fin n m e =>
    let c := f.roundCode mode m e
    if c ≤ f.maxCode then (f.signCode n + c, 0)
    else if sat || drain || f.spec == .none then (f.signCode n + f.maxCode, flSat)
    else match f.spec with
      | .ieee => (f.signCode n + f.infCode, flOvf)
      | _ => (f.nanCode, flOvf)

/-- The rounded result of an arithmetic operation whose exact result is `v` and whose own flags are `fl`: a NaN
result carries only its cause (R14, R28, R30). -/
def FFmt.result (f : FFmt) (v : FVal) (fl : NFlags) : Nat × NFlags :=
  match v with
  | .nan => (f.nanCode, fl)
  | w => let r := f.convert .nearestEven false false w; (r.1, fl ||| r.2)

/-- The range limits of a two's-complement or unsigned integer of `w` bits. -/
def intMin (w : Nat) (signed : Bool) : Int := if signed then -(2 ^ (w - 1) : Nat) else 0
def intMax (w : Nat) (signed : Bool) : Int := if signed then (2 ^ (w - 1) : Nat) - 1 else (2 ^ w : Nat) - 1

/-- An integer clamped into a range, and SAT when it was clamped. -/
def clampInt (w : Nat) (signed : Bool) (i : Int) : Nat × NFlags :=
  if i < intMin w signed then (ofSigned w (intMin w signed), flSat)
  else if intMax w signed < i then (ofSigned w (intMax w signed), flSat)
  else (ofSigned w i, 0)

/-- Conversion to an integer format (R30). -/
def convertInt (w : Nat) (signed : Bool) (mode : RMode) (v : FVal) : Nat × NFlags :=
  match v with
  | .nan => (0, flInv ||| flNanIn)
  | .inf n => (ofSigned w (if n then intMin w signed else intMax w signed), flSat)
  | .fin n m e =>
    let k := roundQ mode m e 0
    clampInt w signed (if n then -(k : Int) else k)

/-- `±m·2^e` with the smaller exponent of two values: the signed numerators at a common exponent. -/
def alignAt (n : Bool) (m : Nat) (e q : Int) : Int :=
  let k : Int := (m * 2 ^ (e - q).toNat : Nat)
  if n then -k else k

/-- The exact sum and the flags of an invalid operation (R24, R30). An exact zero sum is −0 only when both are −0. -/
def FVal.add (x y : FVal) : FVal × NFlags :=
  match x, y with
  | .nan, _ => (.nan, flNanIn)
  | _, .nan => (.nan, flNanIn)
  | .inf a, .inf b => if a = b then (.inf a, 0) else (.nan, flInv)
  | .inf a, .fin .. => (.inf a, 0)
  | .fin .., .inf b => (.inf b, 0)
  | .fin a m e, .fin b k g =>
    let q := min e g
    let s := alignAt a m e q + alignAt b k g q
    if s = 0 then (.fin (a && b) 0 q, 0) else (.fin (decide (s < 0)) s.natAbs q, 0)

/-- The value with its sign inverted. -/
def FVal.negate (x : FVal) : FVal :=
  match x with
  | .nan => .nan
  | .inf n => .inf (!n)
  | .fin n m e => .fin (!n) m e

/-- The exact product. -/
def FVal.mul (x y : FVal) : FVal × NFlags :=
  match x, y with
  | .nan, _ => (.nan, flNanIn)
  | _, .nan => (.nan, flNanIn)
  | .inf a, .inf b => (.inf (a != b), 0)
  | .inf a, .fin b m _ => if m = 0 then (.nan, flInv) else (.inf (a != b), 0)
  | .fin a m _, .inf b => if m = 0 then (.nan, flInv) else (.inf (a != b), 0)
  | .fin a m e, .fin b k g => (.fin (a != b) (m * k) (e + g), 0)

/-- The exact fused product and sum. NANIN when any operand is NaN, INV for an invalid product or sum. -/
def FVal.fma (x y z : FVal) : FVal × NFlags :=
  let p := x.mul y
  let r := p.1.add z
  if p.1.isNan then (.nan, p.2 ||| nanIn [z]) else r

/-- `x < y` for values that are not NaN; the two zeros are equal (R13). -/
def FVal.lt (x y : FVal) : Bool :=
  match x, y with
  | .nan, _ => false
  | _, .nan => false
  | .inf a, .inf b => a && !b
  | .inf a, .fin .. => a
  | .fin .., .inf b => !b
  | .fin a m e, .fin b k g => decide (alignAt a m e (min e g) < alignAt b k g (min e g))

/-- Equality of values that are not NaN. -/
def FVal.eqv (x y : FVal) : Bool := !x.isNan && (!y.isNan && (!x.lt y && !y.lt x))

/-- The quotient, kept to `k` further bits with the rest folded into a last sticky bit; rounding it to any format
rounds the exact quotient. -/
def quotSticky (m k e g : Nat) (me ke : Int) : FVal :=
  let bits := 2 * (e + g) + 160
  let q := m * 2 ^ bits / k
  let r := m * 2 ^ bits % k
  .fin false (2 * q + (if r = 0 then 0 else 1)) (me - ke - bits - 1)

/-- The quotient `x / y` of two values, exact up to a sticky bit, with its flags. -/
def FVal.div (x y : FVal) : FVal × NFlags :=
  match x, y with
  | .nan, _ => (.nan, flNanIn)
  | _, .nan => (.nan, flNanIn)
  | .inf _, .inf _ => (.nan, flInv)
  | .inf a, .fin b _ _ => (.inf (a != b), 0)
  | .fin a _ _, .inf b => (.fin (a != b) 0 0, 0)
  | .fin a m e, .fin b k g =>
    if k = 0 then (if m = 0 then (.nan, flInv) else (.inf (a != b), 0))
    else match quotSticky m k (Nat.log2 m) (Nat.log2 k) e g with
      | .fin _ q x => (.fin (a != b) q x, 0)
      | w => (w, 0)

/-- The integer square root, one bit at a time from bit `i` down. -/
def isqrtFrom (i n r : Nat) : Nat :=
  match i with
  | 0 => if (r + 1) * (r + 1) ≤ n then r + 1 else r
  | j + 1 => if (r + 2 ^ (j + 1)) * (r + 2 ^ (j + 1)) ≤ n then isqrtFrom j n (r + 2 ^ (j + 1)) else isqrtFrom j n r

/-- The integer square root. -/
def isqrt (n : Nat) : Nat := isqrtFrom (Nat.log2 n / 2 + 1) n 0

/-- The square root, exact up to a sticky bit. A negative value other than −0 is invalid; −0 gives −0. -/
def FVal.sqrt (x : FVal) : FVal × NFlags :=
  match x with
  | .nan => (.nan, flNanIn)
  | .inf n => if n then (.nan, flInv) else (.inf false, 0)
  | .fin n m e =>
    if m = 0 then (.fin n 0 0, 0)
    else if n then (.nan, flInv)
    else
      let e' := if e % 2 = 0 then e - 320 else e - 321
      let big := m * 2 ^ (e - e').toNat
      let r := isqrt big
      (.fin false (2 * r + (if r * r = big then 0 else 1)) (e' / 2 - 1), 0)

/-- An E8M0 scale as an exponent; `none` is the NaN scale (R17). -/
def scaleExp (e : Nat) : Option Int := if e % 256 = 255 then none else some ((e % 256 : Nat) - 127)

/-- A value times a power of two. -/
def FVal.scale (x : FVal) (k : Int) : FVal :=
  match x with
  | .fin n m e => .fin n m (e + k)
  | w => w

/-- The value of one element code of a format without its block's scale (R12, R16, R17, R19). An I4E code is decoded
with its block (`i4eDecode`). -/
def Elem.decode (t : Elem) (x : Nat) : FVal :=
  match t with
  | .fp f => f.decode x
  | .int w s => FVal.ofInt (if s then toSigned w x else (x % 2 ^ w : Nat))
  | .mxInt8 => (FVal.ofInt (toSigned 8 x)).scale (-6)
  | .e8m0 => match scaleExp x with | none => .nan | some k => .fin false 1 k
  | .i4e => FVal.ofInt (toSigned 4 x)

/-- The elements of one I4E block from its slots (R20), and whether an escape was malformed. -/
def i4eDecode (slots : List Nat) : List FVal × Bool :=
  match slots with
  | [] => ([], false)
  | [n] => if n = 8 then ([.fin false 0 0], true) else ([FVal.ofInt (toSigned 4 n)], false)
  | [n, k] =>
    if n = 8 then ([.fin false 0 0, .fin false 0 0], true)
    else
      let r := i4eDecode [k]
      (FVal.ofInt (toSigned 4 n) :: r.1, r.2)
  | n :: k :: h :: rest =>
    if n = 8 then
      let r := i4eDecode rest
      (e4m3.decode (h * 16 + k) :: .fin false 0 0 :: .fin false 0 0 :: r.1, r.2)
    else
      let r := i4eDecode (k :: h :: rest)
      (FVal.ofInt (toSigned 4 n) :: r.1, r.2)

/-- The elements of one block of a block-scaled format: each code's value times the block's scale, with SCALENAN for
a NaN scale and MALFORMED for a malformed escape (R19, R20). -/
def blockDecode (t : Elem) (scale : Nat) (codes : List Nat) : List FVal × NFlags :=
  let d : List FVal × Bool := match t with
    | .i4e => i4eDecode codes
    | w => (codes.map w.decode, false)
  let fm : NFlags := if d.2 then flMalformed else 0
  match scaleExp scale with
  | none => (d.1.map (fun _ => .nan), fm ||| flScaleNan)
  | some k => (d.1.map (fun v => v.scale k), fm)

/-- Conversion of a value into an element of a format on a path (R28 to R30). E8M0 takes the exponent of the nearest
power of two. -/
def Elem.encode (t : Elem) (mode : RMode) (sat drain : Bool) (v : FVal) : Nat × NFlags :=
  match t with
  | .fp f => f.convert mode sat drain v
  | .int w s => convertInt w s mode v
  | .mxInt8 => convertInt 8 true mode (v.scale 6)
  | .e8m0 => match v with
    | .nan => (255, flNanIn)
    | .inf _ => (254, flSat)
    | .fin _ m e =>
      let k := floorLog2 m e + 127
      if m = 0 then (0, flSat) else if k < 0 then (0, flSat) else if 254 < k then (254, flSat) else (k.toNat, 0)
  | .i4e => convertInt 4 true mode v

/-- The exponent of the largest normal value of an element format (R31). -/
def Elem.maxExp (t : Elem) : Int :=
  match t with
  | .fp f => floorLog2 1 (match f.decode f.maxCode with | .fin _ m e => floorLog2 m e | _ => 0)
  | .mxInt8 => 0
  | _ => 0

/-- The larger magnitude of two finite values. -/
def maxMag (x y : FVal) : FVal :=
  match x, y with
  | .fin _ m e, .fin _ k g => if (FVal.fin false m e).lt (.fin false k g) then .fin false k g else .fin false m e
  | .fin _ m e, _ => .fin false m e
  | _, .fin _ k g => .fin false k g
  | _, _ => .fin false 0 0

/-- The scale of a block chosen by R31, before its NaN row. -/
def blockScale (t : Elem) (vs : List FVal) : Nat :=
  match vs.foldl maxMag (.fin false 0 0) with
  | .fin _ m e =>
    if m = 0 then 127
    else
      let k := floorLog2 m e - t.maxExp + 127
      if k < 0 then 0 else if 254 < k then 254 else k.toNat
  | _ => 127

/-- One element of a block into a block-scaled format (R31): an infinity becomes the largest value of its sign. -/
def blockElem (t : Elem) (e : Nat) (v : FVal) : Nat × NFlags :=
  match t, v with
  | .fp f, .inf s => (f.signCode s + f.maxCode, flSat)
  | _, _ => t.encode .nearestEven true false (v.scale (127 - (e : Int)))

/-- Conversion of one block into a block-scaled format (R31): the scale, the element codes and the flags. The codes
of a block with a NaN are 0, as 07 R170 writes them (DEDUCED for `tquant`, log 49). -/
def blockEncode (t : Elem) (vs : List FVal) : Nat × List Nat × NFlags :=
  let e := blockScale t vs
  let conv := vs.map (blockElem t e)
  if vs.any FVal.isNan then (255, vs.map (fun _ => 0), flScaleNan ||| flNanIn)
  else (e, conv.map Prod.fst, conv.foldl (fun a c => a ||| c.2) (0 : NFlags))

end Sys2Proof.Machine
end

