-- ==== Sys2Proof/Machine/NumFn.lean ====
section
/-! DEFINITION. The functions that return a correctly rounded value (spec 07 R166, R167, 06 R146). A transcendental
value is enclosed in fixed point between two bounds that are tightened until both round to one code (log 10). -/
namespace Sys2Proof.Machine

/-- ln 2 at `2^-p`, less at most `p + 1` units: the sum of 1/(k·2^k). -/
def ln2Fix (p : Nat) : Nat := (List.range (p + 1)).foldl (fun a k => a + 2 ^ p / ((k + 1) * 2 ^ (k + 1))) 0

/-- exp(y) at `2^-p` for `y = a·2^-p` below 1, by its series. -/
def expFix (p a : Nat) : Nat :=
  ((List.range p).foldl (fun (x : Nat × Nat) k => let t := x.2 * a / 2 ^ p / (k + 1); (x.1 + t, t)) (2 ^ p, 2 ^ p)).1

/-- atanh(z) at `2^-p` for `z = a·2^-p` below 1/2, by its series. -/
def atanhFix (p a : Nat) : Nat :=
  ((List.range p).foldl (fun (x : Nat × Nat) k => (x.1 + x.2 / (2 * k + 1), x.2 * a / 2 ^ p * a / 2 ^ p)) (0, a)).1

/-- atan(1/n) at `2^-p`, by its alternating series. -/
def atanInv (p n : Nat) : Int :=
  ((List.range p).foldl (fun (x : Int × Nat) k =>
    let t : Int := (x.2 / (2 * k + 1) : Nat)
    (if k % 2 = 0 then x.1 + t else x.1 - t, x.2 / (n * n))) (0, 2 ^ p / n)).1

/-- π at `2^-p` (Machin's sum). -/
def piFix (p : Nat) : Int := 16 * atanInv p 5 - 4 * atanInv p 239

/-- sin r and cos r at `2^-p` for `r = a·2^-p`, |r| < 1, by their series. -/
def sinCosFix (p : Nat) (a : Int) : Int × Int :=
  let x := (List.range p).foldl (fun (x : Int × Int × Int) (k : Nat) =>
    let t := x.2.2 * a / (2 ^ p : Nat) / ((k : Int) + 1)
    -- the term of degree k + 1: its part of sin (odd degree) or cos (even degree) with the series' sign
    if k % 4 = 0 then (x.1 + t, x.2.1, t)
    else if k % 4 = 1 then (x.1, x.2.1 - t, t)
    else if k % 4 = 2 then (x.1 - t, x.2.1, t)
    else (x.1, x.2.1 + t, t)) ((0, (2 ^ p : Nat), (2 ^ p : Nat)) : Int × Int × Int)
  (x.1, x.2.1)

/-- A fixed-point value just inside its bounds, as an exact value with a sticky last bit. -/
def fixVal (v : Int) (p : Nat) (e : Int) : FVal := .fin (decide (v < 0)) (2 * v.natAbs + 1) (e - p - 1)

/-- Tighten the bounds of `approx` (a value at `2^-p`, times `2^e`, within `2^20` units) until both round to one code
of a format. -/
def zivRound (f : FFmt) (approx : Nat → Int × Int) (p fuel : Nat) : FVal :=
  match fuel with
  | 0 => let a := approx p; fixVal a.1 p a.2
  | n + 1 =>
    let a := approx p
    let lo := fixVal (a.1 - 2 ^ 20) p a.2
    let hi := fixVal (a.1 + 2 ^ 20) p a.2
    if (f.convert .nearestEven false false lo).1 = (f.convert .nearestEven false false hi).1 then lo
    else zivRound f approx (2 * p) n

/-- `m·2^e` at `2^-p`, rounded down. -/
def toFix (m : Nat) (e : Int) (p : Nat) : Nat := if 0 ≤ e + p then m * 2 ^ (e + p).toNat else m / 2 ^ (-(e + p)).toNat

/-- 2^x for a result of a format (R166). -/
def FVal.exp2 (f : FFmt) (x : FVal) : FVal × NFlags :=
  match x with
  | .nan => (.nan, flNanIn)
  | .inf n => (if n then .fin false 0 0 else .inf false, 0)
  | .fin n m e =>
    if m = 0 then (.fin false 1 0, 0)
    else if 12 ≤ floorLog2 m e then (.fin false 1 (if n then -100000 else 100000), 0)
    else if m % 2 ^ (-e).toNat = 0 then
      (let k : Int := (m * 2 ^ e.toNat / 2 ^ (-e).toNat : Nat)
       (.fin false 1 (if n then -k else k), 0))
    else
      (zivRound f (fun p =>
        let v : Int := (toFix m e p : Nat)
        let w : Int := if n then -v else v
        let k := w / (2 ^ p : Nat)
        let fr := (w % (2 ^ p : Nat)).toNat
        ((expFix p (fr * ln2Fix p / 2 ^ p) : Nat), k)) 256 4, 0)

/-- log2 x for a result of a format (R166). -/
def FVal.log2 (f : FFmt) (x : FVal) : FVal × NFlags :=
  match x with
  | .nan => (.nan, flNanIn)
  | .inf n => if n then (.nan, flInv) else (.inf false, 0)
  | .fin n m e =>
    if m = 0 then (.inf true, 0)
    else if n then (.nan, flInv)
    else
      let l := Nat.log2 m
      if m = 2 ^ l then (FVal.ofInt ((l : Int) + e), 0)
      else
        (zivRound f (fun p =>
          let up := 3 * 2 ^ l < 2 * m            -- x / 2^l above 3/2: use x / 2^(l+1)
          let den := if up then 2 ^ (l + 1) else 2 ^ l
          let num : Nat := if up then den - m else m - den
          let at_ : Int := (2 * atanhFix p (num * 2 ^ p / (m + den)) : Nat)
          let lg : Int := at_ * (2 ^ p : Nat) / (ln2Fix p : Nat)
          let k : Int := (l : Int) + e + (if up then 1 else 0)
          (k * (2 ^ p : Nat) + (if up then -lg else lg), 0)) 256 4, 0)

/-- sin x (`cosine` false) or cos x for a result of a format; the argument is reduced exactly (R166). -/
def FVal.sinCos (f : FFmt) (cosine : Bool) (x : FVal) : FVal × NFlags :=
  match x with
  | .nan => (.nan, flNanIn)
  | .inf _ => (.nan, flInv)
  | .fin n m e =>
    if m = 0 then (if cosine then .fin false 1 0 else .fin n 0 0, 0)
    else
      (zivRound f (fun p =>
        let g := p + e.toNat + Nat.log2 m + 8
        let v : Int := (toFix m e g : Nat)
        let half := piFix g / 2
        let k := (v + half / 2) / half
        let r := (v - k * half) / (2 ^ (g - p) : Nat)
        let sc := sinCosFix p r
        let q := (k % 4).toNat
        let s : Int := if q = 0 then sc.1 else if q = 1 then sc.2 else if q = 2 then -sc.1 else -sc.2
        let c : Int := if q = 0 then sc.2 else if q = 1 then -sc.1 else if q = 2 then -sc.2 else sc.1
        (if cosine then c else if n then -s else s, 0)) 320 4, 0)

/-- 1/√x, exact up to a sticky bit, with the special values of R166. -/
def FVal.rsqrt (x : FVal) : FVal × NFlags :=
  match x with
  | .nan => (.nan, flNanIn)
  | .inf n => if n then (.nan, flInv) else (.fin false 0 0, 0)
  | .fin n m e =>
    if m = 0 then (.inf n, 0)
    else if n then (.nan, flInv)
    else
      let m' := if e % 2 = 0 then m else 2 * m
      let e' := if e % 2 = 0 then e else e - 1
      let k := Nat.log2 m' + 200
      let q := isqrt (2 ^ (2 * k) / m')
      (.fin false (2 * q + (if q * q * m' = 2 ^ (2 * k) then 0 else 1)) (-(e' / 2) - k - 1), 0)

/-- 1/x with the special values of R166. -/
def FVal.rcp (x : FVal) : FVal × NFlags :=
  match x with
  | .fin n m _ => if m = 0 then (.inf n, 0) else FVal.div (.fin false 1 0) x
  | w => FVal.div (.fin false 1 0) w

end Sys2Proof.Machine
end

