-- ==== Sys2Proof/Machine/LaneNum.lean ====
section
/-! DEFINITION. The arithmetic of lane instructions on the bits of their operands (spec 07 R152 to R170): types,
integer results, and results in the floating-point formats. -/
namespace Sys2Proof.Machine

/-! ### Types (03 R76) -/

def tyB8 : Nat := 0x00
def tyB16 : Nat := 0x01
def tyB32 : Nat := 0x02
def tyB64 : Nat := 0x03
def tyS8 : Nat := 0x04
def tyS16 : Nat := 0x05
def tyS32 : Nat := 0x06
def tyS64 : Nat := 0x07
def tyN8 : Nat := 0x08
def tyN16 : Nat := 0x09
def tyN32 : Nat := 0x0A
def tyN64 : Nat := 0x0B
def tyF32 : Nat := 0x0E
def tyF64 : Nat := 0x0F
def tyF16x2 : Nat := 0x10
def tyBf16x2 : Nat := 0x11

/-- Whether a type's operands are even pairs (07 R152). -/
def tyWide (ty : Nat) : Bool := ty == 0x03 || ty == 0x07 || ty == 0x0B || ty == 0x0F
/-- The width in bits that a type takes in registers. -/
def tyW (ty : Nat) : Nat := if tyWide ty then 64 else 32
/-- Whether a type is signed. -/
def tySigned (ty : Nat) : Bool := 4 ≤ ty && ty ≤ 7
/-- The size in bytes of a memory access of a type. -/
def tySize (ty : Nat) : Nat := if ty < 0x0C then 2 ^ (ty % 4) else if ty = 0x0F then 8 else 4

/-- The types of the integer arithmetic, the bitwise and the floating-point instructions. -/
def tysInt : List Nat := [0x06, 0x0A, 0x07, 0x0B]
def tysSigned : List Nat := [0x06, 0x07]
def tysBits : List Nat := [0x02, 0x03]
def tysFloat : List Nat := [0x0E, 0x10, 0x11]
def tysLoad : List Nat := [0x08, 0x04, 0x09, 0x05, 0x02, 0x03]
def tysStore : List Nat := [0x00, 0x01, 0x02, 0x03]

/-- The immediate of an arithmetic instruction at its type (07 R153). -/
def laneImm (ty : Nat) (imm : BitVec 16) : Nat :=
  if ty = 0x0E then imm.toNat * 65536
  else if ty = 0x0F then (fp64.convert .nearestEven false false (bf16.decode imm.toNat)).1
  else if ty = 0x10 ∨ ty = 0x11 then imm.toNat * 65537
  else if 4 ≤ ty ∧ ty ≤ 0x0B then ofSigned (tyW ty) imm.toInt
  else imm.toNat

/-! ### Integer results (07 R156 to R162) -/

/-- An operand as an integer by its type's signedness. -/
def tyInt (ty x : Nat) : Int := if tySigned ty then toSigned (tyW ty) x else (x % 2 ^ tyW ty : Nat)

/-- An integer result modulo 2^W, or clamped with SAT (07 R156). -/
def intResult (ty : Nat) (sat : Bool) (i : Int) : Nat × NFlags :=
  if sat then clampInt (tyW ty) (tySigned ty) i else (ofSigned (tyW ty) i, 0)

/-- The low bit of `mod`. -/
def modBit0 (mod : Nat) : Bool := mod % 2 == 1

def liAdd (ty mod a b : Nat) : Nat × NFlags := intResult ty (modBit0 mod) (tyInt ty a + tyInt ty b)
def liSub (ty mod a b : Nat) : Nat × NFlags := intResult ty (modBit0 mod) (tyInt ty a - tyInt ty b)
def liMul (ty _mod a b : Nat) : Nat × NFlags := (a * b % 2 ^ tyW ty, 0)
def liMulh (ty _mod a b : Nat) : Nat × NFlags := (ofSigned (tyW ty) (tyInt ty a * tyInt ty b / (2 ^ tyW ty : Nat)), 0)
def liMad (ty _mod a b c : Nat) : Nat × NFlags := ((a * b + c) % 2 ^ tyW ty, 0)
def liAbs (ty mod a : Nat) : Nat × NFlags := intResult ty (modBit0 mod) ((tyInt ty a).natAbs : Nat)
def liNeg (ty mod a : Nat) : Nat × NFlags := intResult ty (modBit0 mod) (-(tyInt ty a))
def liMin (ty _mod a b : Nat) : Nat × NFlags := (if tyInt ty b < tyInt ty a then b else a, 0)
def liMax (ty _mod a b : Nat) : Nat × NFlags := (if tyInt ty a < tyInt ty b then b else a, 0)
def liAnd (_ty _mod a b : Nat) : Nat × NFlags := (Nat.land a b, 0)
def liOr (_ty _mod a b : Nat) : Nat × NFlags := (Nat.lor a b, 0)
def liXor (_ty _mod a b : Nat) : Nat × NFlags := (Nat.xor a b, 0)
def liNot (ty _mod a : Nat) : Nat × NFlags := (2 ^ tyW ty - 1 - a % 2 ^ tyW ty, 0)
def liShl (ty _mod a b : Nat) : Nat × NFlags := (a * 2 ^ (b % tyW ty) % 2 ^ tyW ty, 0)
def liShr (ty _mod a b : Nat) : Nat × NFlags := (a / 2 ^ (b % tyW ty), 0)
def liSra (ty _mod a b : Nat) : Nat × NFlags := (ofSigned (tyW ty) (toSigned (tyW ty) a / (2 ^ (b % tyW ty) : Nat)), 0)
/-- Rotation left, or right with `mod`[0]. -/
def liRot (ty mod a b : Nat) : Nat × NFlags :=
  let w := tyW ty
  let k := if modBit0 mod then (w - b % w) % w else b % w
  ((a * 2 ^ k) % 2 ^ w + a / 2 ^ (w - k), 0)
/-- The bits of a number below `2^w` in reverse order. -/
def revBits (w a : Nat) : Nat := (List.range w).foldl (fun r j => 2 * r + a / 2 ^ j % 2) 0
def liBrev (ty _mod a : Nat) : Nat × NFlags := (revBits (tyW ty) a, 0)
/-- bfe (07 R158). -/
def liBfe (ty pos len a : Nat) : Nat × NFlags :=
  let n := min len (tyW ty - pos)
  let f := a / 2 ^ pos % 2 ^ n
  (if n = 0 then 0 else if tySigned ty then ofSigned (tyW ty) (toSigned n f) else f, 0)
/-- bfi (07 R158). -/
def liBfi (ty _mod a b c : Nat) : Nat × NFlags :=
  let pos := b % 256
  let n := min (b / 256 % 256) (tyW ty - pos)
  let hole := 2 ^ pos * (2 ^ n - 1)
  (if tyW ty ≤ pos then c else c - Nat.land c hole + 2 ^ pos * (a % 2 ^ n), 0)
/-- prmt (07 R158). -/
def liPrmt (imm a b : Nat) : Nat :=
  let src (i : Nat) : Nat := (if i < 4 then a / 2 ^ (8 * i) else b / 2 ^ (8 * (i - 4))) % 256
  let r (k prev : Nat) : Nat :=
    if k ≠ 0 ∧ imm / 2 ^ (12 + k) % 2 = 1 then (if 128 ≤ prev then 255 else 0) else src (imm / 2 ^ (3 * k) % 8)
  let r0 := r 0 0
  let r1 := r 1 r0
  let r2 := r 2 r1
  r0 + 256 * r1 + 65536 * r2 + 16777216 * r 3 r2
/-- dot4 (07 R162): `ext`[1] A signed, `ext`[0] B signed. -/
def liDot4 (ext : Nat) (sat : Bool) (a b c : Nat) : Nat × NFlags :=
  let byte (s : Bool) (x k : Nat) : Int := let v := x / 2 ^ (8 * k) % 256; if s then toSigned 8 v else (v : Nat)
  let s : Int := (List.range 4).foldl (fun (t : Int) k =>
    t + byte (ext / 2 % 2 == 1) a k * byte (ext % 2 == 1) b k) (toSigned 32 c)
  intResult 0x06 sat s

/-- The comparison of a condition code, from less-than and equality (07 R160). -/
def ccHolds (cc : Nat) (lt eq : Bool) : Bool :=
  match cc with
  | 0 => eq
  | 1 => !eq
  | 2 => lt
  | 3 => lt || eq
  | 4 => !lt && !eq
  | _ => !lt

/-! ### Floating-point results (07 R163 to R167) -/

/-- Apply an operation to each element of a floating-point type. -/
def perElem (ty : Nat) (g : FFmt → Nat → Nat → Nat → Nat × NFlags) (a b c : Nat) : Nat × NFlags :=
  if ty = 0x0F then g fp64 a b c
  else if ty = 0x10 ∨ ty = 0x11 then
    let f := if ty = 0x10 then fp16 else bf16
    let lo := g f (a % 65536) (b % 65536) (c % 65536)
    let hi := g f (a / 65536) (b / 65536) (c / 65536)
    (lo.1 + 65536 * hi.1, lo.2 ||| hi.2)
  else g fp32 a b c

/-- An exact operation, rounded once in the operands' format. -/
def rounded (op : FVal → FVal → FVal → FVal × NFlags) (f : FFmt) (a b c : Nat) : Nat × NFlags :=
  let r := op (f.decode a) (f.decode b) (f.decode c)
  f.result r.1 r.2

/-- fmin and fmax return the bits of one operand (07 R164). -/
def pickBits (larger : Bool) (f : FFmt) (a b _c : Nat) : Nat × NFlags :=
  let x := f.decode a
  let y := f.decode b
  if x.isNan && y.isNan then (f.nanCode, flNanIn)
  else if x.isNan then (b, flNanIn)
  else if y.isNan then (a, flNanIn)
  else
    let less := x.lt y || (x.eqv y && x.neg? && !y.neg?)
    (if less != larger then a else b, 0)

def lfAdd (ty _mod a b : Nat) : Nat × NFlags := perElem ty (rounded (fun x y _ => x.add y)) a b 0
def lfSub (ty _mod a b : Nat) : Nat × NFlags := perElem ty (rounded (fun x y _ => x.add y.negate)) a b 0
def lfMul (ty _mod a b : Nat) : Nat × NFlags := perElem ty (rounded (fun x y _ => x.mul y)) a b 0
def lfFma (ty _mod a b c : Nat) : Nat × NFlags := perElem ty (rounded FVal.fma) a b c
def lfMin (ty _mod a b : Nat) : Nat × NFlags := perElem ty (pickBits false) a b 0
def lfMax (ty _mod a b : Nat) : Nat × NFlags := perElem ty (pickBits true) a b 0
/-- The sign bit of each element cleared or inverted (07 R163). -/
def lfAbs (ty _mod a : Nat) : Nat × NFlags :=
  perElem ty (fun f x _ _ => (x % 2 ^ (f.ebits + f.fbits), 0)) a 0 0
def lfNeg (ty _mod a : Nat) : Nat × NFlags :=
  perElem ty (fun f x _ _ => ((x + 2 ^ (f.ebits + f.fbits)) % 2 ^ (f.ebits + f.fbits + 1), 0)) a 0 0
/-- A function instruction in a format (07 R166, R167). -/
def lfFun (f : FFmt) (g : FVal → FVal × NFlags) (a : Nat) : Nat × NFlags :=
  let r := g (f.decode a)
  f.result r.1 r.2
/-- fsetp and dsetp (07 R165): the comparison and its flag. -/
def lfCmp (f : FFmt) (cc a b : Nat) : Bool × NFlags :=
  let x := f.decode a
  let y := f.decode b
  let nan := x.isNan || y.isNan
  let r : Bool := match cc with
    | 6 => !nan
    | 7 => nan
    | 1 => nan || !x.eqv y
    | 0 => x.eqv y
    | 2 => x.lt y
    | 3 => !nan && !y.lt x
    | 4 => y.lt x
    | _ => !nan && !x.lt y
  (r, if nan then flNanIn else 0)

/-! ### Conversion (07 R168 to R170) -/

/-- The value of an element of a format at a position of a register, with the flags of reading it. -/
def cvtSource (sf : Fmt) (x pos : Nat) : FVal × NFlags :=
  let code := x / 2 ^ (sf.bits * pos) % 2 ^ sf.bits
  let v := sf.elem.decode code
  (v, if sf.elem == .e8m0 && code == 255 then flScaleNan else 0)

/-- cvt of one value (07 R169). -/
def cvtOne (df sf : Fmt) (sat : Bool) (x : FVal) (code : Nat) : Nat × NFlags :=
  if df.code = sf.code then (match x with
    | .nan => (match df.elem with | .fp f => (f.nanCode, flNanIn) | _ => (code, 0))
    | _ => (code, 0))
  else df.elem.encode .nearestEven sat false x

/-- A code extended to the register (07 R169). -/
def cvtExtend (df : Fmt) (y : Nat) : Nat :=
  match df.elem with
  | .int w true => ofSigned 32 (toSigned w y)
  | _ => y

/-- An element written at a position of a register. -/
def setElem (w pos x y : Nat) : Nat := x - x / 2 ^ (w * pos) % 2 ^ w * 2 ^ (w * pos) + y * 2 ^ (w * pos)

/-! ### Atomic operations (08 R192, R193) -/

/-- The types each atomic operation accepts. -/
def atomTyOk (op ty : Nat) : Bool :=
  if op ≤ 2 then [0x06, 0x0A, 0x07, 0x0B, 0x0E, 0x0F].contains ty
  else if op ≤ 6 then ty == 0x02 || ty == 0x03
  else false

/-- The new value of an atomic operation and its flags. -/
def atomVal (op ty old b : Nat) : Nat × NFlags :=
  let fl := ty == 0x0E || ty == 0x0F
  match op with
  | 0 => if fl then lfAdd ty 0 old b else ((old + b) % 2 ^ tyW ty, 0)
  | 1 => if fl then lfMin ty 0 old b else liMin ty 0 old b
  | 2 => if fl then lfMax ty 0 old b else liMax ty 0 old b
  | 3 => (Nat.land old b, 0)
  | 4 => (Nat.lor old b, 0)
  | 5 => (Nat.xor old b, 0)
  | _ => (b, 0)

end Sys2Proof.Machine
end

