-- ==== Sys2Proof/Syntax.lean ====
section
/-! DEFINITION. The instructions and happenings of the Bilser 9: one constructor of Instr for each row of the opcode
table. Operations of the tile stream carry the fields of their slot (02 R44, R46), lane instructions the fields of
their words (03 R74, R75); the rows that are no instruction word (a completion, an arrival, a register write from
outside, a fault of a unit) carry the unit they happen at and what comes from outside the machine. -/
namespace Sys2Proof

/-- The fields of a scalar slot other than op and guard (02 R44); `x` is the extension word when the slot owns it. -/
structure SFields where
  dst : BitVec 6
  ma  : Bool
  sa  : BitVec 6
  mb  : Bool
  sb  : BitVec 6
  imm : BitVec 16
  x   : Option W32
deriving DecidableEq, Repr, Inhabited

/-- An operand field of the engine slot (02 R46). -/
structure EOperand where
  kind : BitVec 2
  idx  : BitVec 6
  hold : Bool
deriving DecidableEq, Repr, Inhabited

/-- The fields of the engine slot other than the figure number and the guard (02 R46). -/
structure EFields where
  scope : BitVec 3
  opa   : EOperand
  opb   : EOperand
  opc   : EOperand
  opd   : EOperand
  mod   : BitVec 12
deriving DecidableEq, Repr, Inhabited

/-- The fields of a short lane instruction (03 R74). -/
structure LShort where
  gn : Bool
  gp : BitVec 3
  d  : BitVec 7
  a  : BitVec 7
  b  : BitVec 7
deriving DecidableEq, Repr, Inhabited

/-- The fields of a long lane instruction (03 R74, R75). `imm` is also the pair `ext`, `c`. -/
structure LLong where
  gn  : Bool
  gp  : BitVec 3
  d   : BitVec 7
  a   : BitVec 7
  b   : BitVec 7
  ty  : BitVec 5
  u   : Bool
  mod : BitVec 4
  imm : BitVec 16
deriving DecidableEq, Repr, Inhabited

/-- Bits [47:39] of the second word (03 R75). -/
def LLong.ext (f : LLong) : Nat := f.imm.toNat / 128
/-- Bits [38:32] of the second word (03 R75). -/
def LLong.c (f : LLong) : Nat := f.imm.toNat % 128

/-- A waiter of a core: a tile context, or the strand in a slot of a partition (10 R244). -/
inductive Waiter where
  | ctx (c : Nat)
  | strand (part slot : Nat)
deriving DecidableEq, Repr, Inhabited

/-- Who writes or reads a register from outside its own row: a host through a port, a tile context or a strand
(16 R336, 22 R412). -/
inductive Issuer where
  | host (port : Nat)
  | ctx (core c : Nat)
  | strand (core part slot : Nat)
deriving DecidableEq, Repr, Inhabited

/-- A register that has no row of its own (00 R8): a system or Causeway register by its number (16 R337, 19 R379),
the BAR 2 window (22 R412), a queue's BASE (22 R415), and a 64-bit word of an MSI-X entry (22 R412). -/
inductive RegId where
  | sys (n : Nat)
  | bar2win
  | qbase (q : Nat)
  | msix (entry word : Nat)
deriving DecidableEq, Repr, Inhabited

/-- Where a soft error strikes (15 R317, 16 R332, 06 R143). -/
inductive ErrPlace where
  | line (addr : Nat)
  | landing (core off : Nat)
  | operandBuffer (core part off : Nat)
  | accumulator (core part z row : Nat)
deriving DecidableEq, Repr, Inhabited

/-- The unit an error is counted against (23 R435). -/
inductive ErrUnit where
  | hbmLine (addr : Nat)
  | landingWord (core off : Nat)
  | operandWord (core part off : Nat)
  | accumWord (core part off : Nat)
  | core (c : Nat)
  | link (port : Nat)
  | bootUnit (step unit : Nat)
deriving DecidableEq, Repr, Inhabited

/-- What a boot step found: the units whose test failed, whether the step failed, whether its alternate then passed,
and its duration in µs (23 R430, R431). -/
structure BootOutcome where
  failed    : Bool
  altPassed : Bool
  units     : List Nat
  time      : Nat
deriving DecidableEq, Repr, Inhabited

/-- A Causeway packet: the fields of its header flit (19 R372) and its data bytes. -/
structure Packet where
  ptype  : Nat
  circ   : Nat
  src    : Nat
  dst    : Nat
  gen    : Nat
  tag    : Nat
  vclass : Nat
  tenant : Nat
  dcore  : Nat
  laddr  : Nat
  addr   : Word
  value  : Word
  dctr   : Nat
  aux    : Nat
  data   : List Byte
deriving DecidableEq, Repr, Inhabited

/-- One constructor for each row of the opcode table: the two issues, the figures and the lane instructions, then the other rows in
the table's order. -/
inductive Instr where
  | issuePass (core : Nat) (part : Nat)
  | bundleIssue (core : Nat)
  | tres (f : EFields)
  | trel (f : EFields)
  | tcfg (f : EFields)
  | tld (f : EFields)
  | tldX8 (f : EFields)
  | tldX16 (f : EFields)
  | tst (f : EFields)
  | tzero (f : EFields)
  | zclr (f : EFields)
  | zld (f : EFields)
  | zdrain (f : EFields)
  | fbind (f : EFields)
  | fig (f : EFields)
  | mmaBf16 (f : EFields)
  | mmaF16 (f : EFields)
  | mmaE4m3 (f : EFields)
  | mmaE5m2 (f : EFields)
  | mmaI8 (f : EFields)
  | mmaMx8 (f : EFields)
  | mmaMx6 (f : EFields)
  | mmaMx4 (f : EFields)
  | mmaI4 (f : EFields)
  | mmaI4e (f : EFields)
  | mmaF64 (f : EFields)
  | tcvt (f : EFields)
  | tadd (f : EFields)
  | tmul (f : EFields)
  | tfma (f : EFields)
  | tscale (f : EFields)
  | tmaxr (f : EFields)
  | tsumr (f : EFields)
  | texp2 (f : EFields)
  | tmask (f : EFields)
  | tsel (f : EFields)
  | tquant (f : EFields)
  | tdequant (f : EFields)
  | ttrans (f : EFields)
  | hardBoundFigure (n : BitVec 8) (f : EFields)
  | routineBoundFigure (n : BitVec 8) (f : EFields)
  | unboundFigureIssue (n : BitVec 8) (f : EFields)
  | retiredFigureIssue (n : BitVec 8) (f : EFields)
  | iadd (f : LShort)
  | isub (f : LShort)
  | imul (f : LShort)
  | laneAnd (f : LShort)
  | laneOr (f : LShort)
  | laneXor (f : LShort)
  | laneShl (f : LShort)
  | laneShr (f : LShort)
  | laneSra (f : LShort)
  | imin (f : LShort)
  | imax (f : LShort)
  | mov (f : LShort)
  | lanePopc (f : LShort)
  | laneClz (f : LShort)
  | not (f : LShort)
  | fadd (f : LShort)
  | fsub (f : LShort)
  | fmul (f : LShort)
  | fmin (f : LShort)
  | fmax (f : LShort)
  | fabs (f : LShort)
  | fneg (f : LShort)
  | dadd (f : LShort)
  | dsub (f : LShort)
  | dmul (f : LShort)
  | laneLdL (f : LShort)
  | laneStL (f : LShort)
  | exit (f : LShort)
  | laneNop (f : LShort)
  | yield (f : LShort)
  | iaddLong (f : LLong)
  | isubLong (f : LLong)
  | imulLong (f : LLong)
  | laneAndLong (f : LLong)
  | laneOrLong (f : LLong)
  | laneXorLong (f : LLong)
  | laneShlLong (f : LLong)
  | laneShrLong (f : LLong)
  | laneSraLong (f : LLong)
  | iminLong (f : LLong)
  | imaxLong (f : LLong)
  | movLong (f : LLong)
  | lanePopcLong (f : LLong)
  | laneClzLong (f : LLong)
  | notLong (f : LLong)
  | faddLong (f : LLong)
  | fsubLong (f : LLong)
  | fmulLong (f : LLong)
  | fminLong (f : LLong)
  | fmaxLong (f : LLong)
  | fabsLong (f : LLong)
  | fnegLong (f : LLong)
  | daddLong (f : LLong)
  | dsubLong (f : LLong)
  | dmulLong (f : LLong)
  | laneLdLLong (f : LLong)
  | laneStLLong (f : LLong)
  | exitLong (f : LLong)
  | laneNopLong (f : LLong)
  | yieldLong (f : LLong)
  | imulh (f : LLong)
  | imad (f : LLong)
  | iabs (f : LLong)
  | ineg (f : LLong)
  | rot (f : LLong)
  | brev (f : LLong)
  | bfe (f : LLong)
  | bfi (f : LLong)
  | prmt (f : LLong)
  | laneSel (f : LLong)
  | setp (f : LLong)
  | laneLea (f : LLong)
  | movi (f : LLong)
  | dot4 (f : LLong)
  | ffma (f : LLong)
  | fsetp (f : LLong)
  | frcp (f : LLong)
  | frsq (f : LLong)
  | fsqrt (f : LLong)
  | fexp2 (f : LLong)
  | flog2 (f : LLong)
  | fsin (f : LLong)
  | fcos (f : LLong)
  | dfma (f : LLong)
  | dmin (f : LLong)
  | dmax (f : LLong)
  | dsetp (f : LLong)
  | drcp (f : LLong)
  | cvt (f : LLong)
  | cvtMx (f : LLong)
  | laneLdG (f : LLong)
  | laneStG (f : LLong)
  | ldC (f : LLong)
  | ldt (f : LLong)
  | stt (f : LLong)
  | ldx (f : LLong)
  | stx (f : LLong)
  | atom (f : LLong)
  | atomCas (f : LLong)
  | red (f : LLong)
  | qpush (f : LLong)
  | qpop (f : LLong)
  | qlen (f : LLong)
  | bra (f : LLong)
  | brx (f : LLong)
  | laneCall (f : LLong)
  | laneRet (f : LLong)
  | join (f : LLong)
  | gbar (f : LLong)
  | barv (f : LLong)
  | barw (f : LLong)
  | vote (f : LLong)
  | shfl (f : LLong)
  | matchLanes (f : LLong)
  | laneFence (f : LLong)
  | lanePhase (f : LLong)
  | laneEvarm (f : LLong)
  | laneEvdis (f : LLong)
  | wany (f : LLong)
  | laneEvret (f : LLong)
  | mbsend (f : LLong)
  | bxfer (f : LLong)
  | rget (f : LLong)
  | ratom (f : LLong)
  | rslotAlloc (f : LLong)
  | rslotPut (f : LLong)
  | rslotGet (f : LLong)
  | rslotFree (f : LLong)
  | renq (f : LLong)
  | laneFig (f : LLong)
  | fret (f : LLong)
  | laneCrd (f : LLong)
  | laneCwr (f : LLong)
  | laneTrap (f : LLong)
  | laneBrk (f : LLong)
  | laneFbar (f : LLong)
  | retiredLaneOpcode (w0 : W32) (w1 : W32)
  | longLatencyResult (core : Nat) (ctx : Nat) (n : Nat)
  | add (f : SFields)
  | sub (f : SFields)
  | mul (f : SFields)
  | mulhS (f : SFields)
  | mulhN (f : SFields)
  | divS (f : SFields)
  | divN (f : SFields)
  | remS (f : SFields)
  | remN (f : SFields)
  | and (f : SFields)
  | or (f : SFields)
  | xor (f : SFields)
  | andn (f : SFields)
  | shl (f : SFields)
  | shr (f : SFields)
  | sra (f : SFields)
  | minS (f : SFields)
  | minN (f : SFields)
  | maxS (f : SFields)
  | maxN (f : SFields)
  | clz (f : SFields)
  | popc (f : SFields)
  | sel (f : SFields)
  | madd (f : SFields)
  | lea (f : SFields)
  | li (f : SFields)
  | lih (f : SFields)
  | addI (f : SFields)
  | subI (f : SFields)
  | mulI (f : SFields)
  | mulhSI (f : SFields)
  | mulhNI (f : SFields)
  | divSI (f : SFields)
  | divNI (f : SFields)
  | remSI (f : SFields)
  | remNI (f : SFields)
  | andI (f : SFields)
  | orI (f : SFields)
  | xorI (f : SFields)
  | andnI (f : SFields)
  | shlI (f : SFields)
  | shrI (f : SFields)
  | sraI (f : SFields)
  | minSI (f : SFields)
  | minNI (f : SFields)
  | maxSI (f : SFields)
  | maxNI (f : SFields)
  | cand (f : SFields)
  | cor (f : SFields)
  | cnot (f : SFields)
  | cmpEq (f : SFields)
  | cmpNe (f : SFields)
  | cmpLtS (f : SFields)
  | cmpLeS (f : SFields)
  | cmpLtN (f : SFields)
  | cmpLeN (f : SFields)
  | cmpEqI (f : SFields)
  | cmpNeI (f : SFields)
  | cmpLtSI (f : SFields)
  | cmpLeSI (f : SFields)
  | cmpLtNI (f : SFields)
  | cmpLeNI (f : SFields)
  | catm (f : SFields)
  | cwait (f : SFields)
  | ldLB8N (f : SFields)
  | ldLB16N (f : SFields)
  | ldLB32N (f : SFields)
  | ldLB64 (f : SFields)
  | ldLB8S (f : SFields)
  | ldLB16S (f : SFields)
  | ldLB32S (f : SFields)
  | stLB8 (f : SFields)
  | stLB16 (f : SFields)
  | stLB32 (f : SFields)
  | stLB64 (f : SFields)
  | lpset (f : SFields)
  | call (f : SFields)
  | ret (f : SFields)
  | jmpx (f : SFields)
  | ldGB8N (f : SFields)
  | ldGB16N (f : SFields)
  | ldGB32N (f : SFields)
  | ldGB64 (f : SFields)
  | ldGB8S (f : SFields)
  | ldGB16S (f : SFields)
  | ldGB32S (f : SFields)
  | stGB8 (f : SFields)
  | stGB16 (f : SFields)
  | stGB32 (f : SFields)
  | stGB64 (f : SFields)
  | snext (f : SFields)
  | spawn (f : SFields)
  | spawnNb (f : SFields)
  | sync (f : SFields)
  | merge (f : SFields)
  | tend (f : SFields)
  | tbar (f : SFields)
  | evarm (f : SFields)
  | evdis (f : SFields)
  | twany (f : SFields)
  | evret (f : SFields)
  | crd (f : SFields)
  | cwr (f : SFields)
  | phase (f : SFields)
  | fence (f : SFields)
  | fbar (f : SFields)
  | brk (f : SFields)
  | trap (f : SFields)
  | nop (f : SFields)
  | fstop (f : SFields)
  | fdef (f : SFields)
  | fring (f : SFields)
  | fcode (f : SFields)
  | fwalk (f : SFields)
  | fcopy (f : SFields)
  | fpage (f : SFields)
  | fwait (f : SFields)
  | fstat (f : SFields)
  | retiredOpEmulation (core : Nat) (who : Waiter) (installed : Bool)
  | troupeRendezvous (task : Nat)
  | engineJobStart (core : Nat) (job : Nat)
  | engineJobComplete (core : Nat) (job : Nat)
  | engineErrorStop (core : Nat) (job : Nat)
  | fbindComplete (core : Nat) (ctx : Nat)
  | strandRotation (core : Nat) (part : Nat)
  | laneResultArrival (core : Nat) (part : Nat) (slot : Nat) (n : Nat)
  | hangDetect (core : Nat) (part : Nat) (slot : Nat)
  | hangctlWrite (core : Nat) (part : Nat) (value : Word)
  | joinCompletion (core : Nat) (part : Nat) (slot : Nat) (addr : Nat)
  | joinTimeout (core : Nat) (part : Nat) (slot : Nat) (addr : Nat)
  | qpushServe (core : Nat) (q : Nat)
  | qpopServe (core : Nat) (q : Nat)
  | redPerform (core : Nat) (part : Nat) (slot : Nat) (n : Nat)
  | strandFinish (core : Nat) (part : Nat) (slot : Nat)
  | routineGangStart (core : Nat) (inst : Nat) (part : Nat)
  | instanceComplete (core : Nat) (inst : Nat)
  | landingBankServe (core : Nat) (bank : Nat)
  | writeArrival (core : Nat) (n : Nat)
  | transferStart (core : Nat) (ch : Nat)
  | transferComplete (core : Nat) (ch : Nat) (n : Nat)
  | ferryPageFault (core : Nat) (ch : Nat)
  | ferryHaltError (core : Nat) (ch : Nat)
  | fpageComplete (core : Nat) (ch : Nat)
  | tlbMissWalk (core : Nat) (asid : Nat) (va : Word)
  | eventFire (core : Nat) (who : Waiter) (slot : Nat)
  | timerSlotExpiry (core : Nat) (who : Waiter) (slot : Nat)
  | evpostWrite (core : Nat) (who : Waiter) (value : Word)
  | handlerEntry (core : Nat) (ctx : Nat)
  | strandHandlerEntry (core : Nat) (part : Nat) (slot : Nat)
  | savedTierDelivery (task : Nat) (slot : Nat)
  | stepStart (core : Nat) (ctx : Nat)
  | stepEnd (core : Nat) (ctx : Nat)
  | launchRecordTake (queue : Nat)
  | taskDispatch (die : Nat)
  | staggerExpiry (die : Nat) (launch : Nat)
  | spawnUnpark (die : Nat)
  | spawnAnswer (core : Nat) (ctx : Nat)
  | spawnDeadlockDetect (die : Nat)
  | viewFill (task : Nat)
  | childMerge (task : Nat)
  | syncRelease (core : Nat) (ctx : Nat)
  | trapRecordWrite (core : Nat) (ctx : Nat)
  | trapringWrite (issuer : Issuer) (dbg : Bool) (value : Word)
  | tlbinvWrite (issuer : Issuer) (value : Word)
  | tlbinvComplete
  | preemptWrite (issuer : Issuer) (value : Word)
  | preemptStop (core : Nat) (ctx : Nat)
  | graceExpiry (core : Nat) (ctx : Nat)
  | deviceSwap (task : Nat)
  | taskRestore (task : Nat)
  | retry (issuer : Issuer) (value : Word)
  | skip (issuer : Issuer) (value : Word)
  | replay (issuer : Issuer) (value : Word)
  | discard (issuer : Issuer) (value : Word)
  | abort (issuer : Issuer) (value : Word)
  | ferry (issuer : Issuer) (value : Word)
  | restore (issuer : Issuer) (value : Word)
  | checkpointStream (core : Nat) (ctx : Nat) (item : Nat)
  | cwentWrite (issuer : Issuer) (value : Word)
  | cwswapWrite (issuer : Issuer) (value : Word)
  | cwswapSwitch
  | registerWrite (issuer : Issuer) (reg : RegId) (value : Word)
  | readClear (issuer : Issuer) (n : Nat)
  | linkTraining (port : Nat) (up : Bool) (dly : Nat) (cyc : Option Nat)
  | stopSignal (router : Nat) (port : Nat) (ch : Nat) (on : Bool)
  | circuitFlitArrival (router : Nat) (port : Nat) (circ : Nat) (p : Packet) (last : Bool)
  | circuitFlitDepart (router : Nat) (port : Nat)
  | packetFlitSend (router : Nat) (port : Nat)
  | requestTimeout (core : Nat) (n : Nat)
  | replyArrival (core : Nat) (p : Packet)
  | refusalArrival (core : Nat) (p : Packet)
  | bulkPacketArrival (p : Packet)
  | bulkAckArrival (core : Nat) (p : Packet)
  | remoteRequestServe (p : Packet)
  | mailboxArrival (p : Packet)
  | combineRelease (router : Nat) (n : Nat)
  | rslotAllocServe (p : Packet)
  | rslotPutArrival (p : Packet)
  | rslotTimeout (pr : Nat) (slot : Nat)
  | noticeArrival (p : Packet)
  | rslotFreeArrival (p : Packet)
  | enqueueArrival (p : Packet)
  | enqueueRetry (core : Nat) (n : Nat)
  | bar0AccessError (port : Nat) (off : Nat) (size : Nat) (wr : Bool)
  | hostBar2Read (port : Nat) (off : Nat) (size : Nat)
  | hostBar2Write (port : Nat) (off : Nat) (data : List Byte)
  | hostAtomicop (port : Nat) (off : Nat) (wide : Bool) (op : Nat) (a : Word) (b : Word)
  | qctlWrite (port : Nat) (q : Nat) (value : Word)
  | qctlApply (q : Nat)
  | qtailWrite (port : Nat) (q : Nat) (value : Word)
  | deviceReset (outcomes : List BootOutcome)
  | bootStepLimitExpiry (step : Nat)
  | blockHold (die : Nat) (block : Nat) (cycles : Nat)
  | powerStatusUpdate
  | errorHistoryEntry (unit : ErrUnit) (corrected : Bool) (recurred : Bool) (status : Word)
  | rowSpare (addr : Nat)
  | attestationPoll
  | phaseComplete (core : Nat) (n : Nat)
  | rslotGetTimeout (core : Nat) (n : Nat)
  | timedOutTagRelease (core : Nat) (tag : Nat)
  | singleStep (core : Nat) (part : Nat) (slot : Nat) (pc : Option Word)
  | softError (place : ErrPlace)
  | pcieLinkDown (port : Nat) (up : Bool)
deriving DecidableEq, Repr, Inhabited

end Sys2Proof
end

