-- ==== Sys2Proof/Config.lean ====
section
/-! DEFINITION. What the spec leaves open: free values. Each is a constant without a body, so that nothing can be
proved of its value and a statement holds for every value (the log entry is named at each). -/
namespace Sys2Proof.Config

/-- Which happening comes next when no happening is on the agenda: units interleave in any order the rules allow
(23 R442; log 3). -/
opaque nextTurn : Nat → Instr

/-- Whether the core cycle ends in a step, or a happening comes in it: latencies are not promised (23 R442; log 4). -/
opaque cycleEnds : Nat → Bool

/-- A free bit: which of two outcomes the spec allows happens (11 R257, log 9; others name it in their entries). -/
opaque freeBit : Nat → Nat → Bool

/-- A free word: a value the spec leaves undefined (10 R244, log 15; 12 R276, log 16; 04 R92, log 11). -/
opaque freeWord : Nat → Nat → Word

/-- The device's SLH-DSA signature over a digest, 7,856 bytes, and its certificate (23 R438; log 12). -/
opaque signature : List Byte → List Byte
opaque certificate : List Byte

/-- The firmware images that the Purser measures, by register (23 R437; log 12). -/
opaque firmwareImage : Nat → List Byte

/-- The power readings of the Purser, in mW, by reading and word (23 R434; log 13). -/
opaque powerReading : Nat → Nat → Nat

/-- The hash by which bulk packets choose among parallel links (19 R371; log 22). -/
opaque bulkHash : Nat → Nat → Nat → Nat

/-- The figure-table entries 0x70 to 0x7F that Voxvel firmware binds at boot, 128 bits each (04 R87; log 11). -/
opaque firmwareFigure : Nat → Nat

/-- The capacity in bytes of the memory expander on each CXL port (22 R420; log 23). -/
opaque expanderSize : Nat → Nat

/-- The delay in fabric cycles of a link inside the package, by router and output (19 R376; log 22). -/
opaque linkDelay : Nat → Nat → Nat

end Sys2Proof.Config
end

