-- ==== Sys2Proof/Machine/Tab.lean ====
section
/-! DEFINITION. Tables from numbers to values: the one form in which the model holds every register file, every
memory and every collection of numbered units. A table lists only the entries that differ from a default. -/
namespace Sys2Proof.Machine

/-- A table: pairs of a number and a value, in rising order of number. -/
abbrev Tab (α : Type) := List (Nat × α)

/-- The value of entry `k`; an unlisted entry reads as `d`. -/
def Tab.get {α : Type} (t : Tab α) (d : α) (k : Nat) : α :=
  match t with
  | [] => d
  | (j, v) :: r => if j = k then v else Tab.get r d k

/-- The value of entry `k`, if it is listed. -/
def Tab.find {α : Type} (t : Tab α) (k : Nat) : Option α :=
  match t with
  | [] => none
  | (j, v) :: r => if j = k then some v else Tab.find r k

/-- The table with entry `k` removed. -/
def Tab.erase {α : Type} (t : Tab α) (k : Nat) : Tab α :=
  match t with
  | [] => []
  | (j, v) :: r => if j = k then Tab.erase r k else (j, v) :: Tab.erase r k

/-- The table with `(k, v)` placed before the first entry of a greater number. -/
def Tab.insert {α : Type} (t : Tab α) (k : Nat) (v : α) : Tab α :=
  match t with
  | [] => [(k, v)]
  | (j, w) :: r => if k < j then (k, v) :: (j, w) :: r else (j, w) :: Tab.insert r k v

/-- Entry `k` becomes `v`; the entry is listed whatever `v` is. -/
def Tab.put {α : Type} (t : Tab α) (k : Nat) (v : α) : Tab α := (t.erase k).insert k v

/-- Entry `k` becomes `v`; the entry is listed only when `v` differs from the default `d`. -/
def Tab.set {α : Type} [DecidableEq α] (t : Tab α) (d : α) (k : Nat) (v : α) : Tab α :=
  if v = d then t.erase k else t.put k v

/-- Entry `k` becomes `f` of itself. -/
def Tab.modify {α : Type} (t : Tab α) (d : α) (k : Nat) (f : α → α) : Tab α := t.put k (f (t.get d k))

/-- The numbers listed, rising. -/
def Tab.keys {α : Type} (t : Tab α) : List Nat := t.map Prod.fst

/-- The numbers rise strictly from `lo` on, and no listed value is the default: the canonical form. -/
def Tab.wfFrom {α : Type} [DecidableEq α] (d : α) (lo : Nat) (t : Tab α) : Bool :=
  match t with
  | [] => true
  | (j, v) :: r => decide (lo ≤ j) && (decide (v ≠ d) && Tab.wfFrom d (j + 1) r)

/-- Memory: bytes by address. -/
abbrev Memory := Tab Byte

/-- The canonical form of a memory whose unlisted bytes read as `d`. -/
def Memory.wf (m : Memory) : Bool := Tab.wfFrom (0 : Byte) 0 m

/-- One byte. Unlisted bytes of Landing read 0 (09 R214, after the Purser's boot) and unlisted bytes of global memory
read 0 (log 2, DESIGN CHOICE). -/
def Memory.byte (m : Memory) (a : Nat) : Byte := Tab.get m 0 a

/-- Write one byte, keeping the canonical form. -/
def Memory.setByte (m : Memory) (a : Nat) (b : Byte) : Memory := Tab.set m 0 a b

/-- The `n` bytes from `a` on, as a little-endian number (00 R7). -/
def Memory.read (m : Memory) (a n : Nat) : Nat :=
  match n with
  | 0 => 0
  | k + 1 => (m.byte a).toNat + 256 * Memory.read m (a + 1) k

/-- Write the low `n` bytes of the number `v` from `a` on, little-endian. -/
def Memory.write (m : Memory) (a n v : Nat) : Memory :=
  match n with
  | 0 => m
  | k + 1 => Memory.write (m.setByte a (BitVec.ofNat 8 (v % 256))) (a + 1) k (v / 256)

/-- Write a list of bytes from `a` on. -/
def Memory.writeList (m : Memory) (a : Nat) (bs : List Byte) : Memory :=
  match bs with
  | [] => m
  | b :: r => Memory.writeList (m.setByte a b) (a + 1) r

/-- The bytes of `[a, a+n)`. -/
def Memory.readList (m : Memory) (a n : Nat) : List Byte :=
  match n with
  | 0 => []
  | k + 1 => m.byte a :: Memory.readList m (a + 1) k

end Sys2Proof.Machine
end

