-- ==== Sys2Proof/Machine/State.lean ====
section
/-! DEFINITION. The state of the device: plain data, holding every piece of state the spec gives the machine
(INVENTORY.md, State), the two reasons a step can stop, and the state after reset. -/
namespace Sys2Proof.Machine

/-- Why a step stops where the spec gives no going on. -/
inductive Fault where
  /-- Raised by a happening (an arrival, a completion, a dispatch, a write by a unit) whose condition under its rule
  does not hold: the unit does nothing, so the happening is stuck. Safe: nothing happens (log 5). -/
  | notEnabled
deriving DecidableEq, Repr, Inhabited

/-- Why an instruction has no meaning. -/
inductive Refusal where
  /-- Raised by an arm of exec whose instruction has no meaning yet. Safe. -/
  | notModelled (mnemonic : String)
deriving DecidableEq, Repr, Inhabited

/-- The trap classes (16 R339). -/
inductive TrapClass where
  | illegalOp | retiredOp | illegalBundle | unboundFigure | emptyRead | illegalConvergence | nesting | align | page
  | landingRange | tileState | format | memUncorrectable | fabricPeer | fabricTimeout | queueStale | spawnDeadlock
  | merge | hang | break_ | divide | priv | savedNotice
deriving DecidableEq, Repr, Inhabited

/-- The code of a trap class (16 R339). -/
def TrapClass.code (c : TrapClass) : Nat :=
  match c with
  | .illegalOp => 0x01 | .retiredOp => 0x02 | .illegalBundle => 0x03 | .unboundFigure => 0x04 | .emptyRead => 0x05
  | .illegalConvergence => 0x06 | .nesting => 0x07 | .align => 0x08 | .page => 0x09 | .landingRange => 0x0A
  | .tileState => 0x0B | .format => 0x0C | .memUncorrectable => 0x0D | .fabricPeer => 0x0E | .fabricTimeout => 0x0F
  | .queueStale => 0x10 | .spawnDeadlock => 0x11 | .merge => 0x12 | .hang => 0x13 | .break_ => 0x14 | .divide => 0x15
  | .priv => 0x16 | .savedNotice => 0x80

/-- The fields of a trap record (16 R340), with the answer held for it (R344) and its sequence number once written. -/
structure TrapRec where
  cls    : TrapClass
  engine : Nat
  eidx   : Nat
  slot   : Nat
  cmd    : Nat
  pc     : Word
  addr   : Word
  status : Word
  replay : Bool
  inh    : Bool
  privl  : Nat
  asid   : Nat
  ctxid  : Nat
  topb   : Word
  time   : Nat
  nrec   : Nat
  last   : Bool
  inst   : Option Nat      -- the engine job or instance that a REPLAY replays
  passed : Bool            -- a RETIRED_OP that firmware passed on (04 R92)
  seq    : Option Nat      -- its sequence number once written to its ring
  answer : Option Nat      -- the action that answered it
  applied : Bool           -- its answer has taken effect
deriving DecidableEq, Repr, Inhabited

/-- An event slot (10 R244). -/
structure EvSlot where
  armed   : Bool
  src     : Nat
  index   : Nat
  mode    : Bool
  thr     : Word
  handler : Word
  spent   : Bool
deriving DecidableEq, Repr, Inhabited

def EvSlot.disarmed : EvSlot := ⟨false, 0, 0, false, 0, 0, false⟩

/-- The event state of a waiter: 16 slots and the registers of 10 R248. A firing of this cycle sets its pending bit in
the next (`coming`), and a test sees the bit one cycle later still (`fresh`: 10 R246); `acted` are the slots that an
`evarm` or `evdis` of this cycle has acted on, which lose this cycle's occurrences (10 R247). -/
structure EvState where
  slots  : Tab EvSlot
  pend   : BitVec 16
  mask   : BitVec 16
  pc     : Word
  inh    : Bool
  slot   : Nat
  coming : BitVec 16
  fresh  : BitVec 16
  acted  : BitVec 16
  since  : Option Nat        -- the first cycle of the current run in which an entry has been possible (10 R250)
deriving DecidableEq, Repr, Inhabited

def EvState.init : EvState :=
  { slots := [], pend := 0, mask := 0, pc := 0, inh := false, slot := 0, coming := 0, fresh := 0, acted := 0, since := none }

/-- An outstanding long-latency result of a context (02 R33): the register and bank it fills, its value or, for
spawn.nb, the condition bit, the physical lines and Landing words it read, and its command. -/
structure CtxResult where
  reg     : Nat
  shadow  : Bool           -- the bank in place at issue was the handler's (05 R118)
  value   : Word
  cbit    : Option Nat     -- spawn.nb: the condition bit the answer writes
  spawn   : Option Word    -- spawn.nb: the TOPB address; the value is the spawn index, or 0 for a full pool
  inst    : Option Nat     -- a routine instance that fills the register (12 R277)
  lines   : List Nat
  va      : Word           -- the address read
  pc      : Word
  slot    : Nat
  cmd     : Nat
deriving DecidableEq, Repr, Inhabited

/-- What a context waits for after a bundle has issued. -/
inductive CtxWait where
  | none
  | twany (list : BitVec 16) (resume : Word)   -- 05 R117
  | spawnPark (slot : Nat)                      -- 05 R112: the bundle at PC has not issued; the slot of its spawn
  | sync                                        -- 05 R114, 14 R298: the bundle at PC waits for children to merge
  | released                                    -- the wait of sync has ended; the bundle at PC may issue (14 R310)
  | tbar (k : Nat)                              -- 05 R115
  | phase                                       -- 05 R122
  | stepEnd (kind : Nat)                        -- 05 R111, R114: 0 snext, 1 tend, 2 merge
  | loopStop                                    -- 02 R53
  | troupe                                      -- 06 R127
  | fbind                                       -- 06 R148
  | enter (j : Nat) (resume : Word)             -- a handler is entered as the bundle completes (05 R117)
  | evret                                       -- the handler returns as the bundle completes (05 R118)
  | emulated (inst : Nat)                       -- the instance of a retired figure's emulation runs (12 R283)
  | prePoint                                    -- stands at a pre-emption point, its request visible (16 R346)
deriving DecidableEq, Repr, Inhabited

/-- An operand latch (02 R46): the kind and index held, and the operand value delivered: an x register's value, or the
place of a tile register or accumulator, whose contents stand in the operand buffer and cannot change while the latch is
valid (any write of the register makes it invalid). -/
structure Latch where
  kind  : Nat
  idx   : Nat
  value : Word
deriving DecidableEq, Repr, Inhabited

/-- A tile register of a partition (06 R126, R128): its control record and its issue-order state. Its scoreboard state
follows from the outstanding jobs (06 R129). -/
structure Tile where
  place    : Word
  shape    : Word
  layout   : Word
  reserved : Bool
  written  : Bool
deriving DecidableEq, Repr, Inhabited

def Tile.init : Tile := ⟨0, 0, 0, false, false⟩

/-- A tile context (02 R32). -/
structure Ctx where
  task     : Option Nat
  running  : Bool            -- a step runs on it
  x        : Tab Word
  empty    : List Nat        -- x registers that are empty
  c        : BitVec 16       -- c15 is kept 0 here and reads 1
  ireg     : Tab Word
  pc       : Word
  lpstart  : Word
  trip     : Nat
  next     : Nat
  drain    : Bool
  active   : Bool
  stages   : Nat
  numflags : BitVec 32
  pri      : Nat
  priv     : Nat
  asid     : Nat
  latches  : Tab Latch       -- key 4·partition + position
  ev       : EvState
  shX      : Tab Word        -- shadow x56 to x63
  shEmpty  : List Nat
  shC7     : Bool
  results  : List CtxResult
  wait     : CtxWait
  held     : CtxWait         -- the wait of tbar that a handler has interrupted (10 R250)
  cmd      : Nat
  skip     : List Nat        -- the slots disabled in the next issue (SKIP, and an emulated figure's)
  stopped  : Bool
  recs     : List TrapRec
  preReq   : Bool
  preNew   : Bool            -- the request was raised in this cycle: the loop engine does not see it yet (02 R53)
  late     : List Nat        -- registers, and c bits from 64 on, whose result has arrived in this cycle: a test of this
                             -- cycle finds them empty (02 R38)
  issued   : Nat             -- the cycle in which it last issued, or entered a handler, plus 1 (02 R37)
  busy     : Nat             -- the first cycle in which its operand reads are over (02 R46)
  preStop  : Option Nat      -- stopped for a pre-emption or a device swap, since this cycle (16 R347, R441)
  y        : Tab (BitVec 1024)
  tiles    : Tab Tile        -- key 32·partition + t
  accs     : Tab Nat         -- accumulator types, key 8·partition + z: 0 EMPTY, 1 FP32, 2 INT32, 3 FP64
  obufBase : Nat
  obufSize : Nat
  accMap   : List Nat        -- the physical accumulators granted, in each partition
  troupe   : Nat             -- troupe-scope figures issued (06 R127)
  tbar     : Nat             -- tbar issued, from task start (05 R115, 10 R245)
  saved    : Tab Nat         -- the contents of its items as last streamed (16 R350)
  freeAt   : Nat             -- the cycle in which it became free for a step (14 R297)
deriving DecidableEq, Repr, Inhabited

def Ctx.init : Ctx :=
  { task := none, running := false, x := [], empty := [], c := 0, ireg := [], pc := 0, lpstart := 0, trip := 0,
    next := 0, drain := false, active := false, stages := 0, numflags := 0, pri := 0, priv := 0, asid := 0,
    latches := [], ev := EvState.init, shX := [], shEmpty := [], shC7 := false, results := [], wait := .none, held := .none, cmd := 0,
    skip := [], stopped := false, recs := [], preReq := false, preNew := false, late := [], issued := 0, busy := 0,
    preStop := none, y := [], tiles := [], accs := [], obufBase := 0,
    obufSize := 0, accMap := [], troupe := 0, tbar := 0, saved := [], freeAt := 0 }

/-- An operand of an engine job: a tile, an accumulator or a captured x value (06 R131). -/
inductive JOp where
  | none
  | tile (t : Nat)
  | acc (z : Nat)
  | x (reg : Nat) (v : Word)
deriving DecidableEq, Repr, Inhabited

/-- An interval of a footprint (11 R263): the space (true for Landing), the first and last byte, whether it is written,
and the partition whose instance uses it (12 R274), or 4 for the whole job. -/
structure Interval where
  landing : Bool
  lo      : Nat
  hi      : Nat
  wr      : Bool
  part    : Nat
deriving DecidableEq, Repr, Inhabited

/-- What an engine job does. -/
inductive JobKind where
  | figure (fig : Nat) (mod : Nat)          -- a hard-engine figure
  | routine (fig : Nat) (entry : Nat)       -- a routine-bound instance, its figure-table entry
  | ferry (ch first count : Nat)            -- a Ferry command, its transfers
deriving DecidableEq, Repr, Inhabited

/-- An engine job of a context (06 R129, 11 R263, R264): captured operands, the scoreboard accesses and footprint, in
issue order; `gang` names the strand slots of an instance's gangs by partition. -/
structure Job where
  id       : Nat
  ctx      : Nat
  task     : Nat
  kind     : JobKind
  parts    : List Nat                    -- partitions of its scope on this core
  ops      : List JOp                    -- positions A to D
  reads    : List (Nat × Bool × Nat)     -- partition, accumulator?, index
  writes   : List (Nat × Bool × Nat)
  tcrs     : List (Nat × Nat × Tile)     -- partition, tile, control record as captured at issue
  atys     : List (Nat × Nat)            -- 8·partition + accumulator, its type as captured at issue
  foot     : List Interval
  started  : Bool
  readDone : Bool
  err      : Bool                        -- stopped by an error (06 R143)
  scope    : Nat
  restarts : Nat
  copied   : List Nat                    -- partitions whose restart copy has been taken: a restart takes none again (12 R280)
  spoiled  : List Nat                    -- partitions whose restart copy a lane store has overwritten (12 R276)
  scratch  : Nat                         -- U of R274
  gangs    : List (Nat × List Nat)       -- partition, strand slots
  done     : List Nat                    -- partitions whose gang has finished
  xout     : List (Nat × Word)           -- x outputs captured from strand 0
  slotNo   : Nat
  pc       : Word
  cmd      : Nat
  parent   : Option Nat                  -- the instance whose strand issued it through fig (08 R208)
  byStrand : Nat                         -- that strand's slot
  rdv      : Bool                        -- troupe scope: the rendezvous is still awaited (06 R127)
  rdvNo    : Nat                         -- troupe scope: k of the k-th figure
  kstart   : Nat                         -- a replay's first chunk (06 R144)
  killed   : Bool                        -- killed by a grace period; it restarts on resume (12 R282)
  redo     : Bool                        -- resumed after a kill: its restart holds the context's bundles (12 R282)
deriving DecidableEq, Repr, Inhabited

/-- What a lane waits for (03 R63, 08). -/
inductive LaneWait where
  | none
  | join (addr : Word)
  | gbar (k : Nat)
  | barw (b k : Nat)
  | wany
  | qpush (q : Nat) (granted : Bool)   -- the pass waits in the queue's list; granted once it is first and finds room
  | qpop (q : Nat)
  | phase
  | renq
  | fret
  | rslot
deriving DecidableEq, Repr, Inhabited

/-- A lane (03 R57). -/
structure Lane where
  v      : Tab W32
  p      : BitVec 8          -- p7 is kept 0 here and reads 1
  pc     : Word
  exited : Bool
  pendV  : List Nat
  pendP  : List Nat
  wait   : LaneWait
  idle   : Nat               -- cycles since it last issued (03 R70)
  shV    : Tab W32           -- shadow v120 to v127
  shP6   : Bool
deriving DecidableEq, Repr, Inhabited

def Lane.init : Lane := ⟨[], 0, 0, false, [], [], .none, 0, [], false⟩

/-- Where an outstanding lane result comes from (03 R61). -/
inductive ResSrc where
  | value                                  -- captured at issue
  | fabric (id : Nat)                      -- a tagged request of the core, by its number (19 R381)
  | notice (handle : Word) (map : Bool) (deadline : Nat)  -- rslot.get.val and .map (19 R387)
  | enqueue (id : Nat)                     -- an enqueue, by its number (19 R388)
  | figure (job : Nat)                     -- a figure issued by the routine (08 R208)
deriving DecidableEq, Repr, Inhabited

/-- An outstanding long-latency result of a lane: the registers it fills, its value, the lines it read. -/
structure LaneResult where
  lane   : Nat
  dst    : Nat
  wide   : Bool
  shadow : Bool
  src    : ResSrc
  value  : Word
  lines  : List Nat
  va     : Word
  pc     : Word
  cyc    : Nat               -- its pass: the cycle of issue, and the lowest strand slot of the pass
  lead   : Nat
deriving DecidableEq, Repr, Inhabited

/-- A red not yet performed at its home (08 R193). -/
structure Red where
  lane : Nat
  op   : Nat
  ty   : Nat
  core : Nat
  space : Nat                -- 0 global (physical address), 1 Landing of `core`
  addr : Nat
  a    : Word
  va   : Word                -- the address and the PC of the pass, for a trap
  pc   : Word
  cyc  : Nat                 -- its pass: the cycle of issue, and the lowest strand slot of the pass
  lead : Nat
deriving DecidableEq, Repr, Inhabited

/-- An open join (08 R185). -/
structure Join where
  addr     : Word
  mask     : BitVec 32
  deadline : Option Nat
  waiting  : List Nat
  pred     : Nat
deriving DecidableEq, Repr, Inhabited

/-- The bytes that one lane's Landing store writes: the core and offset they reach, and whether their bank has served
them (11 R267). -/
structure SpillPiece where
  lane   : Nat
  core   : Nat
  off    : Nat
  bytes  : List Byte
  served : Bool
deriving DecidableEq, Repr, Inhabited

/-- An entry of the store forwarding table (11 R267): the pieces of one store pass, held until all of them are
served at their banks. -/
structure SpillEntry where
  id     : Nat
  pieces : List SpillPiece
deriving DecidableEq, Repr, Inhabited

/-- A store waiting at a Landing bank (09 R217, R218): its class, the cycle from which it has been the oldest of its class
there, who stores (the issuing core; a context, or the strands of a lane pass with their entries), and its bytes by
offset, in the order in which they take effect. -/
structure BankReq where
  bank    : Nat
  cls     : Nat
  since   : Option Nat
  core    : Nat
  ctx     : Option Nat
  part    : Nat
  entries : List (Nat × Nat)
  writes  : List (Nat × List Byte)
deriving DecidableEq, Repr, Inhabited

/-- A resident strand (03 R57). -/
structure Strand where
  gang    : Nat              -- the job that is its instance
  index   : Nat              -- strand number in its gang
  nregs   : Nat
  lanes   : Tab Lane
  s       : Tab Word
  shS     : Tab Word         -- shadow s28 to s31
  ev      : EvState
  joins   : List Join
  results : List LaneResult
  reds    : List Red
  spills  : List SpillEntry  -- oldest first
  active  : Bool             -- in the active set
  entered : Nat              -- cycle in which it entered the active set, or its wait began
  readyAt : Nat              -- the first cycle of its run of ready cycles without a pass (03 R69)
  issued  : Nat              -- cycle in which it last issued
  fret    : Bool
  finished : Bool
  stopped : Bool             -- by a trap of its gang
  listW   : BitVec 16        -- the list it is parked on in wany
  flags   : BitVec 32
deriving DecidableEq, Repr, Inhabited

def Strand.init : Strand :=
  { gang := 0, index := 0, nregs := 16, lanes := [], s := [], shS := [], ev := EvState.init, joins := [], results := [],
    reds := [], spills := [], active := false, entered := 0, readyAt := 0, issued := 0, fret := false, finished := false,
    stopped := false, listW := 0, flags := 0 }

/-- A barrier of a gang (08 R186, R187): the arrivals and expected count of the open generation, and the completed
generations. -/
structure Barrier where
  arrived : Nat
  expect  : Nat
  count   : Nat
deriving DecidableEq, Repr, Inhabited

/-- An entry of a trace cache (03 R73): a run of at most 8 instructions from a PC on, decoded for one mask class, with
the address space and level at which it was fetched. -/
structure TraceRun where
  key  : Nat
  cls  : Nat                 -- 0 full, 1 low half, 2 high half, 3 fused, 4 sparse
  pc   : Word
  code : List (W32 × W32)
deriving DecidableEq, Repr, Inhabited

/-- A partition of a core. -/
structure Part where
  hangLimit : Nat
  hangNew   : Option Nat                 -- a limit written in this cycle: it takes effect in the next (03 R71)
  hold      : Nat                        -- cycles, this one first, in which it holds: it starts no new work (23 R432)
  rotated   : Nat                        -- the cycle of the last rotation, plus 1 (03 R63)
  pipes     : List Nat                   -- of each of the four pipes, the first cycle in which it is free (03 R65)
  pairs     : List (Nat × Nat)           -- strand slots fused in their last pass, the lower first (03 R66)
  strands   : Tab Strand                 -- resident strands by slot
  reserved  : List (Nat × Nat)           -- task, reserved slots
  barriers  : List (Nat × Nat × Barrier) -- job, barrier number (0 the gang barrier), state
  obuf      : Memory
  acc       : Tab W32                    -- key: (z physical)·32768 + row·256 + 32-bit column
  badObuf   : List Nat
  badAcc    : List Nat                   -- (z physical)·128 + row
  trace     : List TraceRun              -- the trace cache (03 R73), newest first
deriving DecidableEq, Repr, Inhabited

def Part.init : Part :=
  { hangLimit := 0x00100000, hangNew := none, hold := 0, rotated := 0, pipes := [], pairs := [], strands := [], reserved := [], barriers := [],
    obuf := [], acc := [], badObuf := [], badAcc := [], trace := [] }

/-- A ring (09 R222). -/
structure Ring where
  base   : Nat
  slotsz : Nat
  slots  : Nat
  relix  : Nat
  queue  : Option Nat
  fill   : Nat
deriving DecidableEq, Repr, Inhabited

def Ring.init : Ring := ⟨0, 0, 0, 0, none, 0⟩

/-- A waiting lane of a queue: partition, slot, lane and its data (08 R196). -/
structure QWait where
  part : Nat
  slot : Nat
  lane : Nat
  val  : Nat                 -- push: the value; pop: the destination register
  wide : Bool
  shadow : Bool              -- pop: the destination stands in the handler's bank (08 R200)
  pc   : Word
deriving DecidableEq, Repr, Inhabited

/-- A core queue (08 R195, 09 R223): entries visible, free slots, the next slot to pop, slots filled out of order. -/
structure Queue where
  ring    : Option Nat
  entries : Nat
  free    : Nat
  head    : Nat
  visible : Nat              -- slots below this index are visible
  filled  : List Nat         -- slots filled ahead of an earlier one
  pushes  : List (List QWait)
  pops    : List (List QWait)
deriving DecidableEq, Repr, Inhabited

def Queue.init : Queue := ⟨none, 0, 0, 0, 0, [], [], []⟩

/-- A Ferry command of a channel: its descriptor and records as captured at issue (09 R236), its transfers numbered from
`first`, and for whom it runs. -/
structure FCmd where
  fpage  : Option (Nat × Nat)            -- page address, tier
  desc   : BitVec 1024
  src    : BitVec 1024
  dst    : BitVec 1024
  first  : Nat
  count  : Nat
  begun  : Nat                           -- transfers started
  job    : Nat                           -- its engine job
  ctx    : Nat
  task   : Option Nat
  asid   : Nat
  priv   : Nat
  pc     : Word
  cmd    : Nat
  mask   : List Nat                      -- the bytes that higher-numbered transfers have written before these start (09 R229)
deriving DecidableEq, Repr, Inhabited

/-- A started transfer: its number, its place in the nest, its ring slot, the elements done and bytes delivered so far,
and the bytes that a higher-numbered transfer has already written (09 R229). -/
structure Transfer where
  num   : Nat
  ix    : Nat
  cmd   : FCmd
  slot  : Option Nat
  done  : Nat
  bytes : Nat
  mask  : List Nat
deriving DecidableEq, Repr, Inhabited

/-- A Ferry channel (09 R227, R241). WM follows from the numbers that have not completed. -/
structure Chan where
  next   : Nat
  cmds   : List FCmd
  active : List Transfer
  halt   : Bool
  halted : Option Nat                    -- the number of the transfer that halted it
  cause  : Nat
  pgres  : Nat
  parked : List FCmd                     -- commands parked by a pre-emption (16 R347)
  frec   : Option TrapRec                -- the replayable fault's record (16 R345)
  seen   : Nat                           -- WM at the start of this cycle (09 R240)
deriving DecidableEq, Repr, Inhabited

def Chan.init : Chan := ⟨0, [], [], false, none, 0, 0, [], none, 0⟩

/-- A write of a core to global memory not yet known to its snapshot (11 R257): its byte, whether it has arrived at
its home, and its issuer: a context, or a lane of a strand (11 R262). -/
structure WEntry where
  addr    : Nat
  val     : Byte
  arrived : Bool
  who     : Waiter
  lane    : Nat
deriving DecidableEq, Repr, Inhabited

/-- A phase operation in progress (11 R258): publication, new snapshot, and who waits for it. -/
structure PhaseOp where
  pub  : Bool
  snap : Bool
  who  : Waiter
  lanes : List Nat
  old  : Memory              -- the home values when it issued; newer ones where a later snapshot has shown them
  since : Nat                -- the cycle of its issue
deriving DecidableEq, Repr, Inhabited

/-- A TLB entry (16 R333). -/
structure TlbEntry where
  asid : Nat
  va   : Nat                 -- page base
  bits : Nat                 -- page offset bits
  pte  : Word
deriving DecidableEq, Repr, Inhabited

/-- An entry of the view table (14 R308). -/
structure View where
  task    : Nat
  landing : Bool
  base    : Nat
  len     : Nat
  back    : Nat
  core    : Nat              -- a Landing BASE names this core's Landing
deriving DecidableEq, Repr, Inhabited

/-- An outstanding tagged request of a core (19 R381, R382). -/
structure Request where
  id     : Nat               -- the number of the request on its core
  tag    : Nat
  gen    : Nat
  want   : Nat               -- the reply's packet type
  peer   : Nat
  sent   : Nat               -- time in ns
  who    : Waiter
  lane   : Nat
  lctr   : Option Nat        -- bulk: the local counter address of its acknowledgement (08 R204)
  ctxid  : Nat
  asid   : Nat               -- the address space and privilege of the issuing task
  priv   : Nat
  job    : Nat
  index  : Nat               -- the strand of the gang that issued it, and the PC of the instruction
  pc     : Word
  pkt    : Packet
  tries  : Nat
  backoff : Option Nat       -- an enqueue waiting for its next try
deriving DecidableEq, Repr, Inhabited

/-- A core (00 R1). -/
structure Core where
  ctxs     : Tab Ctx
  parts    : Tab Part
  landing  : Memory
  counters : Tab Word
  ctrOld   : Tab Word        -- of the counters changed in this cycle, the values at its start (05 R108)
  badLand  : List Nat        -- uncorrectable words, by offset / 8
  bankQ    : List BankReq    -- stores waiting at this core's banks, in order of arrival (09 R217)
  hold     : Nat             -- cycles, this one first, in which its Landing holds (23 R432)
  bankAt   : Tab Nat         -- by bank: the cycle in which it last served a waiting store, plus 1
  rings    : Tab Ring
  queues   : Tab Queue
  mbox     : Tab Word
  codes    : Tab Memory
  chans    : Tab Chan
  views    : List View
  tlb      : List TlbEntry
  snapshot : Memory
  writes   : List WEntry     -- newest first
  phases   : List PhaseOp
  fetched  : Tab (BitVec 1024) -- lines of fetched bundles, by address / 128
  lastIssued : Tab Nat       -- by priority: the context that issued most recently, plus 1
  debt     : Tab Nat         -- reads of operands still to be served, by port (02 R46): 0 to 3 tiles and 4 to 7
                             -- accumulators of a partition, 8 x registers
  caller   : Nat × Nat       -- the cycle of its last bundles, plus 1, and how many it issued in that cycle (02 R37)
  passed   : Nat × Nat       -- the cycle of its last passes, plus 1, and the first partition that may still issue (08 R195)
  jobs     : List Job        -- in issue order
  nextJob  : Nat
  tags     : Tab Nat         -- generation of each tag
  fbinds   : Tab Nat          -- the core cycle in which a context's outstanding fbind issued (06 R148)
  coolTags : List (Nat × Nat) -- timed-out tags and the time until which they rest
  requests : List Request    -- oldest first; one that waits for a tag has the tag noTag
  nextReq  : Nat
  failed   : Bool
deriving DecidableEq, Repr, Inhabited

def Core.init : Core :=
  { ctxs := [], parts := [], landing := [], counters := [], ctrOld := [], badLand := [], bankQ := [], hold := 0, bankAt := [], rings := [], queues := [],
    mbox := [], codes := [], chans := [], views := [], tlb := [], snapshot := [], writes := [], phases := [],
    fetched := [], lastIssued := [], debt := [], caller := (0, 0), passed := (0, 0), jobs := [], nextJob := 0, tags := [], fbinds := [], coolTags := [], requests := [],
    nextReq := 0, failed := false }

/-- An address space's registers and tables (16 R337, R342, 12 R270, 19 R379). -/
structure Space where
  ptbase   : Word
  asctl    : Word
  savepool : Word
  trapring : Word
  dbgring  : Word
  seqT     : Nat
  seqD     : Nat
  peermap  : Word
  tenant   : Word
  figures  : Tab (BitVec 128)            -- user entries 0x80 to 0xFF
  areas    : List Nat                    -- save areas taken
  notices  : List TrapRec                -- records not stopping a context, and SAVED notices
  emulated : Nat                         -- traps emulated (04 R92)
deriving DecidableEq, Repr, Inhabited

def Space.init : Space := ⟨0, 0, 0, 0, 0, 0, 0, 0, 0, [], [], [], 0⟩

/-- A context of a saved task: where it stood, and its registers (16 R348). -/
structure SavedCtx where
  c   : Nat
  ctx : Ctx
  jobs : List Job
deriving DecidableEq, Repr, Inhabited

/-- A task (14). -/
structure Task where
  topb     : Word
  words    : Memory          -- the 256 bytes of its TOPB
  asid     : Nat
  priv     : Nat
  pri      : Nat
  launch   : Option Nat      -- its launch, and its index there
  index    : Nat
  parent   : Option Nat      -- spawned: its parent task
  spawnIx  : Nat             -- its own spawn index
  spawnCore : Nat            -- the core that ran the parent's spawning context (14 R308)
  die      : Nat
  cores    : List Nat        -- the core, or the four members of a troupe
  places   : List (Nat × Nat) -- the contexts it holds: core and number
  grants   : List (Nat × Nat × Nat × List Nat)  -- per context taken: core, operand-buffer base and size, accumulators (14 R301)
  parkedAt : Option Nat      -- swapped out while parked in spawn: when; its bundle takes a pool entry before later ones (14 R305)
  nextStep : Nat             -- index of the next step to start
  stopStep : Bool            -- tend: no further step starts
  running  : Nat             -- steps started and not ended
  stepOf   : List (Nat × Nat × Nat)  -- core, context, step index running there
  ended    : List (Nat × Nat) -- troupe: members that have ended the step
  spawned  : Nat             -- children spawned so far
  epoch    : Nat             -- first spawn index of the current epoch
  mergedN  : Nat             -- children that have merged
  mergeOk  : Bool            -- this child has ended with merge
  merged   : Bool            -- this child has merged
  failedC  : Bool            -- a child that failed under R306
  epochOf  : Nat             -- a child's epoch: the first index of the epoch it was spawned in
  viewsOk  : Bool            -- its backings hold the identity
  mview    : Nat             -- merge progress
  mgran    : Nat
  mstop    : Bool            -- its merge is stopped by a fault
  minst    : Option Nat      -- the instance of a MOP 7 merge
  mstat    : Option Word     -- the status of a merge's stop that the parent has yet to take (14 R314)
  flags    : BitVec 32       -- flags carried by merges
  lastCore : Nat             -- the core that ran its last step
  area     : Option Nat      -- its save area
  saved    : List SavedCtx   -- its contexts while it is saved
  swapped  : Bool            -- saved by the device (16 R441)
  restore  : Option (Nat × Nat) -- RESTORE's die and core
  tierDue  : List (Nat × Nat) -- TIER occurrences not yet delivered to its save area: saved context, slot (10 R252)
  savedFlags : BitVec 32     -- flags merged into it while it is saved (14 R311)
  started  : Bool
  complete : Bool
  failure  : Bool            -- ended as failed (R306)
  spFail   : List Nat        -- spawn indexes of failed children the parent has yet to take
deriving DecidableEq, Repr, Inhabited

def Task.init : Task :=
  { topb := 0, words := [], asid := 0, priv := 0, pri := 0, launch := none, index := 0, parent := none, spawnIx := 0, spawnCore := 0,
    die := 0, cores := [], places := [], grants := [], parkedAt := none, nextStep := 0, stopStep := false, running := 0, stepOf := [], ended := [],
    spawned := 0, epoch := 1, mergedN := 0, mergeOk := false, merged := false, failedC := false,
    epochOf := 0, viewsOk := false, mview := 0, mgran := 0, mstop := false, minst := none, mstat := none, flags := 0, lastCore := 0,
    area := none, saved := [], swapped := false, restore := none, tierDue := [], savedFlags := 0, started := false, complete := false,
    failure := false, spFail := [] }

/-- A launch taken from a queue (14 R300). -/
structure Launch where
  queue   : Nat
  topba   : Word
  diemask : Nat
  stagger : Nat
  ntask   : Nat
  lctr    : Word
  intr    : Bool
  ivec    : Nat
  port    : Nat
  asid    : Nat
  priv    : Nat
  pri     : Nat
  started : Nat              -- tasks started
  onCores : List Nat         -- cores that have started a task of it (22 R426)
  doneN   : Nat              -- tasks complete
  failed  : Option (Nat × Nat) -- cause and task index
  dead    : Bool             -- no further task starts
  complete : Bool
deriving DecidableEq, Repr, Inhabited

/-- An entry of a die's spawn pool (14 R305): the child's task. -/
structure Die where
  pool    : List Nat                     -- child tasks, oldest first
  passes  : List (Nat × Nat × Nat)       -- kind and number of a head, its pass count
  drain   : Option (Nat × Nat)
  lastQ   : Nat
  stagger : List (Nat × Nat)             -- launch, cycle until which its next task is held
  heldCyc : Nat
deriving DecidableEq, Repr, Inhabited

/-- No queue has been served: the turn begins with queue 0 (log 111). -/
def Die.init : Die := ⟨[], [], none, 63, [], 0⟩

/-- A host queue (22 R415, R416). -/
structure HostQueue where
  qctl  : Word
  qbase : Word
  qtail : Nat
  qhead : Nat
  qdone : Nat
  nfail : Nat
  cause : Nat
  ftask : Nat
  wait  : Option Word        -- a QCTL write the Purser has not applied
  since : Nat                -- the core cycle of that write
deriving DecidableEq, Repr, Inhabited

def HostQueue.init : HostQueue := ⟨0, 0, 0, 0, 0, 0, 0, 0, none, 0⟩

/-- A PCIe port (22 R410 to R414). -/
structure Port where
  assel  : Nat
  win    : Nat
  msix   : Tab Word          -- the table's 64-bit words
  pba    : List Nat          -- pending bits
  sent   : List Nat          -- MSI-X messages sent, newest first
  down   : Bool
  ur     : Bool              -- the last access completed with Unsupported Request
  rdata  : Nat               -- the data of the last read completed
  result : Nat               -- TRESUME.RESULT for this issuer
deriving DecidableEq, Repr, Inhabited

def Port.init : Port := ⟨0, 0, [], [], [], false, false, 0, 0⟩

/-- A reduction slot of a port router (19 R384, R385). -/
structure RSlot where
  sgen    : Nat
  used    : Bool
  host    : Nat
  op      : Nat
  ty      : Nat
  tmo     : Nat
  expect  : Nat
  owner   : Nat              -- the allocating peer
  start   : Nat              -- time of allocation, in ns
  contrib : Tab Word         -- value by contributor
  putters : List Nat         -- peers that put
  done    : Bool
  value   : Word
  map     : Nat
  status  : Nat
deriving DecidableEq, Repr, Inhabited

def RSlot.init : RSlot := ⟨0, false, 0, 0, 0, 0, 0, 0, 0, [], [], false, 0, 0, 0⟩

/-- An entry of the notice table (19 R387). -/
structure Notice where
  handle : Word
  value  : Word
  map    : Nat
  status : Nat
deriving DecidableEq, Repr, Inhabited

/-- A packet on its way inside the device: the router output it waits at, its channel and the flits left to send. -/
structure Transit where
  router : Nat
  out    : Nat
  chan   : Nat
  flits  : Nat
  at_    : Nat               -- the fabric cycle in which it came (device's own count)
  pkt    : Packet
deriving DecidableEq, Repr, Inhabited

/-- A circuit flit waiting at a router input (19 R376). -/
structure CFlit where
  router : Nat
  inp    : Nat
  circ   : Nat
  at_    : Nat               -- fabric cycle of arrival
  last   : Bool              -- the packet's last flit
  pkt    : Packet
deriving DecidableEq, Repr, Inhabited

/-- A combined request held in a router (19 R383). -/
structure Combined where
  router  : Nat
  start   : Nat              -- fabric cycle of the first member
  members : List Packet
deriving DecidableEq, Repr, Inhabited

/-- The Causeway of the device (19). -/
structure Fabric where
  peer    : Nat              -- PEERID
  cwdim   : Nat
  cwsel   : Nat
  cwent   : Nat              -- E of the last write
  period  : Nat
  arm     : Bool
  lag     : Nat              -- fabric cycles of this core cycle that are still to come
  cwcyc   : Option (Nat × Nat) -- once a link has trained: the own count (`State.fabNow`) at the training, and CWCYC then
  outCyc  : Tab Nat          -- the fabric cycle in which an output last sent a flit, plus 1, key 32·router + output
  cwtmo   : Nat
  cwcomb  : Nat
  rqbase  : Word
  laterep : Nat
  circdrop : Nat
  rsldrop : Nat
  peerlive : Word
  bankA   : Tab (BitVec 32)  -- active entries, key (router·32 + output)·256 + E
  bankS   : Tab (BitVec 32)
  links   : Tab Nat          -- LINKDLY of links that are up, by port
  holds   : Tab Nat          -- core cycles in which a router still sends no packet flit (23 R432)
  stops   : List (Nat × Nat × Nat)  -- router, port, channel stopped
  transit : List Transit
  cflits  : List CFlit
  cflight : List CFlit       -- circuit flits on their way to a router input
  arrived : List Packet      -- packets delivered to this device's endpoints, not yet served
  combine : List Combined
  merged  : List (Nat × List Packet) -- tag of a combined request, its members
  slots   : Tab RSlot        -- key 64·port router + slot
  notices : List Notice      -- oldest first
deriving DecidableEq, Repr, Inhabited

def Fabric.init : Fabric :=
  { peer := 0, cwdim := 0, cwsel := 0, cwent := 0, period := 0, arm := false, lag := 0, cwcyc := none, outCyc := [], cwtmo := 100, cwcomb := 16,
    rqbase := 0, laterep := 0, circdrop := 0, rsldrop := 0, peerlive := 0, bankA := [], bankS := [], links := [],
    holds := [], stops := [], transit := [], cflits := [], cflight := [], arrived := [], combine := [], merged := [], slots := [], notices := [] }

/-- The boot record of one step (23 R431). -/
structure BootStep where
  time  : Nat
  next  : Nat
  state : Nat
  units : Nat
deriving DecidableEq, Repr, Inhabited

/-- An error count (23 R435). -/
structure ErrCount where
  unit  : ErrUnit
  times : List Nat           -- times of counted errors, in ns
  lasting : Bool             -- classed as lasting, its repair to come
deriving DecidableEq, Repr, Inhabited

/-- The Purser's own store (23). -/
structure Purser where
  bootcnt  : Nat
  attempt  : Nat             -- consecutive failed attempts
  mode     : Nat
  steps    : Tab BootStep    -- by step number
  coreMap  : List Nat        -- cores that failed step 7 in the attempt, or were skipped
  lasting  : List (Nat × Nat) -- units that later attempts skip: step and unit
  deadStacks   : List Nat        -- stacks that failed step 5 or were skipped
  current  : Option Nat      -- a step that has exceeded its limit and is still running
  todo     : List BootOutcome -- what that step and the later ones find
  discards : Nat             -- accesses discarded (22 R413, 23 R429)
  clock    : Nat             -- ns that have passed before the last reset
  errors   : List ErrCount
  histNext : Nat
  spares   : Tab Nat         -- spare rows used, by stack
  landUsed : Tab Nat         -- spare lines used, by Landing bank (64·core + bank)
  sparing  : List Nat        -- lasting lines, by address / 64, whose rows are to be copied
  retired  : List Nat        -- retired 32 KiB frames, by address / 2^15
  downLinks : List Nat       -- Causeway ports that stay down from their next training
  meas     : Tab (BitVec 256)
  served   : Word
  polls    : Nat             -- 100 µs periods in which the request block has been read
  powers   : Nat             -- 10 ms periods in which the power status has been written
deriving DecidableEq, Repr, Inhabited

def Purser.init : Purser :=
  { bootcnt := 0, attempt := 0, mode := 0, steps := [], coreMap := [], lasting := [], deadStacks := [], current := none, todo := [],
    discards := 0, clock := 0, errors := [], histNext := 0, spares := [], landUsed := [], sparing := [], retired := [],
    downLinks := [], meas := [], served := 0, polls := 0, powers := 0 }

/-- A lane of a pass: its strand slot and lane number (03 R64). -/
structure LaneRef where
  slot : Nat
  lane : Nat
deriving DecidableEq, Repr, Inhabited

/-- The context or pass an instruction acts for (log 7): `pass` is in ascending lane order. -/
structure Turn where
  core : Nat
  ctx  : Nat
  part : Nat
  pass : List LaneRef
deriving DecidableEq, Repr, Inhabited

/-- The device. -/
structure State where
  cores    : Tab Core        -- by device-wide core index (05 R120)
  mem      : Memory          -- home values of global memory, by physical address
  badLines : List Nat        -- uncorrectable 64-byte lines, by address / 64
  spaces   : Tab Space
  tasks    : Tab Task
  nextTask : Nat
  launches : Tab Launch
  nextLaunch : Nat
  dies     : Tab Die
  queues   : Tab HostQueue
  ports    : Tab Port
  fabric   : Fabric
  purser   : Purser
  assel    : Nat             -- ASSEL of contexts and lanes
  tlbinv   : Word
  tlbinvAsid : Nat
  tresume  : Word
  resumeRes : List (Issuer × Nat)   -- TRESUME.RESULT of each context or strand
  pregrace : Nat
  ckptEn   : Bool
  cycle    : Nat             -- CYCLE: core cycles since reset
  tick     : Nat             -- the model's own: steps taken (log 4)
  fresh    : Nat             -- the model's own: free values used (log 4)
  agenda   : List (Nat × Instr) -- the model's own: what comes next, each with the cycles that pass before it (log 3)
  turn     : Turn            -- the model's own: what an instruction acts for (log 7)
deriving DecidableEq, Repr, Inhabited

/-- The device right after reset. Registers the spec gives no reset value take the values of log 1. -/
def State.reset : State :=
  { cores := [], mem := [], badLines := [], spaces := [], tasks := [], nextTask := 0, launches := [], nextLaunch := 0,
    dies := [], queues := [], ports := [], fabric := Fabric.init, purser := Purser.init, assel := 0, tlbinv := 0,
    tlbinvAsid := 0, tresume := 0, resumeRes := [], pregrace := 0x10000, ckptEn := true, cycle := 0, tick := 0,
    fresh := 0, agenda := [], turn := ⟨0, 0, 0, []⟩ }

end Sys2Proof.Machine
end

