-- ==== Sys2Proof/Machine/Ops.lean ====
section
/-! DEFINITION. The named operations over the state: units, registers, global memory and Landing, translation, event
bits, and the taking of an exception. -/
namespace Sys2Proof.Machine

/-- The outcome of an instruction. -/
abbrev Out := Host.Outcome State Fault Refusal

/-! ### Units -/

def State.core (s : State) (k : Nat) : Core := Tab.get s.cores Core.init k
def State.setCore (s : State) (k : Nat) (c : Core) : State := { s with cores := s.cores.put k c }
def State.modCore (s : State) (k : Nat) (f : Core → Core) : State := s.setCore k (f (s.core k))

def Core.ctx (c : Core) (k : Nat) : Ctx := Tab.get c.ctxs Ctx.init k
def Core.setCtx (c : Core) (k : Nat) (x : Ctx) : Core := { c with ctxs := c.ctxs.put k x }
def State.ctx (s : State) (k c : Nat) : Ctx := (s.core k).ctx c
def State.setCtx (s : State) (k c : Nat) (x : Ctx) : State := s.modCore k (fun co => co.setCtx c x)
def State.modCtx (s : State) (k c : Nat) (f : Ctx → Ctx) : State := s.setCtx k c (f (s.ctx k c))

def Core.part (c : Core) (p : Nat) : Part := Tab.get c.parts Part.init p
def Core.setPart (c : Core) (p : Nat) (x : Part) : Core := { c with parts := c.parts.put p x }
def State.part (s : State) (k p : Nat) : Part := (s.core k).part p
def State.setPart (s : State) (k p : Nat) (x : Part) : State := s.modCore k (fun co => co.setPart p x)
def State.modPart (s : State) (k p : Nat) (f : Part → Part) : State := s.setPart k p (f (s.part k p))

def Part.strand (p : Part) (k : Nat) : Strand := Tab.get p.strands Strand.init k
def State.strand (s : State) (k p sl : Nat) : Strand := (s.part k p).strand sl
def State.setStrand (s : State) (k p sl : Nat) (x : Strand) : State :=
  s.modPart k p (fun pa => { pa with strands := pa.strands.put sl x })
def State.modStrand (s : State) (k p sl : Nat) (f : Strand → Strand) : State :=
  s.setStrand k p sl (f (s.strand k p sl))

def Strand.lane (st : Strand) (l : Nat) : Lane := Tab.get st.lanes Lane.init l
def Strand.setLane (st : Strand) (l : Nat) (x : Lane) : Strand := { st with lanes := st.lanes.put l x }
def Strand.modLane (st : Strand) (l : Nat) (f : Lane → Lane) : Strand := st.setLane l (f (st.lane l))
def State.lane (s : State) (k p sl l : Nat) : Lane := (s.strand k p sl).lane l
def State.modLane (s : State) (k p sl l : Nat) (f : Lane → Lane) : State :=
  s.modStrand k p sl (fun st => st.modLane l f)

def State.space (s : State) (a : Nat) : Space := Tab.get s.spaces Space.init a
def State.modSpace (s : State) (a : Nat) (f : Space → Space) : State := { s with spaces := s.spaces.put a (f (s.space a)) }
def State.task (s : State) (t : Nat) : Task := Tab.get s.tasks Task.init t
def State.modTask (s : State) (t : Nat) (f : Task → Task) : State := { s with tasks := s.tasks.put t (f (s.task t)) }
def State.die (s : State) (d : Nat) : Die := Tab.get s.dies Die.init d
def State.modDie (s : State) (d : Nat) (f : Die → Die) : State := { s with dies := s.dies.put d (f (s.die d)) }
def State.queue (s : State) (q : Nat) : HostQueue := Tab.get s.queues HostQueue.init q
def State.modQueue (s : State) (q : Nat) (f : HostQueue → HostQueue) : State :=
  { s with queues := s.queues.put q (f (s.queue q)) }
def State.port (s : State) (p : Nat) : Port := Tab.get s.ports Port.init p
def State.modPort (s : State) (p : Nat) (f : Port → Port) : State := { s with ports := s.ports.put p (f (s.port p)) }
def Core.chan (c : Core) (ch : Nat) : Chan := Tab.get c.chans Chan.init ch
def State.chan (s : State) (k ch : Nat) : Chan := (s.core k).chan ch
def State.modChan (s : State) (k ch : Nat) (f : Chan → Chan) : State :=
  s.modCore k (fun c => { c with chans := c.chans.put ch (f (c.chan ch)) })
def Core.queue (c : Core) (q : Nat) : Queue := Tab.get c.queues Queue.init q
def State.modCQueue (s : State) (k q : Nat) (f : Queue → Queue) : State :=
  s.modCore k (fun c => { c with queues := c.queues.put q (f (c.queue q)) })
def Core.ring (c : Core) (r : Nat) : Ring := Tab.get c.rings Ring.init r
def State.modRing (s : State) (k r : Nat) (f : Ring → Ring) : State :=
  s.modCore k (fun c => { c with rings := c.rings.put r (f (c.ring r)) })

/-- The number of cores on a die, of cores, contexts, partitions and strand slots (00 R1, 03 R56). -/
def coresPerDie : Nat := 36
def numCores : Nat := 288

/-- The die of a core, its place in the mesh, its cluster and member position (05 R120). -/
def coreDie (k : Nat) : Nat := k / 36
def coreRow (k : Nat) : Nat := k % 36 / 6
def coreCol (k : Nat) : Nat := k % 36 % 6
def coreCluster (k : Nat) : Nat := 3 * (coreRow k / 2) + coreCol k / 2
def corePos (k : Nat) : Nat := 2 * (coreRow k % 2) + coreCol k % 2

/-- The member core at a position of the same cluster as core `k` (05 R120). -/
def memberCore (k pos : Nat) : Nat :=
  36 * coreDie k + 6 * (2 * (coreCluster k / 3) + pos / 2) + (2 * (coreCluster k % 3) + pos % 2)

/-- CTXID (05 R120). -/
def ctxId (k c : Nat) : Nat :=
  corePos k * 2 ^ 16 + coreDie k * 2 ^ 13 + (k % 36) * 2 ^ 7 + coreCluster k * 2 ^ 3 + c

/-- The core and context that a number in the layout of R120 names. -/
def ctxOfId (n : Nat) : Nat × Nat := (36 * natField n 15 13 + natField n 12 7, natField n 2 0)

/-- DEVTIME: nanoseconds since reset, 10 for each 14 core cycles (05 R119). -/
def State.devtime (s : State) : Nat := s.cycle * 10 / 14

/-- Fabric cycles, of 1.5625 GHz, that have begun by the end of a core cycle of 1.4 GHz (19 R379). -/
def fabUpTo (cycle : Nat) : Nat := cycle * 15625 / 14000

/-- Fabric cycles on the device's own count, for windows and pacing (19 R383, R388): those of the core cycle but the ones
of it that are still to come. -/
def State.fabNow (s : State) : Nat := fabUpTo s.cycle - s.fabric.lag

/-- CWCYC: fabric cycles since the count began; 0 until the first link trains (19 R379). -/
def State.cwcyc (s : State) : Nat :=
  match s.fabric.cwcyc with
  | none => 0
  | some (c0, n) => n + (s.fabNow - c0)

/-! ### Registers of a context -/

/-- x[r]; x0 reads zero (02 R32). -/
def Ctx.getX (c : Ctx) (r : Nat) : Word := if r = 0 then 0 else Tab.get c.x 0 r

/-- Write x[r] and mark it full; a write to x0 is discarded (02 R33). -/
def Ctx.setX (c : Ctx) (r : Nat) (v : Word) : Ctx :=
  if r = 0 then c else { c with x := c.x.set 0 r v, empty := c.empty.filter (· != r), late := c.late.filter (· != r) }

/-- Mark x[r] empty; x0 never is (02 R33). -/
def Ctx.markEmpty (c : Ctx) (r : Nat) : Ctx :=
  if r = 0 then c else { c with empty := r :: c.empty.filter (· != r) }

/-- Whether a bundle of this cycle finds x[r] full (02 R33): a value that has arrived in this cycle can be read from the
next on (02 R38). -/
def Ctx.full (c : Ctx) (r : Nat) : Bool := r == 0 || !(c.empty.contains r || c.late.contains r)

/-- c[n]; c15 reads 1 (02 R32). -/
def Ctx.getC (c : Ctx) (n : Nat) : Bool := n == 15 || c.c.getLsbD n

/-- Write c[n]. -/
def setBit16 (w : BitVec 16) (n : Nat) (v : Bool) : BitVec 16 :=
  if v then w ||| BitVec.ofNat 16 (2 ^ n) else w &&& ~~~ (BitVec.ofNat 16 (2 ^ n))

/-- Write a condition bit; c15 is never written (02 R36). -/
def Ctx.setC (c : Ctx) (n : Nat) (v : Bool) : Ctx := if n = 15 then c else { c with c := setBit16 c.c n v }

/-- Invalidate the latches that hold a register: kind 0 tile, 1 accumulator, 2 x register (02 R46). -/
def Ctx.dropLatch (c : Ctx) (kind idx : Nat) : Ctx :=
  { c with latches := c.latches.filter (fun e => !(e.2.kind == kind && e.2.idx == idx)) }

/-- The reads that an operand port of a core serves in one cycle (02 R46): port 8 is that of the x registers. -/
def portRate (port : Nat) : Nat := if port = 8 then 12 else 2

/-! ### Free values -/

/-- Take a free word. -/
def State.freeWord (s : State) (k : Nat) : Word × State :=
  (Config.freeWord s.fresh k, { s with fresh := s.fresh + 1 })

/-- Take a free bit. -/
def State.freeBit (s : State) (k : Nat) : Bool × State :=
  (Config.freeBit s.fresh k, { s with fresh := s.fresh + 1 })

/-! ### Physical memory (16 R330, 22 R411) -/

/-- What a physical address reaches. -/
inductive Phys where
  | tierH
  | tierC
  | host (port : Nat)
  | outside
deriving DecidableEq, Repr, Inhabited

/-- The map of R411; the 48 GiB of a failed stack lie outside tier H (23 R430). -/
def State.phys (s : State) (a : Nat) : Phys :=
  if a < 0x00C000000000 then (if s.purser.deadStacks.contains (a / 0xC00000000) then .outside else .tierH)
  else if 0x100000000000 ≤ a ∧ a < 0x180000000000 then .tierC
  else if 0x200000000000 ≤ a ∧ a < 0x280000000000 then .host 0
  else if 0x280000000000 ≤ a ∧ a < 0x300000000000 then .host 1
  else .outside

/-- Whether a tier C address lies beyond its expander's capacity (22 R420), or its CXL port failed at boot (23 R430, log
38). -/
def State.beyondExpander (s : State) (a : Nat) : Bool :=
  let j := (a - 0x100000000000) / 0x20000000000
  0x100000000000 ≤ a && a < 0x180000000000 &&
    (decide (Config.expanderSize j ≤ (a - 0x100000000000) % 0x20000000000) || (Tab.get s.purser.steps default 8).units / 2 ^ j % 2 == 1)

/-- Whether a read of the 64-byte line of `a` returns uncorrectable data (16 R332, 22 R414, R420). -/
def State.lineBad (s : State) (a : Nat) : Bool :=
  s.badLines.contains (a / 64) ||
  (match s.phys a with
   | .tierC => s.beyondExpander a
   | .host p => (s.port p).down
   | _ => false)

/-- Whether a write by others than the Purser is discarded: the Purser area but for the request block (23 R429), and
tier C beyond its expander (22 R420). -/
def State.writeDropped (s : State) (a : Nat) : Bool :=
  (a < 0x100000 && !(0x1000 ≤ a && a < 0x1100)) ||
  (match s.phys a with | .tierC => s.beyondExpander a | .host p => (s.port p).down | _ => false)

/-- The Purser counts a discarded write of its area (23 R429). -/
def State.countDiscard (s : State) : State := { s with purser := { s.purser with discards := s.purser.discards + 1 } }

/-- One byte of a write arrives at its home, unless it is discarded. -/
def State.putByte (s : State) (a : Nat) (b : Byte) : State :=
  if s.writeDropped a then s else { s with mem := s.mem.setByte a b }

/-- One byte arrives at its home as a write of its own (11 R256). -/
def State.homeByte (s : State) (a : Nat) (b : Byte) : State :=
  if s.writeDropped a && a < 0x100000 then s.countDiscard else s.putByte a b

/-- The bytes of one write arrive at their homes, one after another. -/
def homeBytes (s : State) (a : Nat) (bs : List Byte) : State :=
  match bs with
  | [] => s
  | b :: r => homeBytes (s.putByte a b) (a + 1) r

/-- The lines a write of `n` bytes at `a` covers whole. -/
def wholeLines (a n : Nat) : List Nat :=
  let first := (a + 63) / 64
  (List.range ((a + n) / 64 - first)).map (fun i => first + i)

/-- One write arrives at its home; a line it covers whole is correct afterwards (16 R332). -/
def State.homeWrite (s : State) (a : Nat) (bs : List Byte) : State :=
  let s1 := homeBytes s a bs
  let s1 := if (List.range bs.length).any (fun i => s.writeDropped (a + i) && a + i < 0x100000) then s1.countDiscard else s1
  { s1 with badLines := s1.badLines.filter (fun l => !(wholeLines a bs.length).contains l) }

/-- The little-endian bytes of a number. -/
def bytesOf (n v : Nat) : List Byte :=
  match n with
  | 0 => []
  | k + 1 => BitVec.ofNat 8 (v % 256) :: bytesOf k (v / 256)

/-- The number that little-endian bytes stand for. -/
def numOf (bs : List Byte) : Nat :=
  match bs with
  | [] => 0
  | b :: r => b.toNat + 256 * numOf r

/-- A write of the Purser, which may write its area (23 R429). -/
def State.purserWrite (s : State) (a n v : Nat) : State := { s with mem := s.mem.write a n v }

/-! ### The core's view of global memory (11 R257) -/

/-- The newest write of a write set to an address. -/
def newestWrite (ws : List WEntry) (a : Nat) : Option Byte :=
  match ws with
  | [] => none
  | w :: r => if w.addr = a then some w.val else newestWrite r a

/-- The view's byte: the newest write of the write set, else the snapshot (11 R257). -/
def Core.viewByte (c : Core) (a : Nat) : Byte :=
  match newestWrite c.writes a with
  | some b => b
  | none => c.snapshot.byte a

/-- The view's bytes, little-endian. -/
def Core.viewRead (c : Core) (a n : Nat) : Nat :=
  match n with
  | 0 => 0
  | k + 1 => (c.viewByte a).toNat + 256 * Core.viewRead c (a + 1) k

/-- The bytes of a store of an issuer (a context, or a lane of a strand), newest first. -/
def storeEntries (who : Waiter × Nat) (a : Nat) (bs : List Byte) (arrived : Bool) : List WEntry :=
  match bs with
  | [] => []
  | b :: r => storeEntries who (a + 1) r arrived ++ [⟨a, b, arrived, who.1, who.2⟩]

/-- A plain store of an issuer enters the write set (11 R257). -/
def State.plainStore (s : State) (k : Nat) (who : Waiter × Nat) (a : Nat) (bs : List Byte) : State :=
  s.modCore k (fun c => { c with writes := storeEntries who a bs false ++ c.writes })

/-- A write that arrives at its home as it is performed enters the write set of its core too (11 R262, R266). -/
def State.homeStore (s : State) (k a : Nat) (bs : List Byte) : State :=
  (s.homeWrite a bs).modCore k (fun c => { c with writes := storeEntries (.ctx 0, 0) a bs true ++ c.writes })

/-- Every write of the write set that has not arrived arrives, oldest first (phase.p: 11 R258). -/
def arriveAll (s : State) (ws : List WEntry) : State :=
  match ws with
  | [] => s
  | w :: r =>
    let s1 := arriveAll s r
    if w.arrived then s1 else s1.homeByte w.addr w.val

/-- A publication of the core's write set. -/
def State.publish (s : State) (k : Nat) : State :=
  (arriveAll s (s.core k).writes).modCore k (fun c =>
    { c with writes := c.writes.map (fun w => { w with arrived := true }) })

/-- A new snapshot of the home values; writes that have arrived leave the write set (11 R257), and a phase still in
progress takes nothing older (11 R260). -/
def State.snap (s : State) (k : Nat) : State :=
  s.modCore k (fun c => { c with
    snapshot := s.mem, writes := c.writes.filter (fun w => !w.arrived), phases := c.phases.map (fun q => { q with old := s.mem }) })

/-! ### Traps -/

/-- Kinds of access, coded as the ACCESS detail (16 R341). -/
inductive Access where
  | read | write | fetch | atomic
deriving DecidableEq, Repr, Inhabited

def Access.code (a : Access) : Nat := match a with | .read => 0 | .write => 1 | .fetch => 2 | .atomic => 3

/-- A trap raised by a check: its class, address and detail. -/
structure Trap where
  cls  : TrapClass
  addr : Word
  det  : Nat
deriving DecidableEq, Repr, Inhabited

def trapIllegal : Trap := ⟨.illegalOp, 0, 0⟩

/-- PAGE with its detail (16 R341). -/
def trapPage (va : Word) (cause : Nat) (acc : Access) (level : Nat) : Trap :=
  ⟨.page, va, cause * 2 ^ 13 + acc.code * 2 ^ 11 + level * 2 ^ 8⟩

/-- ALIGN and LANDING_RANGE with their detail: the access and the logarithm of its size (16 R341). -/
def trapAlign (va : Word) (acc : Access) (size : Nat) : Trap := ⟨.align, va, acc.code * 2 ^ 11 + Nat.log2 size⟩
def trapRange (va : Word) (acc : Access) (size : Nat) : Trap := ⟨.landingRange, va, acc.code * 2 ^ 11 + Nat.log2 size⟩

/-- MEM_UNCORRECTABLE with its detail. -/
def trapMem (va : Word) (acc : Access) (poisoned : Bool) : Trap :=
  ⟨.memUncorrectable, va, acc.code * 2 ^ 11 + bit poisoned⟩

/-- Where a trap of a context was found: the engine, its number, the slot, the bundle and its count (16 R440). -/
structure TrapAt where
  engine : Nat
  eidx   : Nat
  slot   : Nat
  pc     : Word
  cmd    : Nat
  inst   : Option Nat
deriving DecidableEq, Repr, Inhabited

/-- The record of a trap of a context (16 R340). -/
def mkRecord (s : State) (k c : Nat) (at_ : TrapAt) (cls : TrapClass) (addr status : Word) (replay : Bool) : TrapRec :=
  let x := s.ctx k c
  { cls := cls, engine := at_.engine, eidx := at_.eidx, slot := at_.slot, cmd := at_.cmd, pc := at_.pc, addr := addr,
    status := status, replay := replay, inh := x.ev.inh, privl := x.priv, asid := x.asid, ctxid := ctxId k c,
    topb := (match x.task with | some t => (s.task t).topb | none => 0), time := s.devtime, nrec := x.recs.length,
    last := false, inst := at_.inst, passed := false, seq := none, answer := none, applied := false }

/-- TAKING AN EXCEPTION (16 R343): the context stops, issues no further bundle, and the stop gains a record. A stop
holds at most 8 records; a ninth fault is held back. What the trapping bundle would have done has not happened
(02 R39): the callers pass the state before the bundle. -/
def State.takeTrap (s : State) (k c : Nat) (at_ : TrapAt) (cls : TrapClass) (addr status : Word) : State :=
  let r := mkRecord s k c at_ cls addr status false
  s.modCtx k c (fun x => { x with stopped := true, recs := if x.recs.length < 8 then x.recs ++ [r] else x.recs })

/-! ### Event bits -/

/-- An occurrence at slot `j` in this cycle sets its pending bit in the next (10 R246); one in the cycle of an `evarm` or
`evdis` of the slot does not reach it (10 R247). -/
def EvState.post (e : EvState) (j : Nat) : EvState :=
  if e.acted.getLsbD j then e else { e with coming := setBit16 e.coming j true }

/-- Set a pending bit at once: in the save area of a waiter (10 R252). -/
def EvState.postSaved (e : EvState) (j : Nat) : EvState := { e with pend := setBit16 e.pend j true }

/-- The pending bits that a test sees (10 R246). -/
def EvState.visible (e : EvState) : BitVec 16 := e.pend &&& ~~~ e.fresh

/-- The event state a cycle later: what has fired becomes pending, and is visible from the cycle after on (10 R246). -/
def EvState.pass (e : EvState) : EvState :=
  { e with pend := e.pend ||| e.coming, fresh := e.coming &&& ~~~ e.pend, coming := 0, acted := 0 }

/-- The slot `j`. -/
def EvState.slotAt (e : EvState) (j : Nat) : EvSlot := Tab.get e.slots EvSlot.disarmed j

/-- The armed slots as a mask. -/
def EvState.armedMask (e : EvState) : BitVec 16 :=
  (List.range 16).foldl (fun a j => if (e.slotAt j).armed then setBit16 a j true else a) 0

/-- An edge occurrence at a page: every armed TIER slot whose page matches is posted (10 R245). -/
def EvState.tier (e : EvState) (bits : Nat) (va : Nat) : EvState :=
  (List.range 16).foldl (fun a j =>
    if (e.slotAt j).armed && (e.slotAt j).src == 4 && (e.slotAt j).thr.toNat / 2 ^ bits == va / 2 ^ bits
    then a.post j else a) e

/-- The context that issued a job of a core. -/
def Core.jobCtx (c : Core) (id : Nat) : Nat :=
  match c.jobs.find? (fun j => j.id == id) with | some j => j.ctx | none => 0

/-- The slots that a page's access posts: the pending bits it would set (10 R245). -/
def EvState.tierBits (e : EvState) (bits va : Nat) : List Nat :=
  (List.range 16).filter (fun j => (e.slotAt j).armed && (e.slotAt j).src == 4 &&
    (e.slotAt j).thr.toNat / 2 ^ bits == va / 2 ^ bits)

/-- A TIER occurrence on a core that a saved task left, a member's for a troupe, waits for its delivery to the save area
of the contexts that stood there (10 R252). -/
def Task.tierOcc (t : Task) (k asid bits va : Nat) : Task :=
  if t.saved.isEmpty || t.asid != asid then t
  else { t with tierDue := t.tierDue ++ (List.range t.saved.length).flatMap (fun i =>
    if (t.places.getD i (0, 0)).1 ≠ k then [] else ((t.saved.getD i default).ctx.ev.tierBits bits va).map (fun j => (i, j))) }

/-- A TIER occurrence on a core in an address space reaches the waiters of that space on that core (10 R245), and those
of the tasks it has saved (10 R252). -/
def State.tierOcc (s : State) (k asid bits va : Nat) : State :=
  ({ s with tasks := s.tasks.map (fun e => (e.1, e.2.tierOcc k asid bits va)) } : State).modCore k (fun c =>
    { c with
      ctxs := c.ctxs.map (fun e => if e.2.asid == asid then (e.1, { e.2 with ev := e.2.ev.tier bits va }) else e)
      parts := c.parts.map (fun e => (e.1, { e.2 with strands := e.2.strands.map (fun t =>
        if (c.ctx (c.jobCtx t.2.gang)).asid == asid then (t.1, { t.2 with ev := t.2.ev.tier bits va }) else t) })) })

/-! ### Translation (16 R327 to R333) -/

/-- A finished walk: the entry, its address and page offset bits, and the level at which it ended. -/
structure Walk where
  pte   : Word
  at_   : Nat
  bits  : Nat
  level : Nat
deriving DecidableEq, Repr, Inhabited

/-- Whether an entry with V = 1 is malformed at a level (16 R329). -/
def State.pteBad (s : State) (pte : Word) (level : Nat) : Bool :=
  let n := pte.toNat
  let leaf := natField n 9 9 == 1
  let pa := natField n 47 15 * 2 ^ 15
  natField n 63 48 != 0 || natField n 14 11 != 0 ||
  (!leaf && level == 3) ||
  (!leaf && (natField n 10 10 != 0 || natField n 8 1 != 0 || natField n 15 15 != 0)) ||
  (leaf && natField n 2 2 == 1 && natField n 1 1 == 0) ||
  (leaf && pa % (if level == 1 then 2 ^ 41 else if level == 2 then 2 ^ 28 else 2 ^ 15) != 0) ||
  (leaf && (match s.phys pa with
    | .tierH => natField n 4 4 != 0
    | .tierC => natField n 4 4 != 1
    | .host _ => natField n 4 4 != 0 || natField n 5 5 != 0
    | .outside => true))

/-- A walk from a table's base at a level. It ends at an entry with V = 0 or LEAF = 1, or at level 3; `none` with the
level and the cause for an entry that is not valid (1) or malformed (4). -/
def State.walkFrom (s : State) (va base level fuel : Nat) : Except (Nat × Nat) Walk :=
  match fuel with
  | 0 => .error (level, 4)
  | f + 1 =>
    let bits := if level == 1 then 41 else if level == 2 then 28 else 15
    let at_ := base + 8 * (va / 2 ^ bits % 8192)
    let pte := BitVec.ofNat 64 (s.mem.read at_ 8)
    if pte.toNat % 2 = 0 then .error (level, 1)
    else if s.pteBad pte level then .error (level, 4)
    else if natField pte.toNat 9 9 = 1 then .ok ⟨pte, at_, bits, level⟩
    else s.walkFrom va (natField pte.toNat 47 15 * 2 ^ 15) (level + 1) f

/-- The walk of an address in an address space. -/
def State.walk (s : State) (asid : Nat) (va : Nat) : Except (Nat × Nat) Walk :=
  s.walkFrom va (natField (s.space asid).ptbase.toNat 47 16 * 2 ^ 16) 1 3

/-- The TLB entry of a core that covers an address. -/
def Core.tlbFind (c : Core) (asid va : Nat) : Option TlbEntry :=
  c.tlb.find? (fun e => e.asid == asid && e.va == va / 2 ^ e.bits * 2 ^ e.bits)

/-- The walker sets A, and D for a write, in the entry at its home (16 R331), and the TLB takes the leaf. The TLB
holds 256 entries (log 8). -/
def State.fillTlb (s : State) (k asid va : Nat) (w : Walk) (wr : Bool) : State × Word :=
  let pte := w.pte ||| BitVec.ofNat 64 (if wr then 0xC0 else 0x80)
  let s1 : State := { s with mem := s.mem.write w.at_ 8 pte.toNat }
  (s1.modCore k (fun c =>
    { c with tlb := (⟨asid, va / 2 ^ w.bits * 2 ^ w.bits, w.bits, pte⟩ ::
        c.tlb.filter (fun e => !(e.asid == asid && e.va == va / 2 ^ e.bits * 2 ^ e.bits))).take 256 }), pte)

/-- The result of a translation: the physical address, the page's offset bits, the entry and the state after. -/
structure Xlate where
  pa   : Nat
  bits : Nat
  pte  : Word
  s    : State

/-- Whether the page is poisoned: a read of it returns uncorrectable data (16 R332, 05 R105, 07 R175). -/
def Xlate.poisoned (x : Xlate) : Bool := natField x.pte.toNat 8 8 == 1

/-- Marks among the units a read meets: a poisoned page, data found uncorrectable when it was read, and the read of an
atomic. -/
def poisonMark : Nat := 2 ^ 61
def badMark : Nat := 2 ^ 61 + 1
def atomMark : Nat := 2 ^ 61 + 2
/-- The units a read meets: its 64-byte line, or the mark of a poisoned page. -/
def readUnits (pa : Nat) (poisoned : Bool) : List Nat := if poisoned then [poisonMark] else [pa / 64]

/-- The checks of a leaf (16 R331): the cause of a PAGE trap, or 0. -/
def leafCause (pte : Word) (priv : Nat) (fw : Bool) (acc : Access) : Nat :=
  let n := pte.toNat
  if natField n 10 10 = 1 ∧ priv = 0 ∧ fw = false then 5
  else match acc with
    | .read => if natField n 1 1 = 1 then 0 else 2
    | .write => if natField n 2 2 = 1 then 0 else 2
    | .fetch => if natField n 3 3 = 1 then 0 else 2
    | .atomic => if natField n 1 1 = 1 ∧ natField n 2 2 = 1 then 0 else 2

/-- The leaf for an address: the core's TLB entry, unless a write meets D = 0 there, else a walk (16 R331, R333). A
walk fills the TLB and sets A and D only for an access that passes its checks. -/
def State.leafFor (s : State) (k asid va : Nat) (wr : Bool) : Except (Nat × Nat) (Word × Nat × Nat × Option Walk) :=
  match (s.core k).tlbFind asid va with
  | some e =>
    if wr && natField e.pte.toNat 6 6 == 0 then
      (match s.walk asid va with
       | .error x => .error x
       | .ok w => .ok (w.pte, w.bits, w.level, some w))
    else .ok (e.pte, e.bits, (if e.bits == 41 then 1 else if e.bits == 28 then 2 else 3), none)
  | none =>
    match s.walk asid va with
    | .error x => .error x
    | .ok w => .ok (w.pte, w.bits, w.level, some w)

/-- Whether an access writes its page. -/
def Access.writes (a : Access) : Bool := match a with | .write => true | .atomic => true | _ => false

/-- Translate one address for an access of core `k` in an address space at a privilege level, with the checks of R331
in their order; an access that passes them on a watched page is a TIER occurrence. `fw` is the fetch of a firmware figure's code. -/
def State.translate (s : State) (k asid priv : Nat) (fw : Bool) (acc : Access) (va : Word) : Except Trap Xlate :=
  if va.toNat / 2 ^ 54 ≠ 0 then .error (trapPage va 3 acc 0)
  else if (s.space asid).ptbase.toNat % 2 = 0 then .error (trapPage va 6 acc 0)
  else match s.leafFor k asid va.toNat acc.writes with
    | .error (lv, cause) => .error (trapPage va cause acc lv)
    | .ok (pte, bits, lv, w?) =>
      let cause := leafCause pte priv fw acc
      if cause ≠ 0 then .error (trapPage va cause acc lv)
      else if natField pte.toNat 8 8 = 1 ∧ acc ≠ .read ∧ acc ≠ .atomic then .error (trapMem va acc true)
      else
        let s1 := match w? with | some w => (s.fillTlb k asid va.toNat w acc.writes).1 | none => s
        let s2 := if natField pte.toNat 5 5 = 1 ∧ natField pte.toNat 8 8 = 0 then s1.tierOcc k asid bits va.toNat else s1
        .ok ⟨natField pte.toNat 47 15 * 2 ^ 15 / 2 ^ bits * 2 ^ bits + va.toNat % 2 ^ bits, bits, pte, s2⟩

/-! ### View redirection (14 R308) -/

/-- The address an access of a task goes to. -/
def Core.redirect (c : Core) (task : Option Nat) (landing : Bool) (a : Nat) : Nat :=
  match task with
  | none => a
  | some t =>
    match c.views.find? (fun v => v.task == t && v.landing == landing && v.base ≤ a && a < v.base + v.len) with
    | some v => v.back + (a - v.base)
    | none => a

/-- Who makes an access: the core, the task, its address space and privilege level. -/
structure Agent where
  core : Nat
  task : Option Nat
  asid : Nat
  priv : Nat
deriving DecidableEq, Repr, Inhabited

/-- A context as an agent. -/
def State.ctxAgent (s : State) (k c : Nat) : Agent := ⟨k, (s.ctx k c).task, (s.ctx k c).asid, (s.ctx k c).priv⟩

/-- Translate an access of an agent after redirection. -/
def State.xlate (s : State) (g : Agent) (acc : Access) (va : Word) : Except Trap Xlate :=
  s.translate g.core g.asid g.priv false acc (BitVec.ofNat 64 ((s.core g.core).redirect g.task false va.toNat))

/-- A plain load of an agent: the value of the core's view, and the lines it read (11 R257, 05 R105). -/
def State.loadG (s : State) (g : Agent) (va : Word) (n : Nat) : Except Trap (Nat × List Nat × State) :=
  match s.xlate g .read va with
  | .error t => .error t
  | .ok x => .ok ((x.s.core g.core).viewRead x.pa n, readUnits x.pa x.poisoned, x.s)

/-- A plain store of an agent enters the core's write set (11 R257). -/
def State.storeG (s : State) (g : Agent) (who : Waiter × Nat) (va : Word) (n v : Nat) : Except Trap State :=
  match s.xlate g .write va with
  | .error t => .error t
  | .ok x => .ok (x.s.plainStore g.core who x.pa (bytesOf n v))

/-! ### Landing (09 R214 to R218, 15 R317) -/

/-- The core and local offset a Landing address of core `k` reaches: the local aperture, or the cluster aperture by
R215; `none` where nothing is mapped. -/
def landingPlace (k a : Nat) : Option (Nat × Nat) :=
  if a < 0x800000 then some (k, a)
  else if 0x1000000 ≤ a ∧ a < 0x3000000 then
    let c := a - 0x1000000
    some (memberCore k (c / 128 % 4), c / 512 * 128 + a % 128)
  else none

/-- Landing bytes of a core: the counter window below 0x1000, data above. -/
def Core.landRead (c : Core) (off n : Nat) : Nat :=
  if off < 0x1000 then (Tab.get c.counters 0 (off / 8)).toNat else c.landing.read off n

/-- Whether a read of `n` bytes meets an uncorrectable Landing word (15 R317). -/
def Core.landBad (c : Core) (off n : Nat) : Bool :=
  c.badLand.any (fun w => 0x1000 ≤ off && off < 8 * w + 8 && 8 * w < off + n)

/-- An arrival counter takes a value; the value at the start of the cycle is kept for the tests of the cycle (05 R108). -/
def Core.setCounter (c : Core) (ix : Nat) (v : Word) : Core :=
  { c with
    counters := c.counters.set 0 ix v
    ctrOld := if (Tab.find c.ctrOld ix).isSome then c.ctrOld else c.ctrOld.put ix (Tab.get c.counters 0 ix) }

/-- An arrival counter as it stood at the start of the cycle (05 R108). -/
def Core.counterAtStart (c : Core) (ix : Nat) : Word := (Tab.find c.ctrOld ix).getD (Tab.get c.counters 0 ix)

/-- Write Landing bytes: a 64-bit store to the window sets the counter; each whole aligned word is correct afterwards
(15 R317). -/
def Core.landWrite (c : Core) (off : Nat) (bs : List Byte) : Core :=
  if off < 0x1000 then c.setCounter (off / 8) (BitVec.ofNat 64 (numOf bs))
  else { c with
    landing := c.landing.writeList off bs
    badLand := c.badLand.filter (fun w => !(off ≤ 8 * w && 8 * w + 8 ≤ off + bs.length)) }

/-- Add to an arrival counter, modulo 2^64, in one step (05 R107, 09 R228). -/
def Core.addCounter (c : Core) (ix : Nat) (v : Word) : Core :=
  c.setCounter ix (Tab.get c.counters 0 ix + v)

/-- The checks of a Landing access of R102 and R172, in the order of R40: range, counter window, alignment. -/
def landCheck (k a size : Nat) (acc : Access) : Except Trap (Nat × Nat) :=
  if 2 ^ 32 ≤ a then .error (trapRange (BitVec.ofNat 64 a) acc size)
  else match landingPlace k a with
    | none => .error (trapRange (BitVec.ofNat 64 a) acc size)
    | some (m, off) =>
      if off < 0x1000 ∧ size ≠ 8 then .error (trapRange (BitVec.ofNat 64 a) acc size)
      else if a % size ≠ 0 then .error (trapAlign (BitVec.ofNat 64 a) acc size)
      else .ok (m, off)

end Sys2Proof.Machine
end

