-- ==== Sys2Proof/Machine/Atomics.lean ====
section
/-! DEFINITION. Accesses that are performed at the home of a location, and the lane accesses that are performed after
their pass has issued: reds and Landing stores (spec 08 R193, 09 R217, 11 R262, R267). -/
namespace Sys2Proof.Machine

/-- Whether a plain write arrives before an atomic of `who` (11 R262): one of the issuer's own that has not, and one that
the core's order puts before such a one; every other write too where `all` says so. The list is newest first. -/
def arriveSel (who : Waiter × Nat) (all : Bool) (a n : Nat) (own : List Nat) (ws : List WEntry) : List (WEntry × Bool) :=
  match ws with
  | [] => []
  | w :: r =>
    let open_ := !w.arrived && a ≤ w.addr && w.addr < a + n
    let mine := open_ && (w.who, w.lane) == who
    let own1 := if mine then w.addr :: own else own
    (w, open_ && (all || own1.contains w.addr)) :: arriveSel who all a n own1 r

/-- Before an atomic, its issuer's own earlier plain writes to the range arrive at their homes, oldest first. A plain
write of another issuer of the core may arrive now or later (11 R262): a free bit. -/
def State.arriveRange (s : State) (k : Nat) (who : Waiter × Nat) (a n : Nat) : State :=
  let z := arriveSel who (Config.freeBit s.fresh a) a n [] (s.core k).writes
  (arriveAll { s with fresh := s.fresh + 1 } ((z.filter Prod.snd).map Prod.fst)).modCore k (fun c =>
    { c with writes := z.map (fun e => if e.2 then { e.1 with arrived := true } else e.1) })

/-- An atomic of an issuer of core `k` on global memory, at its home on the latest value (08 R193, 11 R262): the old value, the
flags and the state after. -/
def State.atomG (s : State) (k : Nat) (who : Waiter × Nat) (pa n : Nat) (g : Nat → Nat × NFlags) : Nat × NFlags × State :=
  let s1 := s.arriveRange k who pa n
  let old := s1.mem.read pa n
  let r := g old
  (old, r.2, s1.homeStore k pa (bytesOf n r.1))

/-- An atomic on a Landing location (08 R193). -/
def State.atomL (s : State) (m off n : Nat) (g : Nat → Nat × NFlags) : Nat × NFlags × State :=
  let old := (s.core m).landRead off n
  let r := g old
  (old, r.2, s.modCore m (fun c => c.landWrite off (bytesOf n r.1)))

/-- The address of an uncorrectable unit in a list of lines read: physical 64-byte lines, and Landing words of a core
above 2^60. -/
def landLine (m off : Nat) : Nat := 2 ^ 60 + m * 2 ^ 24 + off / 8

/-- A byte of a partition's operand buffer, and a row of its accumulator memory, as units read. -/
def obufUnit (k p b : Nat) : Nat := 2 ^ 62 + k * 2 ^ 32 + p * 2 ^ 28 + b
def accUnit (k p r : Nat) : Nat := 2 ^ 63 + k * 2 ^ 32 + p * 2 ^ 28 + r

/-- Whether a read of a listed unit returns uncorrectable data (15 R317, 16 R332). -/
def State.srcBad (s : State) (l : Nat) : Bool :=
  if l = poisonMark ∨ l = badMark then true
  else if l = atomMark then false
  else if 2 ^ 63 ≤ l then ((s.part (l / 2 ^ 32 % 2 ^ 16) (l / 2 ^ 28 % 4)).badAcc).contains (l % 2 ^ 28)
  else if 2 ^ 62 ≤ l then ((s.part (l / 2 ^ 32 % 2 ^ 16) (l / 2 ^ 28 % 4)).badObuf).contains (l % 2 ^ 28)
  else if 2 ^ 60 ≤ l then (s.core ((l - 2 ^ 60) / 2 ^ 24)).badLand.contains (l % 2 ^ 24) else s.lineBad (64 * l)

/-- OR flags into the NUMFLAGS of the context whose figure started a gang (07 R154). -/
def State.gangFlags (s : State) (k gang : Nat) (fl : NFlags) : State :=
  match (s.core k).jobs.find? (fun j => j.id == gang) with
  | some j => s.modCtx k j.ctx (fun c => { c with numflags := c.numflags ||| fl })
  | none => s

/-- A red of a strand is performed (08 R193). -/
def State.performRed (s : State) (k p slot gang : Nat) (r : Red) : State :=
  let n := tySize r.ty
  let x := if r.space = 0 then s.atomG k (.strand p slot, r.lane) r.addr n (fun old => atomVal r.op r.ty old r.a.toNat)
    else s.atomL r.core r.addr n (fun old => atomVal r.op r.ty old r.a.toNat)
  x.2.2.gangFlags k gang x.2.1

/-! ### Landing banks (09 R217, R218, 11 R267) -/

/-- The bank of a Landing offset (09 R217). -/
def bankOf (off : Nat) : Nat := off / 128 % 64

/-- Stamp the requests that have become the oldest of their class at their banks in this cycle (09 R218). -/
def stampBanks (cycle : Nat) (older : List BankReq) (qs : List BankReq) : List BankReq :=
  match qs with
  | [] => []
  | q :: r =>
    let q1 := if q.since.isNone && !older.any (fun x => x.bank == q.bank && x.cls == q.cls) then { q with since := some cycle } else q
    q1 :: stampBanks cycle (q :: older) r

/-- The stores waiting at the banks of core `m` become these. -/
def State.setBankQ (s : State) (m : Nat) (qs : List BankReq) : State :=
  s.modCore m (fun c => { c with bankQ := stampBanks s.cycle [] qs })

/-- A store waits at a bank of core `m`. -/
def State.bankPut (s : State) (m : Nat) (q : BankReq) : State := s.setBankQ m ((s.core m).bankQ ++ [q])

/-- The pieces of an entry at a bank of core `m` are served; an entry whose every byte has been served is freed (11 R267). -/
def Strand.serveEntry (st : Strand) (m bank id : Nat) : Strand :=
  { st with spills := (st.spills.map (fun e => if e.id == id then
      { e with pieces := e.pieces.map (fun p => if p.core == m && bankOf p.off == bank then { p with served := true } else p) }
      else e)).filter (fun e => !e.pieces.all (fun p => p.served)) }

/-- A bank of core `m` serves a store: its bytes are written. -/
def State.serveBank (s : State) (q : BankReq) (m : Nat) : State :=
  q.entries.foldl (fun (x : State) e => x.modStrand q.core q.part e.1 (fun st => st.serveEntry m q.bank e.2))
    (s.modCore m (fun c => q.writes.foldl (fun (y : Core) w => y.landWrite w.1 w.2) c))

/-- The requests of a bank that come before a selected one, or are it, in order of arrival; and the rest. -/
def splitServe (sel : BankReq → Bool) (qs : List BankReq) : List BankReq × List BankReq :=
  match qs with
  | [] => ([], [])
  | q :: r =>
    let z := splitServe sel r
    if (q :: r).any (fun x => x.bank == q.bank && sel x) then (q :: z.1, z.2) else (z.1, q :: z.2)

/-- Serve the selected requests of every bank, and those ahead of them at their banks. -/
def State.drainBanks (s : State) (sel : BankReq → Bool) : State :=
  (s.cores.map Prod.fst).foldl (fun (x : State) m =>
    let z := splitServe sel (x.core m).bankQ
    if z.1.isEmpty then x else z.1.foldl (fun (y : State) q => y.serveBank q m) (x.setBankQ m z.2)) s

/-- The Landing stores that a context has issued are served. -/
def State.drainCtx (s : State) (k c : Nat) : State := s.drainBanks (fun q => q.core == k && q.ctx == some c)

/-- Every access that a strand has issued and that is not yet performed is performed: reds and Landing stores. -/
def State.drainStrand (s : State) (k p slot : Nat) : State :=
  let st := s.strand k p slot
  let s1 := st.reds.foldl (fun (x : State) r => x.performRed k p slot st.gang r) s
  (s1.modStrand k p slot (fun x => { x with reds := [] })).drainBanks
    (fun q => q.core == k && q.part == p && q.entries.any (fun e => e.1 == slot))

/-- Perform what the strands of a job have issued, before they are removed. -/
def State.drainJob (s : State) (k : Nat) (sel : Nat → Bool) : State :=
  [0, 1, 2, 3].foldl (fun (x : State) p =>
    ((x.part k p).strands.filter (fun e => sel e.2.gang)).foldl (fun (y : State) e => y.drainStrand k p e.1) x) s

/-- The strands of the gangs that a test selects leave a core, with their barriers and their waiting queue requests
(03 R60, 12 R280). -/
def Core.dropGangs (c : Core) (sel : Nat → Bool) : Core :=
  let gone (p sl : Nat) : Bool := sel ((c.part p).strand sl).gang && (Tab.find (c.part p).strands sl).isSome
  let keep (w : List QWait) : Bool := !w.any (fun q => gone q.part q.slot)
  { c with
    queues := c.queues.map (fun e => (e.1, { e.2 with pushes := e.2.pushes.filter keep, pops := e.2.pops.filter keep }))
    parts := c.parts.map (fun e => (e.1, { e.2 with
      strands := e.2.strands.filter (fun st => !sel st.2.gang), barriers := e.2.barriers.filter (fun b => !sel b.1) })) }

end Sys2Proof.Machine
end

