-- ==== Sys2Proof/Machine/EventOps.lean ====
section
/-! DEFINITION. The event slots of a waiter and the entry of its handlers (spec 05 R116 to R118, 08 R198 to R200,
10 R244 to R251). -/
namespace Sys2Proof.Machine

/-- The test of R227: a serial number has reached a threshold, modulo 2^32. -/
def serialReached (now thr : Nat) : Bool := (now % 2 ^ 32 + 2 ^ 32 - thr % 2 ^ 32) % 2 ^ 32 < 2 ^ 31

/-- Whether a descriptor and a threshold may be armed (05 R116, 10 R245). -/
def evDescOk (strand : Bool) (desc thr : Word) : Bool :=
  let d := desc.toNat
  let ix := natField d 39 8
  natField d 63 40 == 0 && natField d 7 5 == 0 &&
  (match natField d 3 0 with
   | 0 => (if strand then ix ≤ 15 else ix == 0) && thr.toNat < 2 ^ 32
   | 1 => ix ≤ 3 && thr.toNat < 2 ^ 32
   | 2 => ix % 8 == 0 && ix ≤ 0xFF8
   | 3 => ix ≤ 15
   | 4 => ix == 0 && thr.toNat < 2 ^ 54
   | 5 => ix ≤ 1
   | 6 => !strand && ix == 0
   | 7 => ix == 0
   | 8 => ix == 0 && thr == 0
   | _ => false)

/-- Arm slot `j` (05 R116, 10 R247): its whole state is replaced and its pending bit cleared. -/
def EvState.arm (e : EvState) (j : Nat) (desc thr handler : Word) : EvState :=
  { e with
    slots := e.slots.put j ⟨true, natField desc.toNat 3 0, natField desc.toNat 39 8, natField desc.toNat 4 4 == 1, thr, handler, false⟩,
    pend := setBit16 e.pend j false, coming := setBit16 e.coming j false, acted := setBit16 e.acted j true }

/-- Disarm slot `j` (10 R244): the fields other than ARMED are undefined, so they take free values (log 15). -/
def EvState.disarm (e : EvState) (j : Nat) (free : Nat → Word) : EvState :=
  { e with
    slots := e.slots.put j ⟨false, (free 0).toNat % 16, (free 1).toNat % 2 ^ 32, (free 2).toNat % 2 == 1, free 3, free 4,
      (free 5).toNat % 2 == 1⟩,
    pend := setBit16 e.pend j false, coming := setBit16 e.coming j false, acted := setBit16 e.acted j true }

/-- The slots of a list that can be taken: armed, visibly pending, not masked (10 R250). -/
def EvState.ready (e : EvState) (list : BitVec 16) : BitVec 16 := list &&& e.armedMask &&& e.visible &&& ~~~ e.mask

/-- The lowest set bit of a mask. -/
def lowestBit (m : BitVec 16) : Nat := ((List.range 16).find? (fun j => m.getLsbD j)).getD 16

/-- The armed asynchronous slots. -/
def EvState.asyncMask (e : EvState) : BitVec 16 :=
  (List.range 16).foldl (fun a j => if (e.slotAt j).armed && (e.slotAt j).mode then setBit16 a j true else a) 0

/-- The event registers on entry to the handler of slot `j` (05 R118, 08 R200). -/
def EvState.enter (e : EvState) (j : Nat) (resume : Word) : EvState :=
  { e with pend := setBit16 e.pend j false, pc := resume, inh := true, slot := j }

/-- Exchange x56 to x63 and c7 with their shadow copies, full bits with their values (05 R118). -/
def Ctx.swapBank (c : Ctx) : Ctx :=
  { c with
    x := (List.range 8).foldl (fun (t : Tab Word) i => t.set 0 (56 + i) (Tab.get c.shX 0 (56 + i))) c.x,
    shX := (List.range 8).foldl (fun (t : Tab Word) i => t.set 0 (56 + i) (Tab.get c.x 0 (56 + i))) c.shX,
    empty := c.empty.filter (· < 56) ++ c.shEmpty,
    shEmpty := c.empty.filter (fun r => decide (56 ≤ r)),
    c := setBit16 c.c 7 c.shC7, shC7 := c.getC 7,
    latches := c.latches.filter (fun e => !(e.2.kind == 2 && decide (56 ≤ e.2.idx))) }

/-- EnterHandler of a tile context (05 R118). A wait of tbar is taken up again after the return; a bundle that waits in
sync is issued again (10 R250). -/
def Ctx.enterHandler (c : Ctx) (j : Nat) (resume : Word) : Ctx :=
  { c.swapBank with
    ev := c.ev.enter j resume, pc := (c.ev.slotAt j).handler, wait := .none
    held := (match c.wait with | .tbar k => .tbar k | _ => .none) }

/-- The return of a handler of a tile context (05 R118): the banks are exchanged back, and the context goes on at the
resume address, with the wait that the handler interrupted. -/
def Ctx.leaveHandler (c : Ctx) (resume : Word) : Ctx :=
  { c.swapBank with ev := { c.ev with inh := false }, pc := resume, wait := c.held, held := .none }

/-- The bits that EVPOST posts: each 1 posts its slot if the slot is armed with SOFT (05 R119). -/
def EvState.postSoft (e : EvState) (v : Word) : EvState :=
  (List.range 16).foldl (fun (a : EvState) j =>
    if v.getLsbD j && (e.slotAt j).armed && (e.slotAt j).src == 8 then a.post j else a) e

/-- The name of a pending register after an exchange of banks: v120 to v127 of the bank set aside are 1120 to 1127 (08
R200, 03 R61). -/
def bankName (r : Nat) : Nat := if 120 ≤ r ∧ r < 128 then r + 1000 else if 1120 ≤ r then r - 1000 else r

/-- Exchange s28 to s31, and v120 to v127 and p6 of each lane that has not exited, with their shadows (08 R200). -/
def Strand.swapBank (st : Strand) : Strand :=
  { st with
    s := (List.range 4).foldl (fun (t : Tab Word) i => t.set 0 (28 + i) (Tab.get st.shS 0 (28 + i))) st.s,
    shS := (List.range 4).foldl (fun (t : Tab Word) i => t.set 0 (28 + i) (Tab.get st.s 0 (28 + i))) st.shS,
    lanes := st.lanes.map (fun e => if e.2.exited then e else (e.1, { e.2 with
      v := (List.range 8).foldl (fun (t : Tab W32) i => t.set 0 (120 + i) (Tab.get e.2.shV 0 (120 + i))) e.2.v,
      shV := (List.range 8).foldl (fun (t : Tab W32) i => t.set 0 (120 + i) (Tab.get e.2.v 0 (120 + i))) e.2.shV,
      p := if e.2.shP6 then e.2.p ||| 64 else e.2.p &&& ~~~ 64, shP6 := e.2.p.getLsbD 6, pendV := e.2.pendV.map bankName })) }

/-- Every lane that has not exited goes on at a PC, waiting for nothing. -/
def Strand.sendAll (st : Strand) (pc : Word) : Strand :=
  { st with lanes := st.lanes.map (fun e => if e.2.exited then e else (e.1, { e.2 with pc := pc, wait := .none, idle := 0 })) }

/-- EnterHandler of a strand (08 R200). -/
def Strand.enterHandler (st : Strand) (j : Nat) (resume : Word) : Strand :=
  ({ st.swapBank with ev := st.ev.enter j resume, listW := 0 } : Strand).sendAll (st.ev.slotAt j).handler

/-- EVCTL (10 R248). -/
def EvState.ctl (e : EvState) : Word := BitVec.ofNat 64 (bit e.inh * 16 + e.slot)

/-- The fetch barrier (05 R123): no bundle or lane instruction fetched before it is used after it. -/
def State.fetchBarrier (s : State) (k : Nat) : State :=
  s.modCore k (fun c => { c with fetched := [], parts := c.parts.map (fun e => (e.1, { e.2 with trace := [] })) })

/-- A phase operation begins (05 R122, 11 R258). -/
def State.beginPhase (s : State) (k : Nat) (pub snap : Bool) (who : Waiter) (lanes : List Nat) : State :=
  s.modCore k (fun c => { c with phases := c.phases ++ [⟨pub, snap, who, lanes, s.mem, s.cycle⟩] })

/-- Add tokens to a mailbox of a core (08 R202). -/
def State.addTokens (s : State) (k mb : Nat) (v : Word) : State :=
  s.modCore k (fun c => { c with mbox := c.mbox.set 0 mb (Tab.get c.mbox 0 mb + v) })

end Sys2Proof.Machine
end

