-- ==== Sys2Proof/Machine/Operands.lean ====
section
/-! DEFINITION. Operand forms of the scalar slots: fields, immediates, sources and destinations, and the result of
one slot of a bundle (spec 02 R33 to R47, 05 R95, R96). -/
namespace Sys2Proof.Machine

/-- What a slot sees of its bundle: the context and the whole state as they stood before the bundle (02 R43), its slot
number, whether the bundle has Header.lend, and whether its leaf has a branch target. -/
structure SEnv where
  core   : Nat
  ctx    : Nat
  pre    : Ctx
  slot   : Nat
  lend   : Bool
  branch : Bool
  s0     : State

/-- The result of one slot: done, with a control-transfer target and a trap found after issue (05 R103); a trap at
issue (02 R39); or the bundle does not issue (02 R34, R37). -/
inductive SlotRes where
  | ok (s : State) (pc : Option Word) (late : Option Trap)
  | trap (t : Trap)
  | hold (s : State)

/-- How an entry uses its destination or a source (05 R95, R96): an x register, an x register that is a source too, a
condition bit, unused, or a number of the entry's own. -/
inductive FieldUse where
  | x | xr | c | none | raw
deriving DecidableEq, Repr, Inhabited

/-- The immediate under R45, sign-extended: 16 bits, or 48 with the X word. -/
def sImmS (f : SFields) : Word :=
  match f.x with
  | Option.none => f.imm.signExtend 64
  | some x => (x ++ f.imm : BitVec 48).signExtend 64

/-- The immediate under R45, zero-extended. -/
def sImmU (f : SFields) : Word :=
  match f.x with
  | Option.none => f.imm.zeroExtend 64
  | some x => (x ++ f.imm : BitVec 48).zeroExtend 64

/-- Whether a destination field is legal for its use. -/
def dstOk (u : FieldUse) (d : Nat) : Bool :=
  match u with
  | .x => true
  | .xr => true
  | .c => d < 8
  | .none => d == 0
  | .raw => true

/-- Whether a source field and its mode bit are legal for their use. -/
def srcOk (u : FieldUse) (m : Bool) (r : Nat) : Bool :=
  match u with
  | .x => true
  | .xr => true
  | .c => !m && r < 16
  | .none => !m && r == 0
  | .raw => true

/-- The number by which an awaited answer names a condition bit: c7 of the handler's bank is 23 (05 R113, R118). -/
def Ctx.cName (c : Ctx) (n : Nat) : Nat := if n = 7 ∧ c.ev.inh then 23 else n

/-- Whether an answer of spawn.nb that will write the condition bit is awaited, or has arrived in this cycle (05 R113, 02
R38). A bundle that only writes the bit is not held: its write stands until the answer replaces it (log 93). -/
def Ctx.cAwaited (c : Ctx) (n : Nat) : Bool :=
  c.results.any (fun r => r.cbit == some (c.cName n)) || c.late.contains (64 + c.cName n)

/-- Whether a long-latency result for x[r], in the bank now in place, is outstanding, or has arrived in this cycle (02 R35,
R38, 05 R118). -/
def Ctx.awaits (c : Ctx) (r : Nat) : Bool :=
  c.results.any (fun e => e.reg == r && (r < 56 || e.shadow == c.ev.inh)) || c.late.contains r

/-- Whether a source holds its bundle: an empty x register with mode 0 (02 R34), or a condition bit whose answer is
awaited (05 R113). -/
def srcHolds (c : Ctx) (u : FieldUse) (m : Bool) (r : Nat) : Bool :=
  match u with
  | .x => !c.full r && !m
  | .c => c.cAwaited r
  | _ => false

/-- Whether a source raises EMPTY_READ (02 R34). -/
def srcEmpty (c : Ctx) (u : FieldUse) (m : Bool) (r : Nat) : Bool :=
  match u with
  | .x => !c.full r && m
  | _ => false

/-- The common part of every scalar operation: the field checks, privilege, the holds and EMPTY_READ, in the order of
R40; then the entry's own effect `k` on the values of its two sources. `valid` is the entry's own field check. -/
def scalarOp (du au bu : FieldUse) (valid privBad : Bool) (f : SFields) (env : SEnv) (s : State)
    (k : Word → Word → SlotRes) : SlotRes :=
  if !(dstOk du f.dst.toNat && srcOk au f.ma f.sa.toNat && srcOk bu f.mb f.sb.toNat && valid) then .trap trapIllegal
  else if privBad then .trap ⟨.priv, 0, 0⟩
  else if srcHolds env.pre au f.ma f.sa.toNat || srcHolds env.pre bu f.mb f.sb.toNat ||
      (du == .x && !env.pre.full f.dst.toNat && env.pre.awaits f.dst.toNat) || (du == .xr && !env.pre.full f.dst.toNat) then .hold s
  else if srcEmpty env.pre au f.ma f.sa.toNat then .trap ⟨.emptyRead, 0, f.sa.toNat⟩
  else if srcEmpty env.pre bu f.mb f.sb.toNat then .trap ⟨.emptyRead, 0, f.sb.toNat⟩
  else k (if au == .x then env.pre.getX f.sa.toNat else 0) (if bu == .x then env.pre.getX f.sb.toNat else 0)

/-- Write an x register of the context: full, and its latches fall (02 R33, R46). -/
def SEnv.writeX (env : SEnv) (s : State) (r : Nat) (v : Word) : State :=
  s.modCtx env.core env.ctx (fun c => (c.setX r v).dropLatch 2 r)

/-- Write a condition bit of the context. -/
def SEnv.writeC (env : SEnv) (s : State) (n : Nat) (v : Bool) : State :=
  s.modCtx env.core env.ctx (fun c => c.setC n v)

/-- Done, with nothing more. -/
def SlotRes.done (s : State) : SlotRes := .ok s Option.none Option.none

/-- A long-latency producer: the destination is empty until the value arrives (02 R33). -/
def SEnv.produce (env : SEnv) (s : State) (r : Nat) (v va : Word) (lines : List Nat) : State :=
  s.modCtx env.core env.ctx (fun c =>
    { (c.markEmpty r).dropLatch 2 r with results := c.results ++
      [⟨r, c.ev.inh && 56 ≤ r, v, Option.none, Option.none, Option.none, lines, va, env.pre.pc, env.slot, env.pre.cmd⟩] })

/-- A register-form operation on two x registers. -/
def aluRR (g : Word → Word → Word) (f : SFields) (env : SEnv) (s : State) : SlotRes :=
  scalarOp .x .x .x true false f env s (fun a b => .done (env.writeX s f.dst.toNat (g a b)))

/-- An immediate-form operation whose immediate is sign-extended (05 R98, 04 R86). -/
def aluRI (g : Word → Word → Word) (f : SFields) (env : SEnv) (s : State) : SlotRes :=
  scalarOp .x .x .none true false f env s (fun a _ => .done (env.writeX s f.dst.toNat (g a (sImmS f))))

/-- An immediate-form operation whose immediate is zero-extended (05 R98). -/
def aluRU (g : Word → Word → Word) (f : SFields) (env : SEnv) (s : State) : SlotRes :=
  scalarOp .x .x .none true false f env s (fun a _ => .done (env.writeX s f.dst.toNat (g a (sImmU f))))

/-- A register-form division: DIVIDE on a zero divisor (05 R99). -/
def divRR (g : Word → Word → Word) (f : SFields) (env : SEnv) (s : State) : SlotRes :=
  scalarOp .x .x .x true false f env s (fun a b =>
    if b = 0 then .trap ⟨.divide, 0, f.sb.toNat⟩ else .done (env.writeX s f.dst.toNat (g a b)))

/-- An immediate-form division. -/
def divRI (g : Word → Word → Word) (f : SFields) (env : SEnv) (s : State) : SlotRes :=
  scalarOp .x .x .none true false f env s (fun a _ =>
    if (sImmS f) = 0 then .trap ⟨.divide, 0, 0⟩ else .done (env.writeX s f.dst.toNat (g a (sImmS f))))

/-- A register-form compare (05 R100). -/
def cmpRR (g : Word → Word → Bool) (f : SFields) (env : SEnv) (s : State) : SlotRes :=
  scalarOp .c .x .x true false f env s (fun a b => .done (env.writeC s f.dst.toNat (g a b)))

/-- An immediate-form compare. -/
def cmpRI (g : Word → Word → Bool) (f : SFields) (env : SEnv) (s : State) : SlotRes :=
  scalarOp .c .x .none true false f env s (fun a _ => .done (env.writeC s f.dst.toNat (g a (sImmS f))))

/-- Where a trap at the issue of a bundle was found (16 R440). -/
def SEnv.at_ (env : SEnv) (slot : Nat) : TrapAt := ⟨0, 0, slot, env.pre.pc, env.pre.cmd, Option.none⟩

/-- The bundle has issued: the PC moves to its target or to the next bundle, the count of issued bundles rises, a SKIP is
spent, and the context issues no other bundle in this cycle (02 R37, R38, 16 R340). A handler entry or return of the
bundle happens after its slots have taken effect (05 R117, R118); the return goes to EVPC as it stood before the bundle
(02 R43). A trap found after issue then stops the context (05 R103). -/
def finishIssue (env : SEnv) (s : State) (pc : Option Word) (late : Option (Nat × Trap)) : State :=
  let s1 := s.modCtx env.core env.ctx (fun c =>
    { c with pc := pc.getD (env.pre.pc + 32), cmd := c.cmd + 1, skip := [], issued := s.cycle + 1 })
  let s2 := (match (s1.ctx env.core env.ctx).wait with
    | .enter j r => s1.modCtx env.core env.ctx (fun c => c.enterHandler j r)
    | .evret => s1.modCtx env.core env.ctx (fun c => c.leaveHandler env.pre.ev.pc)
    | .released => s1.modCtx env.core env.ctx (fun c => { c with wait := .none })
    | _ => s1)
  match late with
  | Option.none => s2
  | some (slot, t) => s2.takeTrap env.core env.ctx (env.at_ slot) t.cls t.addr (BitVec.ofNat 64 t.det)

/-- The environment of the context whose turn it is. -/
def State.turnEnv (s : State) (slot : Nat) : SEnv :=
  ⟨s.turn.core, s.turn.ctx, s.ctx s.turn.core s.turn.ctx, slot, false, false, s⟩

/-- The issue of a bundle that holds one operation, always executing and with no tree, by the context whose turn it is
(log 7): the operation's effect and the PC's advance, or its trap with no other effect (02 R39), or a wait. -/
def issueOne (slot : Nat) (op : SEnv → State → SlotRes) (s : State) : Out :=
  let env := s.turnEnv slot
  match op env s with
  | .ok s1 pc late => .next (finishIssue env s1 pc (late.map (fun t => (slot, t))))
  | .trap t => .next (s.takeTrap env.core env.ctx (env.at_ slot) t.cls t.addr (BitVec.ofNat 64 t.det))
  | .hold s1 => .next s1

end Sys2Proof.Machine
end

