-- ==== Sys2Proof/Machine/Tasks.lean ====
section
/-! DEFINITION. Tasks, steps and their completion: the shared operations of dispatch, the step walker, spawning and
failing (spec 14 R294 to R307). -/
namespace Sys2Proof.Machine

/-- A field of word `w` of a task's TOPB (14 R294). -/
def Task.field (t : Task) (w hi lo : Nat) : Nat := natField (t.words.read (8 * w) 8) hi lo

def Task.nctx (t : Task) : Nat := t.field 1 63 60
def Task.troupe (t : Task) : Bool := t.field 1 59 59 == 1
def Task.obuf (t : Task) : Nat := t.field 1 58 48
def Task.accs (t : Task) : Nat := t.field 1 47 44
def Task.strands (t : Task) : Nat := t.field 1 43 38
def Task.lbase (t : Task) : Nat := t.field 2 31 0
def Task.lsize (t : Task) : Nat := t.field 2 63 32
def Task.gbase (t : Task) : Nat := t.field 3 31 0
def Task.gsize (t : Task) : Nat := t.field 3 63 32
def Task.nview (t : Task) : Nat := t.field 5 19 16
def Task.mop (t : Task) : Nat := t.field 5 2 0
def Task.viewSpace (t : Task) (v : Nat) : Bool := t.field (16 + 4 * v) 63 63 == 1
/-- BASE and BACK of a view: of a Landing view bits [31:0] alone (14 R294). -/
def Task.viewBase (t : Task) (v : Nat) : Nat := if t.viewSpace v then t.field (16 + 4 * v) 31 0 else t.field (16 + 4 * v) 53 0
def Task.viewLen (t : Task) (v : Nat) : Nat := t.field (17 + 4 * v) 30 0
def Task.viewBack (t : Task) (v : Nat) : Nat := if t.viewSpace v then t.field (18 + 4 * v) 31 0 else t.field (18 + 4 * v) 53 0
/-- The extent of level `d` of the step nest (14 R296). -/
def Task.extent (t : Task) (d : Nat) : Nat := t.field 4 (10 * d + 9) (10 * d) + 1

/-- The number of steps of a nest. -/
def Task.numSteps (t : Task) : Nat := (List.range 6).foldl (fun a d => a * t.extent d) 1

/-- The position in level `d` of step `n` in lexicographic order, level 5 fastest (14 R296). -/
def Task.stepPos (t : Task) (n d : Nat) : Nat :=
  n / (List.range (5 - d)).foldl (fun a j => a * t.extent (d + 1 + j)) 1 % t.extent d

/-! ### The save area (16 R348, R349) -/

/-- The bytes that one context's part of a save area takes: its fixed part, its operand buffers and accumulators, and
with the first context of a core its Landing and scratch grants (16 R348, R349; log 30). -/
def Task.areaPart (t : Task) (first : Bool) : Nat :=
  0x6000 + 4 * t.obuf * 1024 + 4 * t.accs * 131072 + (if first then t.lsize + t.gsize else 0)

/-- The size of a task's save area. -/
def Task.areaSize (t : Task) : Nat :=
  if t.troupe then 4 * t.areaPart true else t.areaPart true + (t.nctx - 1) * t.areaPart false

/-- SAVEPOOL's fields (16 R337). -/
def Space.areaCount (sp : Space) : Nat := fieldNat sp.savepool 63 48
def Space.areaBase (sp : Space) (i : Nat) : Nat := fieldNat sp.savepool 47 20 * 2 ^ 20 + i * (fieldNat sp.savepool 11 0 * 2 ^ 20)
def Space.areaStride (sp : Space) : Nat := fieldNat sp.savepool 11 0 * 2 ^ 20

/-- Where the part of a task's `i`-th context begins in its save area (log 30). -/
def Task.partOffset (t : Task) (i : Nat) : Nat :=
  if t.troupe then i * t.areaPart true else if i = 0 then 0 else t.areaPart true + (i - 1) * t.areaPart false

/-- Whether the part of a task's `i`-th context holds Landing and scratch grants. -/
def Task.hasLanding (t : Task) (i : Nat) : Bool := t.troupe || i == 0

/-- Offsets of the variable blocks within a part. -/
def Task.obufOff (_t : Task) : Nat := 0x6000
def Task.accOff (t : Task) : Nat := 0x6000 + 4 * t.obuf * 1024
def Task.landOff (t : Task) : Nat := t.accOff + 4 * t.accs * 131072
def Task.scratchOff (t : Task) : Nat := t.landOff + t.lsize

/-- The physical address of the part of a task's `i`-th context. -/
def State.partBase (s : State) (t i : Nat) : Nat :=
  let tk := s.task t
  (s.space tk.asid).areaBase (tk.area.getD 0) + tk.partOffset i

/-- Translation of an address of a space for the dispatchers, the counts and the merge unit, which use no core's TLB
(14 R304, R309, R314): the physical address, or the cause (0 for a poisoned page). A and D are set (16 R331). -/
def State.spaceXlate (s : State) (asid priv : Nat) (acc : Access) (va : Nat) : Except Nat (Nat × State) :=
  if va / 2 ^ 54 ≠ 0 then .error 3
  else if (s.space asid).ptbase.toNat % 2 = 0 then .error 6
  else match s.walk asid va with
    | .error (_, cause) => .error cause
    | .ok w =>
      let cause := leafCause w.pte priv false acc
      if cause ≠ 0 then .error cause
      else if natField w.pte.toNat 8 8 = 1 then .error 0
      else
        let pte := w.pte ||| BitVec.ofNat 64 (if acc.writes then 0xC0 else 0x80)
        .ok (natField w.pte.toNat 47 15 * 2 ^ 15 / 2 ^ w.bits * 2 ^ w.bits + va % 2 ^ w.bits,
          { s with mem := s.mem.write w.at_ 8 pte.toNat })

/-- An indivisible add of 1 to a 64-bit counter at its home; `none` when it cannot be performed (14 R304). -/
def State.homeAdd (s : State) (asid priv va : Nat) : Option State :=
  match s.spaceXlate asid priv .atomic va with
  | .error _ => none
  | .ok (pa, s1) => some (s1.homeWrite pa (bytesOf 8 (s1.mem.read pa 8 + 1)))

/-- Whether a context is parked at a spawn bundle. -/
def Ctx.parked (c : Ctx) : Bool := match c.wait with | .spawnPark _ => true | _ => false

/-- The children of a task. -/
def State.children (s : State) (t : Nat) : List Nat :=
  (s.tasks.filter (fun e => e.2.parent == some t)).map Prod.fst

/-- Whether every child spawned so far has merged (05 R114). -/
def State.allMerged (s : State) (t : Nat) : Bool := (s.children t).all (fun c => (s.task c).merged)

/-- The registers of a context at a step start (14 R297), before the implicit phase.a. -/
def startRegs (t : Task) (n : Nat) (c : Ctx) : Ctx :=
  { c with
    running := true, pc := BitVec.ofNat 64 (t.field 0 53 0),
    x := (List.range 8).foldl (fun (a : Tab Word) j => Tab.set a 0 (j + 1) (BitVec.ofNat 64 (t.words.read (8 * (8 + j)) 8))) [],
    empty := [], c := 0,
    ireg := (List.range 6).foldl (fun (a : Tab Word) d => Tab.set a 0 d (BitVec.ofNat 64 (t.stepPos n d))) [],
    lpstart := 0, trip := 0, next := 0, drain := false, active := false, stages := 0, latches := [],
    ev := EvState.init, shX := [], shEmpty := [], shC7 := false, results := [], late := [], wait := .none, held := .none, cmd := 0,
    skip := [] }

/-- Step `n` of task `t` starts on a context: its registers, then the implicit phase.a (11 R259, 14 R297). -/
def State.startStep (s : State) (k c t n : Nat) : State :=
  ((s.modCtx k c (startRegs (s.task t) n)).snap k).modTask t (fun x =>
    { x with stepOf := (k, c, n) :: x.stepOf.filter (fun e => !(e.1 == k && e.2.1 == c)) })

/-- The state of a context that a task takes (09 R219, 06 R126, 14 R297). -/
def takenCtx (t : Nat) (tk : Task) (base : Nat) (accs : List Nat) : Ctx :=
  { Ctx.init with
      task := some t, pri := tk.pri, priv := tk.priv, asid := tk.asid, obufBase := base,
      obufSize := tk.obuf * 1024, accMap := accs }

/-- Release a task's contexts (14 R301). -/
def State.releaseCtxs (s : State) (t : Nat) : State :=
  (s.task t).places.foldl (fun a e =>
    if (a.ctx e.1 e.2).task == some t then a.setCtx e.1 e.2 Ctx.init else a) s

/-- Release a task's grants: operand buffer, accumulators, reserved strand slots, view entries and save area (14 R301, R308,
16 R348). -/
def State.releaseGrants (s : State) (t : Nat) : State :=
  let tk := s.task t
  let s1 := tk.cores.foldl (fun a k => a.modCore k (fun c =>
    { c with
      views := c.views.filter (fun v => v.task != t),
      parts := c.parts.map (fun e => (e.1, { e.2 with reserved := e.2.reserved.filter (fun r => r.1 != t) })) }))
    (s.modTask t (fun x => { x with grants := [] }))
  match tk.area with
  | none => s1
  | some i => s1.modSpace tk.asid (fun sp => { sp with areas := sp.areas.filter (· != i) })

/-- A 64-bit word of the MSI-X table: two to an entry, the mask bit in bit 32 of the second, set at reset (log 37). -/
def Port.msixWord (p : Port) (i : Nat) : Word := Tab.get p.msix (if i % 2 = 1 then 0x100000000 else 0) i

/-- Whether an MSI-X entry is masked. -/
def Port.masked (p : Port) (vec : Nat) : Bool := (p.msixWord (2 * vec + 1)).toNat / 2 ^ 32 % 2 == 1

/-- Raise a host interrupt: MSI-X entry `vec` of a port; a masked entry is recorded as pending (22 R419). -/
def State.raiseMsi (s : State) (port vec : Nat) : State :=
  s.modPort port (fun p =>
    if p.masked vec then { p with pba := vec :: p.pba.filter (· != vec) }
    else { p with sent := vec :: p.sent })

/-- A launch is complete: QDONE, NFAIL and its interrupt (14 R304, R306, 22 R418, R419). One that has failed is counted in
its LCTR too, once, where the add can be performed (22 R418, log 107). -/
def State.finishLaunch (s : State) (l : Nat) : State :=
  let la := Tab.get s.launches default l
  let st : State := { s with launches := s.launches.put l { la with complete := true } }
  let s0 := if la.dead && la.lctr != 0 && la.lctr.toNat % 8 == 0 then (st.homeAdd la.asid la.priv la.lctr.toNat).getD st else st
  let s1 := s0.modQueue la.queue (fun q => match la.failed with
    | none => { q with qdone := q.qdone + 1 }
    | some (cause, ix) => { q with qdone := q.qdone + 1, nfail := q.nfail + 1, cause := cause, ftask := ix })
  if la.intr then s1.raiseMsi la.port la.ivec else s1

/-- Whether every task that the launch will start has completed. -/
def Launch.allDone (la : Launch) : Bool := la.doneN == (if la.dead then la.started else la.ntask)

/-- Count the completion of a host-launched task: PCTR, LCTR, the launch and its queue (14 R304). A dropped add makes
the launch a failed one with CAUSE 6 (22 R418). -/
def State.countTask (s : State) (t : Nat) : State :=
  let tk := s.task t
  match tk.launch with
  | none => s
  | some l =>
    let note (st : State) (ix : Nat) : State :=
      let la := Tab.get st.launches default l
      { st with launches := st.launches.put l { la with failed := if la.failed.isSome then la.failed else some (6, ix) } }
    let pctr := tk.field 6 53 0
    let s1 := if pctr = 0 then s else (match s.homeAdd tk.asid tk.priv pctr with | some a => a | none => note s tk.index)
    let lctr := (Tab.get s1.launches default l).lctr.toNat
    let s2 := if lctr = 0 then s1 else (match s1.homeAdd tk.asid tk.priv lctr with | some a => a | none => note s1 0)
    let la := Tab.get s2.launches default l
    let la1 : Launch := { la with doneN := la.doneN + 1 }
    let s3 : State := { s2 with launches := s2.launches.put l la1 }
    if la1.allDone then s3.finishLaunch l else s3

/-- A task is complete (14 R298): it is counted, and its grants are released. -/
def State.completeTask (s : State) (t : Nat) : State :=
  ((s.releaseCtxs t).releaseGrants t).modTask t (fun x => { x with complete := true }) |>.countTask t

/-- A head leaves its source: no die counts its passes or drains for it any longer (14 R302). -/
def State.leaveHead (s : State) (kind t : Nat) : State :=
  { s with dies := s.dies.map (fun e => (e.1, { e.2 with
      passes := e.2.passes.filter (fun p => !(p.1 == kind && p.2.1 == t))
      drain := if e.2.drain = some (kind, t) then none else e.2.drain })) }

/-- Fail a launch: no further task of it starts (14 R306, 22 R418). A launch none of whose started tasks runs on is
complete at once. -/
def State.failLaunch (s : State) (l cause ix : Nat) : State :=
  let la := Tab.get s.launches default l
  let la1 : Launch := { la with dead := true, failed := if la.failed.isSome then la.failed else some (cause, ix) }
  let s0 := (s.tasks.filter (fun e => e.2.launch == some l && !e.2.started)).foldl (fun (x : State) e => x.leaveHead 2 e.1) s
  let s1 : State := { s0 with launches := s0.launches.put l la1 }
  if la1.allDone && !la1.complete then s1.finishLaunch l else s1

/-- A task ends as failed (14 R306, R315, 16 R342, R344): its contexts, gangs, jobs and grants are released and its
launch fails; a spawned child counts as merged with no effect, and its parent takes ILLEGAL_OP. -/
def State.failTask (s : State) (t cause : Nat) : State :=
  let tk := s.task t
  let s0 := tk.cores.foldl (fun a k =>
    let ids := (((a.core k).jobs.filter (fun j => j.task == t)).map (fun j => j.id))
    a.drainJob k (fun g => ids.contains g)) s
  let s1 := tk.cores.foldl (fun a k => a.modCore k (fun c =>
    let ids := (c.jobs.filter (fun j => j.task == t)).map (fun j => j.id)
    { c.dropGangs (fun g => ids.contains g) with jobs := c.jobs.filter (fun j => j.task != t) })) s0
  let s2 := (s1.releaseCtxs t).releaseGrants t
  let s3 := s2.modTask t (fun x => { x with complete := true, failure := true, saved := [], failedC := x.parent.isSome })
  match tk.parent with
  | some p => s3.modTask p (fun x => { x with spFail := x.spFail ++ [tk.spawnIx] })
  | none =>
    match tk.launch with
    | none => s3
    | some l =>
      let la := Tab.get s3.launches default l
      ({ s3 with launches := s3.launches.put l { la with doneN := la.doneN + 1 } } : State).failLaunch l cause tk.index

/-- A release from sync: the implicit phase.a, and a new epoch of the task (11 R259, 14 R310). -/
def State.releaseSync (s : State) (k t : Nat) : State := (s.snap k).modTask t (fun x => { x with epoch := x.spawned + 1 })

/-- The greatest number of entries of a die's spawn pool (14 R305). -/
def poolSize : Nat := 2048

/-- The parked bundles of a task: of its saved contexts, or of those that it holds. -/
def State.parkedN (s : State) (t : Task) : Nat :=
  if t.saved.isEmpty then (t.places.filter (fun e => (s.ctx e.1 e.2).parked)).length
  else (t.saved.filter (fun x => x.ctx.parked)).length

/-- Whether a spawn of task `t` finds a free entry in the pool of a die: the bundles of tasks that the device has swapped out
while they were parked there take the entries that free first, the oldest before the others (14 R305). -/
def State.poolRoom (s : State) (d t : Nat) : Bool :=
  let ahead (e : Nat × Task) : Bool := e.2.die == d && e.1 != t && !e.2.complete && (match e.2.parkedAt, (s.task t).parkedAt with
    | none, _ => false
    | some _, none => true
    | some a, some b => decide (a < b))
  (s.tasks.filter ahead).foldl (fun n e => n + s.parkedN e.2) (s.die d).pool.length < poolSize

/-- Enter a child of task `t` into the pool of its die (14 R305): the task of the child and its spawn index. -/
def State.enterChild (s : State) (t core : Nat) (topb : Word) : State :=
  let die := coreDie core
  let p := s.task t
  let ix := p.spawned + 1
  let child : Task := { Task.init with
    topb := topb, asid := p.asid, priv := p.priv, pri := p.pri, parent := some t, spawnIx := ix, spawnCore := core, die := die,
    epochOf := p.epoch }
  let s1 : State := { s with tasks := s.tasks.put s.nextTask child, nextTask := s.nextTask + 1 }
  (s1.modTask t (fun x => { x with spawned := ix })).modDie die (fun d => { d with pool := d.pool ++ [s.nextTask] })

/-- Discard: the step on a context restarts from ENTRY with its registers set as at a step start (14 R299). -/
def State.restartStep (s : State) (k c : Nat) : State :=
  match (s.ctx k c).task with
  | none => s
  | some t =>
    match (s.task t).stepOf.find? (fun e => e.1 == k && e.2.1 == c) with
    | none => s
    | some (_, _, n) => s.startStep k c t n

end Sys2Proof.Machine
end

