-- ==== Sys2Proof/Machine/Tiles.lean ====
section
/-! DEFINITION. Tile registers and accumulators: control records, elements in the operand buffer and the accumulator
memory, and the data effects of the hard-engine figures (spec 06 R132 to R147). -/
namespace Sys2Proof.Machine

/-! ### Tile control records (06 R132, R133) -/

def Tile.size (t : Tile) : Nat := fieldNat t.place 52 32
def Tile.base (t : Tile) : Nat := fieldNat t.place 19 0
def Tile.fmtCode (t : Tile) : Nat := fieldNat t.shape 36 32
def Tile.cols (t : Tile) : Nat := fieldNat t.shape 28 16
def Tile.rows (t : Tile) : Nat := fieldNat t.shape 12 0
def Tile.scoff (t : Tile) : Nat := fieldNat t.layout 51 32
def Tile.kdim (t : Tile) : Bool := fieldNat t.layout 27 27 == 1
def Tile.sbl (t : Tile) : Nat := fieldNat t.layout 26 25
/-- The format of a control record; a code without a format has no width, so no row of R133 that
needs a width fails of it. -/
def Tile.fmt (t : Tile) : Fmt := (fmtOf t.fmtCode).getD ⟨0, 0, .fp fp32, false⟩
/-- The row length L (06 R133). -/
def Tile.rowLen (t : Tile) : Nat := t.cols * t.fmt.bits / 8
/-- The bytes from one row to the next (06 R132). -/
def Tile.stride (t : Tile) : Nat :=
  if fieldNat t.layout 20 0 = 0 then (t.rowLen + 15) / 16 * 16 else fieldNat t.layout 20 0
/-- The number of scale bytes (06 R133). -/
def Tile.scaleLen (t : Tile) : Nat :=
  if t.sbl = 0 then 0 else if t.kdim then (t.rows + 31) / 32 * t.cols else t.rows * ((t.cols + 31) / 32)

/-- The place of the scale byte of element (i, j) among the scale bytes (06 R133). -/
def Tile.scaleAt (t : Tile) (i j : Nat) : Nat :=
  if t.kdim then i / 32 * t.cols + j else i * ((t.cols + 31) / 32) + j / 32

/-- Whether a reserved field or an SBL code of a control record is set (06 R132). -/
def Tile.reservedBad (t : Tile) : Bool :=
  fieldNat t.place 63 53 != 0 || fieldNat t.place 31 20 != 0 || fieldNat t.shape 63 37 != 0 ||
  fieldNat t.shape 31 29 != 0 || fieldNat t.shape 15 13 != 0 || fieldNat t.layout 63 52 != 0 ||
  fieldNat t.layout 31 28 != 0 || fieldNat t.layout 24 21 != 0 || 2 ≤ t.sbl

/-- The FORMAT rows of R133. -/
def Tile.formatBad (t : Tile) : Bool :=
  match fmtOf t.fmtCode with
  | none => true
  | some f => f.block != (t.sbl == 1)

/-- Whether two byte ranges meet. -/
def rangesMeet (a n b m : Nat) : Bool := a < b + m && b < a + n

/-- The TILE_STATE rows of R133 but for placement; they come before the FORMAT rows (02 R40, order 3). -/
def Tile.shapeBad (t : Tile) : Bool :=
  t.size % 128 != 0 || t.size < 128 || 1048576 < t.size || t.base % 128 != 0 ||
  t.rows == 0 || 4096 < t.rows || t.cols == 0 || 4096 < t.cols ||
  (t.fmt.bits == 4 && t.cols % 2 != 0) || (t.fmt.bits == 6 && t.cols % 4 != 0) ||
  (fieldNat t.layout 20 0 != 0 && (t.stride % 16 != 0 || t.stride < t.rowLen)) ||
  t.size < t.rows * t.stride ||
  (t.sbl == 1 && (t.size < t.scoff + t.scaleLen ||
    (List.range t.rows).any (fun i => rangesMeet (i * t.stride) t.rowLen t.scoff t.scaleLen)))

/-- A tile of a context's partition, in issue order. -/
def Ctx.tile (c : Ctx) (p t : Nat) : Tile := Tab.get c.tiles Tile.init (32 * p + t)
/-- The type of an accumulator, in issue order (0 EMPTY). -/
def Ctx.acc (c : Ctx) (p z : Nat) : Nat := Tab.get c.accs 0 (8 * p + z)

/-- Placement (06 R133): inside the grant, and off every other reservation of the context in the partition. -/
def Ctx.placeBad (c : Ctx) (p t : Nat) (tl : Tile) : Bool :=
  c.obufSize < tl.base + tl.size ||
  (List.range 32).any (fun u => u != t && (c.tile p u).reserved &&
    rangesMeet tl.base tl.size (c.tile p u).base (c.tile p u).size)

/-! ### Elements -/

/-- The code of element `j` of width `w` in a row at `a`: elements are packed little-endian (01 R18). -/
def elemGet (m : Memory) (a w j : Nat) : Nat := m.read (a + j * w / 8) ((w + 14) / 8) / 2 ^ (j * w % 8) % 2 ^ w

/-- Write the code of element `j` of width `w` in a row at `a`. -/
def elemSet (m : Memory) (a w j v : Nat) : Memory :=
  let b := a + j * w / 8
  let sh := j * w % 8
  let n := (sh + w + 7) / 8
  let old := m.read b n
  m.write b n (old % 2 ^ sh + (v % 2 ^ w) * 2 ^ sh + old / 2 ^ (sh + w) * 2 ^ (sh + w))

/-- A tile as an engine sees it: its partition's operand buffer, its address there, and its control record. -/
structure TView where
  mem  : Memory
  at_  : Nat
  tile : Tile

/-- The code of element (i, j). -/
def TView.code (v : TView) (i j : Nat) : Nat := elemGet v.mem (v.at_ + i * v.tile.stride) v.tile.fmt.bits j

/-- The scale byte of the block of element (i, j) (06 R133, 01 R19). -/
def TView.scale (v : TView) (i j : Nat) : Nat :=
  (v.mem.byte (v.at_ + v.tile.scoff + v.tile.scaleAt i j)).toNat

/-- The value of element (i, j), with the flags of its block (01 R19, R20). -/
def TView.val (v : TView) (i j : Nat) : FVal × NFlags :=
  if v.tile.fmt.block then
    let n := if v.tile.kdim then min 32 (v.tile.rows - i / 32 * 32) else min 32 (v.tile.cols - j / 32 * 32)
    let codes := (List.range n).map (fun q => if v.tile.kdim then v.code (i / 32 * 32 + q) j else v.code i (j / 32 * 32 + q))
    let d := blockDecode v.tile.fmt.elem (v.scale i j) codes
    (d.1.getD (if v.tile.kdim then i % 32 else j % 32) (.fin false 0 0), d.2)
  else
    let x := v.tile.fmt.elem.decode (v.code i j)
    (x, if v.tile.fmt.elem == .e8m0 && x.isNan then flScaleNan else 0)

/-- Write the code of element (i, j). -/
def TView.setCode (v : TView) (i j c : Nat) : TView :=
  { v with mem := elemSet v.mem (v.at_ + i * v.tile.stride) v.tile.fmt.bits j c }

/-- Fold over the element positions of a rows × cols array, row by row. -/
def foldElems {α : Type} (rows cols : Nat) (f : α → Nat → Nat → α) (a : α) : α :=
  (List.range rows).foldl (fun x i => (List.range cols).foldl (fun y j => f y i j) x) a

/-! ### Accumulators (06 R139): 128 rows of 1,024 bytes -/

/-- The raw bits of element (i, j) of physical accumulator `z`; `ty` 3 is FP64. -/
def accGet (m : Tab W32) (z ty i j : Nat) : Nat :=
  if ty = 3 then
    (Tab.get m 0 (z * 32768 + i * 256 + 2 * j)).toNat + 2 ^ 32 * (Tab.get m 0 (z * 32768 + i * 256 + 2 * j + 1)).toNat
  else (Tab.get m 0 (z * 32768 + i * 256 + j)).toNat

/-- Write element (i, j) of physical accumulator `z`. -/
def accSet (m : Tab W32) (z ty i j v : Nat) : Tab W32 :=
  if ty = 3 then
    ((m.set 0 (z * 32768 + i * 256 + 2 * j) (BitVec.ofNat 32 v)).set 0 (z * 32768 + i * 256 + 2 * j + 1)
      (BitVec.ofNat 32 (v / 2 ^ 32)))
  else m.set 0 (z * 32768 + i * 256 + j) (BitVec.ofNat 32 v)

/-- The format code of an accumulator type. -/
def accFmt (ty : Nat) : Nat := if ty = 1 then 0x00 else if ty = 2 then 0x08 else 0x0C
/-- The columns of an accumulator type (06 R139). -/
def accCols (ty : Nat) : Nat := if ty = 3 then 128 else 256

/-! ### The matrix engine (01 R22 to R27, 06 R141, R142) -/

/-- The forms of `mma`: the formats of A and B, the accumulator type and the chunk size (0: the whole reduction). -/
def mmaForm (fig : Nat) : Option (List Nat × List Nat × Nat × Nat) :=
  match fig with
  | 0x10 => some ([0x02], [0x02], 1, 32)
  | 0x11 => some ([0x01], [0x01], 1, 32)
  | 0x12 => some ([0x03], [0x03, 0x04], 1, 64)
  | 0x13 => some ([0x04], [0x03, 0x04], 1, 64)
  | 0x14 => some ([0x09, 0x0A], [0x09, 0x0A], 2, 0)
  | 0x15 => some ([0x13, 0x14, 0x19], [0x13, 0x14, 0x19], 1, 64)
  | 0x16 => some ([0x15, 0x16], [0x15, 0x16], 1, 64)
  | 0x17 => some ([0x17], [0x17, 0x1B], 1, 128)
  | 0x18 => some ([0x0B], [0x0B], 2, 0)
  | 0x19 => some ([0x1B], [0x1B, 0x17], 1, 128)
  | 0x1A => some ([0x0C], [0x0C], 3, 4)
  | _ => none

/-- The exact sum of a chunk's products and its flags (01 R24): NaN factors, ∞ × 0, and infinities of both signs. -/
def chunkSum (ps : List (FVal × NFlags)) : FVal × NFlags :=
  let fl := ps.foldl (fun a p => a ||| p.2) (0 : NFlags)
  let both := ps.any (fun p => p.1 == .inf true) && ps.any (fun p => p.1 == .inf false)
  if both then (.nan, fl ||| flInv)
  else if ps.any (fun p => p.1.isNan) then (.nan, fl)
  else match ps with
    | [] => (.fin false 0 0, 0)
    | p :: r => (r.foldl (fun a q => (a.add q.1).1) p.1, fl)

/-- One chunk sum added to an accumulator element (01 R23, R24). -/
def addChunk (f : FFmt) (acc : Nat) (s : FVal × NFlags) : Nat × NFlags :=
  match s.1, (f.decode acc).isNan with
  | .nan, isn => (f.nanCode, s.2 ||| (if isn then flNanIn else 0))
  | _, true => (f.nanCode, s.2 ||| flNanIn)
  | v, false => let r := (f.decode acc).add v; f.result r.1 (s.2 ||| r.2)

/-- The integer an element of an integer format holds. -/
def fvalInt (v : FVal) : Int :=
  match v with
  | .fin n m e => let k : Int := (m * 2 ^ e.toNat : Nat); if n then -k else k
  | _ => 0

/-- The chunks of one `mma` element from chunk `c0` up to chunk `c1`: the new accumulator bits and the flags. -/
def mmaElem (ty chunk kTot c0 c1 : Nat) (a b : Nat → FVal × NFlags) (acc : Nat) : Nat × NFlags :=
  if ty = 2 then
    if c0 < c1 then
      let s : Int := (List.range kTot).foldl (fun x k => x + fvalInt (a k).1 * fvalInt (b k).1) (toSigned 32 acc)
      (ofSigned 32 s, if s < -2147483648 ∨ 2147483647 < s then flIovf else 0)
    else (acc, 0)
  else
    (List.range (c1 - c0)).foldl (fun (x : Nat × NFlags) q =>
      let lo := (c0 + q) * chunk
      let ps := (List.range (min chunk (kTot - lo))).map (fun k =>
        let u := a (lo + k)
        let w := b (lo + k)
        let p := u.1.mul w.1
        (p.1, p.2 ||| u.2 ||| w.2))
      let r := addChunk (if ty = 3 then fp64 else fp32) x.1 (chunkSum ps)
      (r.1, x.2 ||| r.2)) (acc, 0)

/-- The number of chunks of a reduction (06 R142). -/
def chunkCount (chunk k : Nat) : Nat := if chunk = 0 then 1 else (k + chunk - 1) / chunk

/-- `mma` in one partition, chunks `c0` to `c1` − 1, into physical accumulator `z`. -/
def mmaRun (fig : Nat) (a b : TView) (z c0 c1 : Nat) (m : Tab W32) : Tab W32 × NFlags :=
  match mmaForm fig with
  | none => (m, 0)
  | some (_, _, ty, chunk) =>
    foldElems a.tile.rows b.tile.cols (fun (x : Tab W32 × NFlags) i j =>
      let r := mmaElem ty chunk a.tile.cols c0 c1 (fun k => a.val i k) (fun k => b.val k j) (accGet m z ty i j)
      (accSet x.1 z ty i j r.1, x.2 ||| r.2)) (m, 0)

/-! ### The tile-transform engine (06 R145 to R147) -/

/-- Write a converted value at (i, j). A NaN that a format cannot hold becomes 0 with INV; NANIN belongs to the operand that
was a NaN, and so comes with `fl` (01 R21, R30). -/
def TView.put (v : TView) (sat : Bool) (i j : Nat) (x : FVal) (fl : NFlags) : TView × NFlags :=
  let r : Nat × NFlags := match v.tile.fmt.elem, x with
    | .fp f, .nan => if f.hasNan then (f.nanCode, 0) else (0, flInv)
    | .int _ _, .nan => (0, flInv)
    | e, y => e.encode .nearestEven sat false y
  (v.setCode i j r.1, fl ||| r.2)

/-- An elementwise figure: `g` gives the exact value and its flags at (i, j). -/
def elementwise (d : TView) (sat : Bool) (g : Nat → Nat → FVal × NFlags) : TView × NFlags :=
  foldElems d.tile.rows d.tile.cols (fun (x : TView × NFlags) i j =>
    let r := g i j
    let w := x.1.put sat i j r.1 r.2
    (w.1, x.2 ||| w.2)) (d, 0)

/-- An arithmetic operand: its value and NANIN for a NaN (01 R30). -/
def TView.arith (v : TView) (i j : Nat) : FVal × NFlags :=
  let r := v.val i j
  (r.1, r.2 ||| nanIn [r.1])

/-- The larger of two values that are not NaN, +0 above −0. -/
def fmaxVal (x y : FVal) : FVal := if x.lt y then y else if y.lt x then x else if x.neg? then y else x

/-- The bits of a block of `tquant` into I4E with outlier budget `o` (06 R147): scale, nibbles and flags. -/
def i4eQuant (o : Nat) (vs : List FVal) : Nat × List Nat × NFlags :=
  let n := vs.length
  let ix := (List.range n).filter (fun i => !(vs.getD i .nan).isZero && !(vs.getD i .nan).isNan)
  let mag (i : Nat) : FVal := match vs.getD i .nan with | .fin _ m e => .fin false m e | _ => .inf false
  let cands := (ix.filter (fun i => decide ((ix.filter (fun k => (mag i).lt (mag k) ||
    ((mag i).eqv (mag k) && decide (k < i)))).length < o)))
  let rest := (List.range n).filter (fun i => !cands.contains i)
  let m := (rest.map (fun i => vs.getD i .nan)).foldl maxMag (.fin false 0 0)
  let e : Nat := match m with
    | .fin _ m x => if m = 0 then 127 else
        let k := floorLog2 m x - 2 + 127
        if k < 0 then 0 else if 254 < k then 254 else k.toNat
    | _ => 127
  let sc (v : FVal) : FVal := v.scale (127 - (e : Int))
  let isNan := vs.any FVal.isNan
  let r := (List.range n).foldl (fun (x : List Nat × Nat × NFlags) i =>
    if i < x.2.1 then
      (x.1, x.2.1, if (vs.getD i .nan).isZero then x.2.2 else x.2.2 ||| flSat)
    else if cands.contains i && i + 2 < n then
      let q := e4m3.convert .nearestEven true false (sc (vs.getD i .nan))
      (x.1 ++ [8, q.1 % 16, q.1 / 16], i + 3, x.2.2 ||| q.2)
    else
      let q : Nat × NFlags := match sc (vs.getD i .nan) with
        | .nan => (0, flInv ||| flNanIn)
        | .inf s => (if s then 9 else 7, flSat)
        | .fin s m x =>
          let k : Int := roundQ .nearestEven m x 0
          let v : Int := if s then -k else k
          if v < -7 then (9, flSat) else if 7 < v then (7, flSat) else (ofSigned 4 v, 0)
      (x.1 ++ [q.1], i + 1, x.2.2 ||| q.2)) ([], 0, 0)
  if isNan then (255, vs.map (fun _ => 0), flScaleNan ||| flNanIn) else (e, r.1, r.2.2)

/-- Write one block of a block-scaled tile: the block that holds element (i, j). -/
def TView.putBlock (v : TView) (i j : Nat) (b : Nat × List Nat × NFlags) : TView :=
  let w := (List.range b.2.1.length).foldl (fun (x : TView) q =>
    if v.tile.kdim then x.setCode (i / 32 * 32 + q) j (b.2.1.getD q 0)
    else x.setCode i (j / 32 * 32 + q) (b.2.1.getD q 0)) v
  { w with mem := w.mem.setByte (v.at_ + v.tile.scoff + v.tile.scaleAt i j) (BitVec.ofNat 8 b.1) }

/-- `tquant` (06 R146, R147, 01 R31): block after block along td's KDIM. -/
def tquantRun (d a : TView) (o : Nat) : TView × NFlags :=
  let br := if d.tile.kdim then (d.tile.rows + 31) / 32 else d.tile.rows
  let bc := if d.tile.kdim then d.tile.cols else (d.tile.cols + 31) / 32
  foldElems br bc (fun (x : TView × NFlags) bi bj =>
    let i := if d.tile.kdim then bi * 32 else bi
    let j := if d.tile.kdim then bj else bj * 32
    let n := if d.tile.kdim then min 32 (d.tile.rows - i) else min 32 (d.tile.cols - j)
    let vs := (List.range n).map (fun q => (if d.tile.kdim then a.val (i + q) j else a.val i (j + q)).1)
    let b := if d.tile.fmt.elem == .i4e then i4eQuant o vs else blockEncode d.tile.fmt.elem vs
    (x.1.putBlock i j b, x.2 ||| b.2.2)) (d, 0)

/-- The code of the fill of `tmask.ninf` in a format (06 R146). -/
def ninfCode (e : Elem) : Nat :=
  match e with
  | .fp f => f.signCode true + (match f.spec with | .ieee => f.infCode | _ => f.maxCode)
  | .int w s => ofSigned w (intMin w s)
  | _ => 0

end Sys2Proof.Machine
end

