-- ==== Sys2Proof/Machine/Engine.lean ====
section
/-! DEFINITION. The engine slot: checks at issue, footprints and scoreboard accesses of the architected figures, and
what each does when its job completes (spec 06 R127 to R149, 11 R263 to R265). -/
namespace Sys2Proof.Machine

/-! ### Footprints (11 R263 to R265) -/

/-- The local range that a cluster-aperture range is compared as (11 R265). -/
def clusterLocal (lo hi : Nat) : Nat × Nat :=
  ((lo - 0x1000000) / 512 * 128, (hi - 0x1000000) / 512 * 128 + 127)

/-- Whether two intervals overlap (11 R265). -/
def Interval.overlaps (a b : Interval) : Bool :=
  if a.landing != b.landing then false
  else if !a.landing then a.lo ≤ b.hi && b.lo ≤ a.hi
  else
    let ca := 0x1000000 ≤ a.lo
    let cb := 0x1000000 ≤ b.lo
    let x := if ca && !cb then clusterLocal a.lo a.hi else (a.lo, a.hi)
    let y := if cb && !ca then clusterLocal b.lo b.hi else (b.lo, b.hi)
    x.1 ≤ y.2 && y.1 ≤ x.2

/-- Split an interval at a view's edges: the part inside goes to the backing (14 R308, 09 R230). -/
def splitView (v : View) (x : Nat × Nat × Bool) : List (Nat × Nat × Bool) :=
  let (lo, hi, mapped) := x
  if mapped || hi < v.base || v.base + v.len ≤ lo then [x]
  else
    (if lo < v.base then [(lo, v.base - 1, false)] else []) ++
    [(v.back + (max lo v.base - v.base), v.back + (min hi (v.base + v.len - 1) - v.base), true)] ++
    (if v.base + v.len ≤ hi then [(v.base + v.len, hi, false)] else [])

/-- The intervals declared for a range after view redirection. -/
def Core.declare (c : Core) (task : Option Nat) (landing wr : Bool) (lo hi : Nat) : List Interval :=
  let vs : List View := match task with
    | none => []
    | some t => c.views.filter (fun (v : View) => v.task == t && v.landing == landing)
  (vs.foldl (fun (xs : List (Nat × Nat × Bool)) v => xs.flatMap (splitView v)) [(lo, hi, false)]).map
    (fun (x : Nat × Nat × Bool) => (⟨landing, x.1, x.2.1, wr, 4⟩ : Interval))

/-- Whether R106 holds back a scalar access of a context: a load by a job that writes the range, a store by a job that
reads or writes it. Counters are never compared (11 R265). -/
def Core.footHolds (c : Core) (ctx : Nat) (landing wr : Bool) (lo hi : Nat) : Bool :=
  if landing && hi < 0x1000 then false
  else (c.declare (c.ctx ctx).task landing wr lo hi).any (fun i =>
    c.jobs.any (fun j => j.ctx == ctx && j.foot.any (fun f => f.overlaps i && (f.wr || wr))))

/-! ### Landing as engines reach it -/

/-- The place of one byte of an agent's Landing address, after redirection. -/
def Core.landByteAt (c : Core) (k : Nat) (task : Option Nat) (a : Nat) : Nat × Nat :=
  (landingPlace k (c.redirect task true a)).getD (k, 0x1000)

/-- Read bytes of Landing for a task of core `k`. -/
def State.landBytes (s : State) (k : Nat) (task : Option Nat) (a n : Nat) : List Byte :=
  match n with
  | 0 => []
  | m + 1 =>
    let pl := (s.core k).landByteAt k task a
    (s.core pl.1).landing.byte pl.2 :: State.landBytes s k task (a + 1) m

/-- The first address of a range whose Landing word is uncorrectable. -/
def State.landFirstBad (s : State) (k : Nat) (task : Option Nat) (a n : Nat) : Option Nat :=
  match n with
  | 0 => none
  | m + 1 =>
    let pl := (s.core k).landByteAt k task a
    if (s.core pl.1).badLand.contains (pl.2 / 8) then some a else State.landFirstBad s k task (a + 1) m

/-- The bytes up to the next 8-byte boundary from `a`, and the rest, again and again (`fuel` bounds the pieces). -/
def chunks8 (fuel a : Nat) (bs : List Byte) : List (Nat × List Byte) :=
  match fuel with
  | 0 => []
  | f + 1 =>
    if bs.isEmpty then []
    else
      let n := 8 - a % 8
      (a, bs.take n) :: chunks8 f (a + n) (bs.drop n)

/-- Write bytes of Landing for a task of core `k`; each whole aligned word becomes correct (15 R317). -/
def State.landStore (s : State) (k : Nat) (task : Option Nat) (a : Nat) (bs : List Byte) : State :=
  (chunks8 (bs.length + 1) a bs).foldl (fun (x : State) c =>
    let pl := (x.core k).landByteAt k task c.1
    x.modCore pl.1 (fun co => co.landWrite pl.2 c.2)) s

/-! ### Figures: operand kinds and plans -/

/-- The kinds an architected figure's operand positions may have (06 R131): 0 tile, 1 accumulator, 2 x register,
3 none. -/
def figKinds (fig : Nat) : Option (List (List Nat)) :=
  if fig = 0x00 then some [[0], [2], [2], [2]]
  else if fig = 0x01 then some [[0], [3], [3], [3]]
  else if fig = 0x02 then some [[0], [2], [2], [3]]
  else if fig = 0x03 ∨ fig = 0x04 ∨ fig = 0x05 ∨ fig = 0x06 then some [[0], [2], [2], [2, 3]]
  else if fig = 0x07 then some [[0], [3], [3], [3]]
  else if fig = 0x08 then some [[1], [3], [3], [3]]
  else if fig = 0x09 then some [[1], [2], [2], [3]]
  else if fig = 0x0A then some [[0], [1], [3], [3]]
  else if fig = 0x0B then some [[2], [2], [2], [3]]
  else if 0x10 ≤ fig ∧ fig ≤ 0x1A then some [[1], [0], [0], [3]]
  else if fig = 0x40 ∨ (0x45 ≤ fig ∧ fig ≤ 0x47) ∨ (0x4A ≤ fig ∧ fig ≤ 0x4C) then some [[0], [0], [3], [3]]
  else if fig = 0x41 ∨ fig = 0x42 then some [[0], [0], [0], [3]]
  else if fig = 0x43 ∨ fig = 0x49 then some [[0], [0], [0], [0]]
  else if fig = 0x44 then some [[0], [0], [2], [3]]
  else if fig = 0x48 then some [[0], [0], [2], [2]]
  else none

/-- Whether a number is an architected figure (04 R88). -/
def isArchFigure (fig : Nat) : Bool := (figKinds fig).isSome || fig == 0x0C

/-- The operands of an engine slot, A to D. -/
def eOps (f : EFields) : List EOperand := [f.opa, f.opb, f.opc, f.opd]

/-- The field rules of an operand (06 R131, 02 R46). -/
def eOperandOk (o : EOperand) : Bool :=
  match o.kind.toNat with
  | 0 => o.idx.toNat < 32
  | 1 => o.idx.toNat < 8
  | 2 => true
  | _ => o.idx.toNat == 0 && !o.hold

/-- The partitions of a scope on a core (06 R127). -/
def scopeParts (scope : Nat) : List Nat := if scope < 4 then [scope] else [0, 1, 2, 3]

/-- What issuing a figure does in one partition: its checks in order, its change to the issue-order state, its
scoreboard accesses (accumulator?, index) and its footprint. -/
structure FigPlan where
  checks : List (Option Trap)
  upd    : Ctx → Ctx
  reads  : List (Bool × Nat)
  writes : List (Bool × Nat)
  foot   : List (Bool × Nat × Nat)   -- written?, first and last Landing byte

def tTile : Option Trap := some ⟨.tileState, 0, 0⟩
def tFormat : Option Trap := some ⟨.format, 0, 0⟩
def tIllegal : Option Trap := some trapIllegal

/-- A check: its trap when the condition holds. -/
def chk (bad : Bool) (t : Option Trap) : Option Trap := if bad then t else none

/-- Write a tile of the issue-order state. -/
def Ctx.setTile (c : Ctx) (p t : Nat) (x : Tile) : Ctx := { c with tiles := c.tiles.put (32 * p + t) x }
/-- Mark a tile written. -/
def Ctx.markWritten (c : Ctx) (p t : Nat) : Ctx := c.setTile p t { c.tile p t with written := true }

/-- Reading a tile at issue (06 R135). -/
def chkRead (c : Ctx) (p t : Nat) : Option Trap := chk (!((c.tile p t).reserved && (c.tile p t).written)) tTile
/-- Writing a tile at issue (06 R135). -/
def chkWrite (c : Ctx) (p t : Nat) : Option Trap := chk (!(c.tile p t).reserved) tTile
/-- Naming an accumulator within the grant (06 R126). -/
def chkAcc (c : Ctx) (z : Nat) : Option Trap := chk (c.accMap.length ≤ z) tTile

/-- Whether a range lies in one aperture off the counter window (06 R136). -/
def insideLanding (lo hi : Nat) : Bool := (0x1000 ≤ lo && hi < 0x800000) || (0x1004000 ≤ lo && hi < 0x3000000)

/-- The Landing checks of R136 of rows: range of the 64-bit address, rows in one aperture off the counter window and a
pitch that covers the row; then alignment. -/
def chkRows (a pitch : Word) (off rows len : Nat) (acc : Access) : Option Trap :=
  let lo := a.toNat + off
  chk (2 ^ 32 ≤ a.toNat || pitch.toNat < len || !insideLanding lo (lo + (rows - 1) * pitch.toNat + len - 1)) (some (trapRange a acc 16))
def chkRowsAlign (a pitch : Word) (off : Nat) (acc : Access) : Option Trap :=
  chk (a.toNat % 16 != 0 || pitch.toNat % 16 != 0 || off % 16 != 0) (some (trapAlign a acc 16))

/-- The Landing checks of a scale array: range, then alignment. -/
def chkScales (a : Word) (off len : Nat) (acc : Access) : Option Trap :=
  let lo := a.toNat + off
  chk (2 ^ 32 ≤ a.toNat || !insideLanding lo (lo + len - 1)) (some (trapRange a acc 16))
def chkScalesAlign (a : Word) (acc : Access) : Option Trap := chk (a.toNat % 16 != 0) (some (trapAlign a acc 16))

/-- The offset DIST adds in partition `p` (06 R136). -/
def distOff (dist p rows pitch : Nat) : Nat := if dist = 1 then p * rows * pitch else 0

/-- Whether a format is floating and not block-scaled (06 R145). -/
def Fmt.isFloat (f : Fmt) : Bool := match f.elem with | .fp _ => !f.block | _ => false
/-- Whether a format is not block-scaled and not E8M0. -/
def Fmt.plain (f : Fmt) : Bool := !f.block && f.elem != .e8m0
/-- Whether a format is an integer format. -/
def Fmt.isInt (f : Fmt) : Bool := match f.elem with | .int .. => true | _ => false

/-- The plan of `tld` and its transposing forms, and of `tst` (06 R136, R137). -/
def planMove (fig mod scope : Nat) (c : Ctx) (p td : Nat) (x : List Word) (opd : Nat) : FigPlan :=
  let tl := c.tile p td
  let w := tl.fmt.bits
  let tr := fig == 0x04 || fig == 0x05
  let rows := if tr then tl.cols else tl.rows
  let len := if tr then tl.rows * w / 8 else tl.rowLen
  let acc : Access := if fig == 0x06 then .write else .read
  let dist := mod % 4
  let a := x.getD 1 0
  let pitch := x.getD 2 0
  let off := distOff dist p rows pitch.toNat
  let soff := if dist = 1 then p * tl.scaleLen else 0
  let lo := a.toNat + off
  { checks :=
      [chk (4 ≤ mod || 2 ≤ dist || (dist == 1 && scope < 4) || (fig == 0x06 && 4 ≤ scope && dist != 1)) tIllegal,
       if fig == 0x06 then chkRead c p td else chkWrite c p td,
       chk ((fig == 0x04 && w != 8) || (fig == 0x05 && w != 16)) tFormat,
       chk ((tl.sbl == 1) != (opd == 2)) tIllegal] ++
      -- both ranges come before both alignments (02 R40)
      [chkRows a pitch off rows len acc, if tl.sbl == 1 then chkScales (x.getD 3 0) soff tl.scaleLen acc else none,
       chkRowsAlign a pitch off acc, if tl.sbl == 1 then chkScalesAlign (x.getD 3 0) acc else none],
    upd := fun k => if fig == 0x06 then k else k.markWritten p td,
    reads := if fig == 0x06 then [(false, td)] else [],
    writes := if fig == 0x06 then [] else [(false, td)],
    foot := (fig == 0x06, lo, lo + (rows - 1) * pitch.toNat + len - 1) ::
      (if tl.sbl == 1 then [(fig == 0x06, (x.getD 3 0).toNat + soff, (x.getD 3 0).toNat + soff + tl.scaleLen - 1)] else []) }

/-- The format and shape checks of the tile-transform figures (06 R145 to R147). -/
def ttChecks (fig mod : Nat) (c : Ctx) (p : Nat) (ix : List Nat) : List (Option Trap) :=
  let td := c.tile p (ix.getD 0 0)
  let ta := c.tile p (ix.getD 1 0)
  let tb := c.tile p (ix.getD 2 0)
  let tc := c.tile p (ix.getD 3 0)
  let same (u : Tile) : Bool := u.rows == td.rows && u.cols == td.cols
  let fa := ta.fmt
  let fd := td.fmt
  let satOnly := chk (2 ≤ mod) tIllegal
  match fig with
  | 0x40 => [satOnly, chk (!same ta) tTile, chk (fa.block || !fd.plain) tFormat]
  | 0x41 => [satOnly, chk (!same ta || !same tb) tTile, chk (!fa.isFloat || !tb.fmt.isFloat || !fd.isFloat) tFormat]
  | 0x42 => [satOnly, chk (!same ta || !same tb) tTile, chk (!fa.isFloat || !tb.fmt.isFloat || !fd.isFloat) tFormat]
  | 0x43 => [satOnly, chk (!same ta || !same tb || !same tc) tTile,
      chk (!fa.isFloat || !tb.fmt.isFloat || !tc.fmt.isFloat || !fd.isFloat) tFormat]
  | 0x44 => [satOnly, chk (!same ta) tTile, chk (!fa.isFloat || !fd.isFloat) tFormat]
  | 0x45 => [satOnly, chk (td.rows != ta.rows || td.cols != 1) tTile, chk (!fa.isFloat || !fd.isFloat) tFormat]
  | 0x46 => [satOnly, chk (td.rows != ta.rows || td.cols != 1) tTile, chk (!fa.isFloat || !fd.isFloat) tFormat]
  | 0x47 => [satOnly, chk (!same ta) tTile, chk (!fa.isFloat || !fd.isFloat) tFormat]
  | 0x48 => [chk (2 ≤ mod) tIllegal, chk (!same ta) tTile, chk (fa.code != fd.code || !fa.plain) tFormat]
  | 0x49 => [chk (mod != 0) tIllegal, chk (!same ta || !same tb || !same tc) tTile,
      chk (fa.code != fd.code || tb.fmt.code != fd.code || fd.block || !tc.fmt.plain) tFormat]
  | 0x4A => [chk (16 ≤ mod) tIllegal, chk (!same ta) tTile,
      chk (!(fa.code == 0 || fa.code == 1 || fa.code == 2) || !fd.block) tFormat,
      chk (10 < mod || (fd.elem != .i4e && mod != 0)) tIllegal]
  | 0x4B => [satOnly, chk (!same ta) tTile, chk (!fa.block || !(fd.code == 0 || fd.code == 1 || fd.code == 2)) tFormat]
  | _ => [chk (mod != 0) tIllegal,
      chk (td.rows != ta.cols || td.cols != ta.rows || (ix.getD 0 0 == ix.getD 1 0 && ta.rows != ta.cols)) tTile,
      chk (fa.code != fd.code || fa.block || !(fa.bits == 8 || fa.bits == 16 || fa.bits == 32 || fa.bits == 64)) tFormat]

/-- The plan of an architected figure in partition `p`: `ix` the operand indexes, `kd` their kinds, `x` their values. -/
def figPlan (fig mod scope : Nat) (c : Ctx) (p : Nat) (ix kd : List Nat) (x : List Word) : FigPlan :=
  let d := ix.getD 0 0
  let tl := c.tile p d
  match fig with
  | 0x00 =>
    let n : Tile := ⟨x.getD 1 0, x.getD 2 0, x.getD 3 0, true, false⟩
    { checks := [chk (mod != 0 || n.reservedBad) tIllegal, chk tl.reserved tTile, chk (n.shapeBad || c.placeBad p d n) tTile,
        chk n.formatBad tFormat],
      upd := fun k => k.setTile p d n, reads := [], writes := [(false, d)], foot := [] }
  | 0x01 =>
    { checks := [chk (mod != 0) tIllegal, chkWrite c p d], upd := fun k => k.setTile p d Tile.init, reads := [],
      writes := [(false, d)], foot := [] }
  | 0x02 =>
    let n : Tile := ⟨tl.place, x.getD 1 0, x.getD 2 0, true, tl.written⟩
    { checks := [chk (mod != 0 || n.reservedBad) tIllegal, chkWrite c p d, chk n.shapeBad tTile, chk n.formatBad tFormat],
      upd := fun k => k.setTile p d n, reads := [(false, d)], writes := [(false, d)], foot := [] }
  | 0x07 =>
    { checks := [chk (mod != 0) tIllegal, chkWrite c p d], upd := fun k => k.markWritten p d, reads := [],
      writes := [(false, d)], foot := [] }
  | 0x08 =>
    { checks := [chk (4 ≤ mod || mod == 3) tIllegal, chkAcc c d],
      upd := fun k => { k with accs := k.accs.set 0 (8 * p + d) (mod + 1) }, reads := [], writes := [(true, d)], foot := [] }
  | 0x09 =>
    let a := x.getD 1 0
    let pitch := x.getD 2 0
    let dist := mod / 4 % 4
    let off := distOff dist p 128 pitch.toNat
    { checks := [chk (16 ≤ mod || mod % 4 == 3 || 2 ≤ dist || (dist == 1 && scope < 4)) tIllegal, chkAcc c d,
        chkRows a pitch off 128 1024 .read, chkRowsAlign a pitch off .read],
      upd := fun k => { k with accs := k.accs.set 0 (8 * p + d) (mod % 4 + 1) }, reads := [], writes := [(true, d)],
      foot := [(false, a.toNat + off, a.toNat + off + 127 * pitch.toNat + 1023)] }
  | 0x0A =>
    let z := ix.getD 1 0
    let ty := c.acc p z
    let c0 := mod % 512
    { checks := [chk (1024 ≤ mod) tIllegal, chkWrite c p d, chkAcc c z, chk (ty == 0) tTile,
        chk (128 < tl.rows || accCols ty < c0 + tl.cols) tTile,
        chk (tl.fmt.block || (if ty == 2 then !tl.fmt.isInt else !tl.fmt.isFloat)) tFormat],
      upd := fun k => k.markWritten p d, reads := [(true, z)],
      writes := (false, d) :: (if mod / 512 % 2 = 1 then [(true, z)] else []), foot := [] }
  | 0x03 => planMove fig mod scope c p d x (kd.getD 3 3)
  | 0x04 => planMove fig mod scope c p d x (kd.getD 3 3)
  | 0x05 => planMove fig mod scope c p d x (kd.getD 3 3)
  | 0x06 => planMove fig mod scope c p d x (kd.getD 3 3)
  | _ =>
    match mmaForm fig with
    | some (fas, fbs, ty, chunk) =>
      let ta := c.tile p (ix.getD 1 0)
      let tb := c.tile p (ix.getD 2 0)
      { checks := [chk (2048 ≤ mod) tIllegal, chkRead c p (ix.getD 1 0), chkRead c p (ix.getD 2 0), chkAcc c d,
          chk (c.acc p d != ty) tTile,
          chk (128 < ta.rows || ta.cols != tb.rows || accCols ty < tb.cols ||
            (ta.sbl == 1 && ta.kdim) || (tb.sbl == 1 && !tb.kdim)) tTile,
          chk (!fas.contains ta.fmtCode || !fbs.contains tb.fmtCode) tFormat,
          chk (chunkCount chunk ta.cols < mod) tIllegal],
        upd := fun k => k, reads := [(true, d), (false, ix.getD 1 0), (false, ix.getD 2 0)], writes := [(true, d)], foot := [] }
    | none =>
      let ins := (List.range 4).filter (fun j => j != 0 && kd.getD j 3 == 0)
      let tt := ttChecks fig mod c p ix
      { checks := tt.take 1 ++ ins.map (fun j => chkRead c p (ix.getD j 0)) ++ [chkWrite c p d] ++ tt.drop 1,
        upd := fun k => k.markWritten p d, reads := ins.map (fun j => (false, ix.getD j 0)), writes := [(false, d)],
        foot := [] }

/-- The first trap in check order, each check made for every partition before the next. -/
def firstTrap (cols : List (List (Option Trap))) : Option Trap :=
  let n := cols.foldl (fun a c => max a c.length) 0
  (List.range n).findSome? (fun i => cols.findSome? (fun c => c.getD i none))

/-- Whether a held operand of position `j` takes its value from the latch of partition `p` (02 R46). -/
def Ctx.latched (c : Ctx) (p j : Nat) (o : EOperand) : Bool :=
  o.hold && (match Tab.find c.latches (4 * p + j) with | some l => l.kind == o.kind.toNat && l.idx == o.idx.toNat | none => false)

/-- The value delivered through an operand position (02 R46): an x register's, or the place of a tile or accumulator. -/
def Ctx.operandValue (c : Ctx) (p : Nat) (o : EOperand) : Word :=
  match o.kind.toNat with
  | 0 => (c.tile p o.idx.toNat).place
  | 1 => BitVec.ofNat 64 (c.accMap.getD o.idx.toNat 0)
  | _ => c.getX o.idx.toNat

/-- Load the operand latches of the positions read through a port (02 R46). -/
def Ctx.latchOps (c : Ctx) (parts : List Nat) (f : EFields) : Ctx :=
  let ps := parts.flatMap (fun p => (List.range 4).map (fun j => (p, j)))
  { c with latches := ps.foldl (fun (l : Tab Latch) e =>
      let o := (eOps f).getD e.2 default
      if o.kind.toNat = 3 || c.latched e.1 e.2 o then l
      else l.put (4 * e.1 + e.2) ⟨o.kind.toNat, o.idx.toNat, c.operandValue e.1 o⟩) c.latches }

/-- The operands of a job as captured at issue. -/
def jobOps (f : EFields) (pre : Ctx) : List JOp :=
  (eOps f).map (fun o => match o.kind.toNat with
    | 0 => .tile o.idx.toNat
    | 1 => .acc o.idx.toNat
    | 2 => .x o.idx.toNat (pre.getX o.idx.toNat)
    | _ => .none)

/-- A new job of a core. The scalar Landing stores that its context has issued come before it (05 R106): they are served. -/
def State.addJob (s : State) (k : Nat) (mk : Nat → Job) : State :=
  (s.drainCtx k (mk (s.core k).nextJob).ctx).modCore k (fun c => { c with jobs := c.jobs ++ [mk c.nextJob], nextJob := c.nextJob + 1 })

/-- Whether a context's task is part of a troupe. -/
def State.inTroupe (s : State) (c : Ctx) : Bool :=
  match c.task with | some t => (s.task t).troupe | none => false

/-- Issue an architected figure other than fbind and fig: the checks of its fields, the waits, the checks against the
issue-order state, and the new job (06 R127, R128). -/
def issueArch (fig : Nat) (mod : Nat) (f : EFields) (env : SEnv) (s : State) : SlotRes :=
  let kinds := (eOps f).map (fun o => o.kind.toNat)
  let ixs := (eOps f).map (fun o => o.idx.toNat)
  let parts := scopeParts f.scope.toNat
  let want := (figKinds fig).getD []
  if 6 ≤ f.scope.toNat || !(eOps f).all eOperandOk ||
      !(List.range 4).all (fun j => (want.getD j []).contains (kinds.getD j 4)) ||
      (f.scope.toNat == 5 && !s.inTroupe env.pre) then .trap trapIllegal
  else if (List.range 4).any (fun j => kinds.getD j 3 == 2 && !env.pre.full (ixs.getD j 0)) ||
      64 ≤ ((s.core env.core).jobs.filter (fun j => j.ctx == env.ctx)).length then .hold s
  else
    let xs := (List.range 4).map (fun j => if kinds.getD j 3 = 2 then env.pre.getX (ixs.getD j 0) else 0)
    let plans := parts.map (fun p => figPlan fig mod f.scope.toNat (s.ctx env.core env.ctx) p ixs kinds xs)
    match firstTrap (plans.map (fun q => q.checks)) with
    | some t => .trap t
    | none =>
      let co := s.core env.core
      let c0 := s.ctx env.core env.ctx
      let c1 := plans.foldl (fun c q => q.upd c) c0
      let job (id : Nat) : Job :=
        { id := id, ctx := env.ctx, task := env.pre.task.getD 0, kind := .figure fig mod, parts := parts,
          ops := jobOps f env.pre,
          reads := (parts.zip plans).flatMap (fun e => e.2.reads.map (fun r => (e.1, r.1, r.2))),
          writes := (parts.zip plans).flatMap (fun e => e.2.writes.map (fun r => (e.1, r.1, r.2))),
          tcrs := parts.flatMap (fun p => (List.range 4).filterMap (fun j =>
            if kinds.getD j 3 = 0 then some (p, ixs.getD j 0, (if fig ≤ 0x02 then c1 else c0).tile p (ixs.getD j 0)) else none)),
          atys := if fig = 0x0A then parts.map (fun p => (8 * p + ixs.getD 1 0, c0.acc p (ixs.getD 1 0))) else [],
          foot := plans.flatMap (fun q => q.foot.flatMap (fun e => co.declare env.pre.task true e.1 e.2.1 e.2.2)),
          started := false, readDone := false, err := false, scope := f.scope.toNat, restarts := 0, copied := [], spoiled := [], scratch := 0,
          gangs := [], done := [], xout := [], slotNo := env.slot, pc := env.pre.pc, cmd := env.pre.cmd, parent := none,
          byStrand := 0, rdv := f.scope.toNat == 5, rdvNo := c0.troupe + 1, kstart := 0, killed := false, redo := false }
      let c2 := (plans.zip parts).foldl (fun (c : Ctx) e =>
        e.1.writes.foldl (fun (c : Ctx) r => c.dropLatch (if r.1 then 1 else 0) r.2) c) (c1.latchOps parts f)
      let c3 := if f.scope.toNat = 5 then { c2 with troupe := c2.troupe + 1 } else c2
      .done ((s.setCtx env.core env.ctx c3).addJob env.core job)

/-! ### What a job does when it completes -/

/-- The type of an accumulator of a partition as a job captured it at issue (06 R129, 12 R273). -/
def Job.accTy (j : Job) (p z : Nat) : Nat := match j.atys.find? (fun e => e.1 == 8 * p + z) with | some e => e.2 | none => 1

/-- The control record a job captured. -/
def Job.tcr (j : Job) (p t : Nat) : Tile :=
  match j.tcrs.find? (fun e => e.1 == p && e.2.1 == t) with | some e => e.2.2 | none => Tile.init

/-- The tile in an operand position, as the engine of partition `p` sees it. -/
def State.view (s : State) (k : Nat) (j : Job) (p pos : Nat) : TView :=
  match j.ops.getD pos .none with
  | .tile t => let tl := j.tcr p t; ⟨(s.part k p).obuf, (s.ctx k j.ctx).obufBase + tl.base, tl⟩
  | _ => ⟨[], 0, Tile.init⟩

/-- The physical accumulator in an operand position. -/
def State.physAcc (s : State) (k : Nat) (j : Job) (pos : Nat) : Nat :=
  match j.ops.getD pos .none with | .acc z => (s.ctx k j.ctx).accMap.getD z 0 | _ => 0

/-- The x value in an operand position. -/
def Job.x (j : Job) (pos : Nat) : Word := match j.ops.getD pos .none with | .x _ v => v | _ => 0

/-- Write back the operand buffer of a partition. -/
def State.setObuf (s : State) (k p : Nat) (m : Memory) : State := s.modPart k p (fun x => { x with obuf := m })

/-- The Landing rows that a moving figure reads or writes in partition `p`: (address, bytes) and the scale range. -/
def moveRange (fig mod : Nat) (tl : Tile) (p : Nat) (a pitch sc : Word) : Nat × Nat × Nat × Nat × Nat :=
  let tr := fig == 0x04 || fig == 0x05
  let rows := if fig == 0x09 then 128 else if tr then tl.cols else tl.rows
  let len := if fig == 0x09 then 1024 else if tr then tl.rows * tl.fmt.bits / 8 else tl.rowLen
  let dist := if fig == 0x09 then mod / 4 % 4 else mod % 4
  (a.toNat + distOff dist p rows pitch.toNat, pitch.toNat, rows, len, sc.toNat + (if dist = 1 then p * tl.scaleLen else 0))

/-- The data effect of a figure in one partition, with its flags (06 R136 to R147). -/
def figRun (fig mod : Nat) (s : State) (k : Nat) (j : Job) (p : Nat) : State × NFlags :=
  let d := s.view k j p 0
  let a := s.view k j p 1
  let b := s.view k j p 2
  let c := s.view k j p 3
  let task := (s.ctx k j.ctx).task
  let fin (r : TView × NFlags) : State × NFlags := (s.setObuf k p r.1.mem, r.2)
  let sat := mod % 2 == 1
  let mv := moveRange fig mod d.tile p (j.x 1) (j.x 2) (j.x 3)
  let scales (v : TView) : TView :=
    if v.tile.sbl = 1 then
      { v with mem := v.mem.writeList (v.at_ + v.tile.scoff) (s.landBytes k task mv.2.2.2.2 v.tile.scaleLen) } else v
  match fig with
  | 0x03 =>
    let v := (List.range mv.2.2.1).foldl (fun (v : TView) i =>
      { v with mem := v.mem.writeList (v.at_ + i * v.tile.stride) (s.landBytes k task (mv.1 + i * mv.2.1) mv.2.2.2.1) }) d
    fin (scales v, 0)
  | 0x04 =>
    let v := foldElems d.tile.cols d.tile.rows (fun (v : TView) jj i =>
      v.setCode i jj (numOf (s.landBytes k task (mv.1 + jj * mv.2.1 + i) 1))) d
    fin (scales v, 0)
  | 0x05 =>
    let v := foldElems d.tile.cols d.tile.rows (fun (v : TView) jj i =>
      v.setCode i jj (numOf (s.landBytes k task (mv.1 + jj * mv.2.1 + 2 * i) 2))) d
    fin (scales v, 0)
  | 0x06 =>
    let s1 := (List.range mv.2.2.1).foldl (fun (x : State) i =>
      x.landStore k task (mv.1 + i * mv.2.1) (d.mem.readList (d.at_ + i * d.tile.stride) mv.2.2.2.1)) s
    let s2 := if d.tile.sbl = 1 then
        s1.landStore k task mv.2.2.2.2 (d.mem.readList (d.at_ + d.tile.scoff) d.tile.scaleLen) else s1
    (s2, 0)
  | 0x07 =>
    let v := foldElems d.tile.rows d.tile.cols (fun (v : TView) i jj => v.setCode i jj 0) d
    fin ({ v with mem := (List.range d.tile.scaleLen).foldl (fun m i => m.setByte (d.at_ + d.tile.scoff + i) 0x7F) v.mem }, 0)
  | 0x08 =>
    let z := s.physAcc k j 0
    (s.modPart k p (fun x => { x with
      acc := x.acc.filter (fun e => e.1 / 32768 != z), badAcc := x.badAcc.filter (fun r => r / 128 != z) }), 0)
  | 0x09 =>
    let z := s.physAcc k j 0
    (s.modPart k p (fun x => { x with
      acc := foldElems 128 256 (fun (m : Tab W32) i jj =>
        m.set 0 (z * 32768 + i * 256 + jj) (BitVec.ofNat 32 (numOf (s.landBytes k task (mv.1 + i * mv.2.1 + 4 * jj) 4)))) x.acc,
      badAcc := x.badAcc.filter (fun r => r / 128 != z) }), 0)
  | 0x0A =>
    let z := s.physAcc k j 1
    let ty := j.accTy p (match j.ops.getD 1 .none with | .acc n => n | _ => 0)
    let c0 := mod % 512
    let r := foldElems d.tile.rows d.tile.cols (fun (x : TView × NFlags) i jj =>
      let v := accGet (s.part k p).acc z ty i (c0 + jj)
      if d.tile.fmtCode = accFmt ty then (x.1.setCode i jj v, x.2)
      else
        let e : Elem := ((fmtOf (accFmt ty)).getD default).elem
        let q := d.tile.fmt.elem.encode .towardZero false true (e.decode v)
        (x.1.setCode i jj q.1, x.2 ||| q.2)) (d, 0)
    let s1 := s.setObuf k p r.1.mem
    let s2 := if mod / 512 % 2 = 1 then s1.modPart k p (fun x => { x with
      acc := foldElems d.tile.rows d.tile.cols (fun (m : Tab W32) i jj => accSet m z ty i (c0 + jj) 0) x.acc }) else s1
    (s2, r.2)
  | 0x40 => fin (elementwise d sat (fun i jj => a.arith i jj))
  | 0x41 => fin (elementwise d sat (fun i jj => (a.val i jj).1.add (b.val i jj).1))
  | 0x42 => fin (elementwise d sat (fun i jj => (a.val i jj).1.mul (b.val i jj).1))
  | 0x43 => fin (elementwise d sat (fun i jj => FVal.fma (a.val i jj).1 (b.val i jj).1 (c.val i jj).1))
  | 0x44 =>
    let sc : FVal := if d.tile.fmtCode = 0x0C then fp64.decode (j.x 2).toNat else fp32.decode ((j.x 2).toNat % 2 ^ 32)
    fin (elementwise d sat (fun i jj => (a.val i jj).1.mul sc))
  | 0x45 => fin (elementwise d sat (fun i _ =>
      let vs := (List.range a.tile.cols).map (fun q => (a.val i q).1)
      if vs.any FVal.isNan then (.nan, flNanIn)
      else (match vs with | [] => (.fin false 0 0, 0) | v :: r => (r.foldl fmaxVal v, 0))))
  | 0x46 => fin (elementwise d sat (fun i _ =>
      let vs := (List.range a.tile.cols).map (fun q => (a.val i q).1)
      if vs.any FVal.isNan then (.nan, flNanIn) else chunkSum (vs.map (fun v => (v, 0)))))
  | 0x47 =>
    let f : FFmt := (match d.tile.fmt.elem with | .fp f => f | _ => fp32)
    fin (elementwise d sat (fun i jj => FVal.exp2 f (a.val i jj).1))
  | 0x48 =>
    let lo := (j.x 2).toInt
    let hi := (j.x 3).toInt
    let fill := if mod = 0 then ninfCode d.tile.fmt.elem else 0
    fin (foldElems d.tile.rows d.tile.cols (fun (v : TView) i jj =>
      let q : Int := (jj : Int) - i
      v.setCode i jj (if lo ≤ q ∧ q ≤ hi then a.code i jj else fill)) d, 0)
  | 0x49 => fin (foldElems d.tile.rows d.tile.cols (fun (v : TView) i jj =>
      v.setCode i jj (if (c.val i jj).1.isZero then b.code i jj else a.code i jj)) d, 0)
  | 0x4A => fin (tquantRun d a (mod % 16))
  | 0x4B => fin (elementwise d sat (fun i jj => a.arith i jj))
  | 0x4C => fin (foldElems a.tile.rows a.tile.cols (fun (v : TView) i jj => v.setCode jj i (a.code i jj)) d, 0)
  | _ =>
    match mmaForm fig with
    | some (_, _, _, chunk) =>
      let z := s.physAcc k j 0
      let r := mmaRun fig a b z (max j.kstart (mod % 2048)) (chunkCount chunk a.tile.cols) (s.part k p).acc
      (s.modPart k p (fun x => { x with acc := r.1 }), r.2)
    | none => (s, 0)

end Sys2Proof.Machine
end

