-- ==== Sys2Proof/Machine/Figures.lean ====
section
/-! DEFINITION. Figures: the figure table, routine-bound issue, instances and their restart, and the life of engine
jobs (spec 06 R127 to R151, 12 R270 to R283). -/
namespace Sys2Proof.Machine

/-! ### The figure table (12 R270, R271) -/

/-- The entry of a figure number in an address space: user entries of the space; firmware entries, and the entries of
the retired figures, as Voxvel's firmware bound them (log 11). -/
def State.figEntry (s : State) (asid n : Nat) : Nat :=
  if 0x80 ≤ n then (Tab.get (s.space asid).figures 0 n).toNat
  else if (0x70 ≤ n ∧ n ≤ 0x7F) ∨ n = 0x21 ∨ n = 0x22 then Config.firmwareFigure n % 2 ^ 128
  else 0

/-- The kind of an entry: 0 unbound, 1 hard engine, 2 lane routine, 3 firmware routine. -/
def entryKind (e : Nat) : Nat := natField e 63 62
/-- The role byte of operand position `j`. -/
def entryRole (e j : Nat) : Nat := natField e (71 + 8 * j) (64 + 8 * j)
/-- The register count N of an entry (03 R58). -/
def entryRegs (e : Nat) : Nat := 8 * (natField e 119 116 + 1)
/-- The strands of an entry's gang. -/
def entryGang (e : Nat) : Nat := natField e 123 120 + 1

/-- Whether an entry that fbind would write is malformed (12 R271). -/
def entryBad (e : Nat) : Bool :=
  let roleBad (r : Nat) : Bool := natField r 3 0 != 0 || natField r 5 4 == 3 || (natField r 7 6 == 3 && natField r 5 4 != 0)
  natField e 127 124 != 0 || natField e 103 96 != 0 || natField e 60 54 != 0 ||
  (match entryKind e with
   | 0 => e != 0
   | 1 =>
     let t := natField e 7 0
     !isArchFigure t || t ≤ 0x02 || t == 0x0B || t == 0x0C || natField e 53 20 != 0 || natField e 61 61 != 0 ||
       natField e 123 64 != 0
   | 2 => natField e 119 116 == 0 || (List.range 4).any (fun j => roleBad (entryRole e j)) ||
       2048 < entryGang e * entryRegs e
   | _ => true)

/-! ### The edges of a job (06 R129, 11 R264) -/

/-- A job's place in issue order: a figure issued by a routine stands at its instance (12 R278). -/
def Job.ord (j : Job) : Nat × Nat := (j.parent.getD j.id, j.id)

/-- Whether `a` comes before `b` in issue order, and is not the instance that `b` belongs to. -/
def Job.before (a b : Job) : Bool :=
  a.ctx == b.ctx && b.parent != some a.id && a.id != b.id &&
    (decide (a.ord.1 < b.ord.1) || (a.ord.1 == b.ord.1 && decide (a.ord.2 < b.ord.2)))

/-- Whether an earlier job `a` holds a register in the partitions that `ps` selects for `b`: it writes one that `b` reads or
writes, or reads one that `b` writes (06 R129). -/
def Job.holdsRegs (a b : Job) (ps : Nat → Bool) : Bool :=
  (b.reads.any (fun r => ps r.1 && a.writes.contains r)) || (b.writes.any (fun r => ps r.1 && (a.writes.contains r || (!a.readDone && a.reads.contains r))))

/-- Whether an earlier job `a` holds `b` back in the partitions that `ps` selects: a writer of a register that `b`
reads or writes, a reader of a register that `b` writes, an interval edge of an interval that `b` uses there, or, for two
instances with scratch in one partition, issue order (12 R274). Bytes that a `trel` still waiting for its readers has freed
in issue order may be written through the register of a later `tres` before those readers have read: the edges of 06 R129
name registers, not bytes (log 96). -/
def Job.holds (a b : Job) (ps : Nat → Bool) : Bool :=
  a.holdsRegs b ps ||
  b.foot.any (fun f => (f.part == 4 || ps f.part) && a.foot.any (fun g => g.overlaps f && (g.wr || f.wr))) ||
  (a.scratch != 0 && b.scratch != 0 && b.parts.any (fun p => ps p && a.parts.contains p))

/-- Whether every wait of a job in the selected partitions has ended. -/
def Core.jobFree (c : Core) (j : Job) (ps : Nat → Bool) : Bool :=
  !j.rdv && !j.err && !j.killed && c.jobs.all (fun a => !(a.before j && a.holds j ps))

/-- A job of a core by its number. -/
def Core.job (c : Core) (id : Nat) : Option Job := c.jobs.find? (fun j => j.id == id)
/-- Replace a job. -/
def State.modJob (s : State) (k id : Nat) (f : Job → Job) : State :=
  s.modCore k (fun c => { c with jobs := c.jobs.map (fun j => if j.id == id then f j else j) })
/-- Remove a job. -/
def State.dropJob (s : State) (k id : Nat) : State :=
  s.modCore k (fun c => { c with jobs := c.jobs.filter (fun j => j.id != id) })

/-! ### Routine-bound issue (12 R273 to R275) -/

/-- The bytes of the restart copy in a partition: the in-out tiles' sizes and the in-out accumulators (12 R274). -/
def copyBytes (e : Nat) (c : Ctx) (p : Nat) (ixs : List Nat) : Nat :=
  (List.range 4).foldl (fun n j =>
    let r := entryRole e j
    if natField r 5 4 = 2 then
      (if natField r 7 6 = 0 then n + (c.tile p (ixs.getD j 0)).size else if natField r 7 6 = 1 then n + 131072 else n)
    else n) 0

/-- U: the scratch and the restart copy of an instance, a multiple of 128 (12 R274). -/
def instBytes (e : Nat) (c : Ctx) (parts ixs : List Nat) : Nat :=
  let rc := parts.foldl (fun m p => max m (copyBytes e c p ixs)) 0
  (natField e 115 104 * 128 + rc + 127) / 128 * 128

/-- Issue a figure whose entry is a routine (12 R273, R275). -/
def issueRoutine (n e : Nat) (f : EFields) (env : SEnv) (s : State) : SlotRes :=
  let kinds := (eOps f).map (fun o => o.kind.toNat)
  let ixs := (eOps f).map (fun o => o.idx.toNat)
  let parts := scopeParts f.scope.toNat
  let role (j : Nat) : Nat := entryRole e j
  let use (j : Nat) : Nat := natField (role j) 5 4
  let js := List.range 4
  let co := s.core env.core
  let c0 := s.ctx env.core env.ctx
  if 6 ≤ f.scope.toNat || !(eOps f).all eOperandOk || !js.all (fun j => kinds.getD j 3 == natField (role j) 7 6) ||
      f.mod.toNat != 0 || (f.scope.toNat == 5 && !s.inTroupe env.pre) then .trap trapIllegal
  else if js.any (fun j => kinds.getD j 3 == 2 && !env.pre.full (ixs.getD j 0)) ||
      64 ≤ (co.jobs.filter (fun j => j.ctx == env.ctx)).length then .hold s
  else
    let stateBad := parts.any (fun p => js.any (fun j =>
      let ix := ixs.getD j 0
      match kinds.getD j 3 with
      | 0 => if use j == 1 then !(c0.tile p ix).reserved else !((c0.tile p ix).reserved && (c0.tile p ix).written)
      | 1 => decide (c0.accMap.length ≤ ix) || c0.acc p ix == 0
      | _ => false))
    let u := instBytes e c0 parts ixs
    let tk := s.task (env.pre.task.getD 0)
    if stateBad then .trap ⟨.tileState, 0, 0⟩
    else if parts.any (fun p => decide (tk.gsize < (p + 1) * u)) then
      .trap (trapRange (BitVec.ofNat 64 tk.gbase) .write 1)
    else
      let acc (b : Bool) (j : Nat) : List (Nat × Bool × Nat) :=
        if b && (kinds.getD j 3 == 0 || kinds.getD j 3 == 1) then parts.map (fun p => (p, kinds.getD j 3 == 1, ixs.getD j 0)) else []
      let xouts := js.filter (fun j => kinds.getD j 3 == 2 && use j != 0)
      let job (id : Nat) : Job :=
        { id := id, ctx := env.ctx, task := env.pre.task.getD 0, kind := .routine n e, parts := parts,
          ops := jobOps f env.pre, reads := js.flatMap (fun j => acc (use j != 1) j),
          writes := js.flatMap (fun j => acc (use j != 0) j),
          tcrs := parts.flatMap (fun p => js.filterMap (fun j =>
            if kinds.getD j 3 = 0 then some (p, ixs.getD j 0, c0.tile p (ixs.getD j 0)) else none)),
          atys := parts.flatMap (fun p => js.filterMap (fun j =>
            if kinds.getD j 3 = 1 then some (8 * p + ixs.getD j 0, c0.acc p (ixs.getD j 0)) else none)),
          foot := if u = 0 then [] else parts.flatMap (fun p =>
            (co.declare env.pre.task true true (tk.gbase + p * u) (tk.gbase + (p + 1) * u - 1)).map (fun i => { i with part := p })),
          started := false, readDone := false, err := false, scope := f.scope.toNat, restarts := 0, copied := [],
          spoiled := [], scratch := u, gangs := [], done := [], xout := [], slotNo := env.slot, pc := env.pre.pc,
          cmd := env.pre.cmd, parent := none, byStrand := 0, rdv := f.scope.toNat == 5, rdvNo := c0.troupe + 1, kstart := 0, killed := false, redo := false }
      let c1 := js.foldl (fun (c : Ctx) j =>
        let ix := ixs.getD j 0
        if kinds.getD j 3 = 0 ∧ use j ≠ 0 then parts.foldl (fun (c : Ctx) p => c.markWritten p ix) (c.dropLatch 0 ix)
        else if kinds.getD j 3 = 1 ∧ use j ≠ 0 then c.dropLatch 1 ix else c) (c0.latchOps parts f)
      let c2 := xouts.foldl (fun (c : Ctx) j =>
        let ix := ixs.getD j 0
        { (c.markEmpty ix).dropLatch 2 ix with results := c.results ++
            [⟨ix, c.ev.inh && 56 ≤ ix, BitVec.ofNat 64 j, none, none, some co.nextJob, [], 0, env.pre.pc, env.slot, env.pre.cmd⟩] }) c1
      let c3 := if f.scope.toNat = 5 then { c2 with troupe := c2.troupe + 1 } else c2
      .done ((s.setCtx env.core env.ctx c3).addJob env.core job)

/-- Issue the figure of a number through its entry (04 R88, 12 R272). -/
def issueBound (n : Nat) (f : EFields) (env : SEnv) (s : State) : SlotRes :=
  let e := s.figEntry env.pre.asid n
  match entryKind e with
  | 1 =>
    if n < 0x80 then .trap ⟨.unboundFigure, 0, 0⟩
    else if f.mod.toNat ≠ 0 then .trap trapIllegal
    else issueArch (natField e 7 0) (natField e 19 8) f env s
  | 2 => if n < 0x80 then .trap ⟨.unboundFigure, 0, 0⟩ else issueRoutine n e f env s
  | 3 => issueRoutine n e f env s
  | _ => .trap ⟨.unboundFigure, 0, 0⟩

/-- fbind (06 R148, 04 R89): the checks, then the context waits until every core has the new entry. -/
def issueFbind (f : EFields) (env : SEnv) (s : State) : SlotRes :=
  let kinds := (eOps f).map (fun o => o.kind.toNat)
  let ixs := (eOps f).map (fun o => o.idx.toNat)
  let x (j : Nat) : Word := env.pre.getX (ixs.getD j 0)
  if !(eOps f).all eOperandOk || kinds != [2, 2, 2, 3] || f.scope.toNat != 4 || f.mod.toNat != 0 then .trap trapIllegal
  else if (List.range 3).any (fun j => !env.pre.full (ixs.getD j 0)) then .hold s
  else if 256 ≤ (x 0).toNat then .trap trapIllegal
  else if entryBad ((x 1).toNat + 2 ^ 64 * (x 2).toNat) then .trap trapIllegal
  else if (x 0).toNat < 0x80 then .trap ⟨.priv, 0, 0⟩
  else
    let job (id : Nat) : Job :=
      { id := id, ctx := env.ctx, task := env.pre.task.getD 0, kind := .figure 0x0B 0, parts := [], ops := jobOps f env.pre,
        reads := [], writes := [], tcrs := [], atys := [], foot := [], started := true, readDone := true, err := false,
        scope := 4, restarts := 0, copied := [], spoiled := [], scratch := 0, gangs := [], done := [], xout := [],
        slotNo := env.slot, pc := env.pre.pc, cmd := env.pre.cmd, parent := none, byStrand := 0, rdv := false, rdvNo := 0,
        kstart := 0, killed := false, redo := false }
    .done (((s.modCtx env.core env.ctx (fun c => { (c.latchOps [0, 1, 2, 3] f) with wait := .fbind })).addJob env.core job).modCore
      env.core (fun c => { c with fbinds := c.fbinds.put env.ctx s.cycle }))

/-- The outcome of a figure number (04 R88): architected figures but fig itself, retired, reserved and bound ones. An
unbound or retired number raises UNBOUND_FIGURE or RETIRED_OP even beside a reserved scope or a bad operand field: the order
of the classes of 02 R40's order 1 is the model's choice (DESIGN CHOICE, log 97). -/
def issueNumber (n mod : Nat) (f : EFields) (env : SEnv) (s : State) : SlotRes :=
  if n = 0x0B then issueFbind { f with mod := BitVec.ofNat 12 mod } env s
  else if (figKinds n).isSome then issueArch n mod f env s
  else if n = 0x21 ∨ n = 0x22 then .trap ⟨.retiredOp, 0, 0⟩
  else if n = 0x0C then .trap trapIllegal
  else issueBound n { f with mod := BitVec.ofNat 12 mod } env s

/-- fig (06 R149, 04 R88): the figure whose number an x register holds, with modifiers zero. -/
def issueFig (f : EFields) (env : SEnv) (s : State) : SlotRes :=
  let r := f.mod.toNat % 64
  if 64 ≤ f.mod.toNat then .trap trapIllegal
  else if !env.pre.full r then .hold s
  else
    let n := (env.pre.getX r).toNat
    if 256 ≤ n ∨ n = 0x0C then .trap trapIllegal else issueNumber n 0 f env s

/-! ### Instances (12 R275 to R282) -/

/-- The task of a gang's job. -/
def Core.jobTask (c : Core) (id : Nat) : Option Nat := (c.job id).map (fun j => j.task)

/-- The strand slots that a task's gangs hold in a partition. -/
def Core.slotsOf (c : Core) (p t : Nat) : Nat :=
  ((c.part p).strands.filter (fun e => c.jobTask e.2.gang == some t)).length

/-- The strand slots free for a task's gangs in a partition: its free reserved slots and the shared pool (14 R301). -/
def Core.slotsFor (c : Core) (p t : Nat) : Nat :=
  let rs := (c.part p).reserved
  let mine := (rs.filter (fun r => r.1 == t)).foldl (fun a r => a + r.2) 0
  let all := rs.foldl (fun a r => a + r.2) 0
  let tasks := ((c.part p).strands.map (fun e => (c.jobTask e.2.gang).getD 0)).eraseDups
  let shared := tasks.foldl (fun a u =>
    a + (c.slotsOf p u - (rs.filter (fun r => r.1 == u)).foldl (fun b r => b + r.2) 0)) 0
  (mine - c.slotsOf p t) + (32 - all - shared)

/-- Register space in use in a partition (03 R59). -/
def Part.regsUsed (x : Part) : Nat := x.strands.foldl (fun a e => a + e.2.nregs) 0

/-- The free slots of a partition, lowest first. -/
def Part.freeSlots (x : Part) : List Nat := (List.range 32).filter (fun i => (Tab.find x.strands i).isNone)

/-- The bytes of an in-out operand of position `pos` in partition `p`, as the restart copy holds them. -/
def State.operandBytes (s : State) (k : Nat) (j : Job) (p pos : Nat) : List Byte :=
  match j.ops.getD pos .none with
  | .tile t => let tl := j.tcr p t; (s.part k p).obuf.readList ((s.ctx k j.ctx).obufBase + tl.base) tl.size
  | .acc z =>
    let ph := (s.ctx k j.ctx).accMap.getD z 0
    (List.range 32768).flatMap (fun i => bytesOf 4 (Tab.get (s.part k p).acc 0 (ph * 32768 + i)).toNat)
  | _ => []

/-- Write the bytes of an in-out operand back. -/
def State.setOperand (s : State) (k : Nat) (j : Job) (p pos : Nat) (bs : List Byte) : State :=
  match j.ops.getD pos .none with
  | .tile t =>
    let tl := j.tcr p t
    s.modPart k p (fun x => { x with obuf := x.obuf.writeList ((s.ctx k j.ctx).obufBase + tl.base) bs })
  | .acc z =>
    let ph := (s.ctx k j.ctx).accMap.getD z 0
    s.modPart k p (fun x => { x with acc := (List.range 32768).foldl (fun (m : Tab W32) i =>
      m.set 0 (ph * 32768 + i) (BitVec.ofNat 32 (numOf ((bs.drop (4 * i)).take 4)))) x.acc })
  | _ => s

/-- The in-out positions of an instance and the offset of each in its restart copy. -/
def Job.copyPlan (j : Job) (e p : Nat) : List (Nat × Nat × Nat) :=
  ((List.range 4).foldl (fun (x : List (Nat × Nat × Nat) × Nat) pos =>
    if natField (entryRole e pos) 5 4 = 2 then
      match j.ops.getD pos .none with
      | .tile t => let n := (j.tcr p t).size; (x.1 ++ [(pos, x.2, n)], x.2 + n)
      | .acc _ => (x.1 ++ [(pos, x.2, 131072)], x.2 + 131072)
      | _ => x
    else x) ([], 0)).1

/-- The local Landing address of the restart copy of an instance in partition `p` (12 R274). -/
def State.copyBase (s : State) (j : Job) (e p : Nat) : Nat :=
  (s.task j.task).gbase + p * j.scratch + natField e 115 104 * 128

/-- Take the restart copy of a partition (12 R275). -/
def State.takeCopy (s : State) (k : Nat) (j : Job) (e p : Nat) : State :=
  (j.copyPlan e p).foldl (fun (x : State) q =>
    x.landStore k (some j.task) (s.copyBase j e p + q.2.1) (s.operandBytes k j p q.1)) s

/-- Free bytes, for a restart copy that a lane store has overwritten (12 R276, log 16). -/
def freeBytes (s : State) (n : Nat) : List Byte := (List.range n).map (fun i => (Config.freeWord s.fresh i).setWidth 8)

/-- Write the in-out operands of a partition back from the restart copy (12 R280). -/
def State.backCopy (s : State) (k : Nat) (j : Job) (e p : Nat) : State :=
  let s1 := (j.copyPlan e p).foldl (fun (x : State) q =>
    x.setOperand k j p q.1 (if j.spoiled.contains p then freeBytes s q.2.2
      else s.landBytes k (some j.task) (s.copyBase j e p + q.2.1) q.2.2)) s
  if j.spoiled.contains p then { s1 with fresh := s1.fresh + 1 } else s1

/-- The uniform registers a new strand starts with (12 R276). -/
def startUniform (s : State) (j : Job) (n e p : Nat) : Tab Word :=
  let s0 := (List.range 4).foldl (fun (t : Tab Word) pos =>
    if natField (entryRole e pos) 5 4 = 1 then t else t.set 0 pos (j.x pos)) []
  ((s0.set 0 4 (BitVec.ofNat 64 ((s.task j.task).gbase + p * j.scratch))).set 0 5
      (BitVec.ofNat 64 (natField e 115 104 * 128))).set 0 6
    (BitVec.ofNat 64 (min j.restarts 63 * 2 ^ 14 + j.scope * 2 ^ 10 + p * 2 ^ 8 + n))

/-- A new strand at gang start (03 R60). -/
def newStrand (s : State) (j : Job) (n e p i : Nat) : Strand :=
  { Strand.init with
    gang := j.id, index := i, nregs := entryRegs e,
    lanes := (List.range 32).map (fun l => (l, { Lane.init with pc := BitVec.ofNat 64 (natField e 53 0) })),
    s := startUniform s j n e p, entered := s.cycle + 1, readyAt := s.cycle + 1 }

/-- Whether an instance may start its gang in a partition (12 R275). -/
def Core.mayStart (c : Core) (j : Job) (p : Nat) : Bool :=
  match j.kind with
  | .routine _ e =>
    j.parts.contains p && (c.part p).hold == 0 && !(j.gangs.any (fun g => g.1 == p)) && c.jobFree j (fun q => q == p) &&
      decide (entryGang e ≤ c.slotsFor p j.task) && decide (entryGang e ≤ (c.part p).freeSlots.length) &&
      decide ((c.part p).regsUsed + entryGang e * entryRegs e ≤ 2048)
  | _ => false

/-- The gang of an instance becomes resident in a partition (12 R275, R276, 03 R60): its strands take the lowest free slots,
strand i the i-th lowest, which the spec leaves open (log 95). -/
def State.startGang (s : State) (k : Nat) (j : Job) (n e p : Nat) : State :=
  let slots := (s.part k p).freeSlots.take (entryGang e)
  let s1 := if j.copied.contains p then s else s.takeCopy k j e p
  let s2 := s1.modPart k p (fun x => { x with
    strands := (slots.zip (List.range slots.length)).foldl (fun (t : Tab Strand) q => t.put q.1 (newStrand s j n e p q.2)) x.strands })
  s2.modJob k j.id (fun x => { x with
    started := true, gangs := x.gangs ++ [(p, slots)], copied := p :: x.copied.filter (· != p)
    redo := x.redo && !x.parts.all (fun q => q == p || x.gangs.any (fun g => g.1 == q)) })

/-- Remove every gang of an instance, its barriers and the figures it issued (12 R280). -/
def State.removeGangs (s : State) (k id : Nat) : State :=
  (s.drainJob k (fun g => g == id)).modCore k (fun c =>
    { c.dropGangs (fun g => g == id) with jobs := c.jobs.filter (fun j => j.parent != some id) })

/-- Restart an instance whole, in every partition of its issue on the core (12 R280). -/
def State.restartInst (s : State) (k id : Nat) : State :=
  match (s.core k).job id with
  | none => s
  | some j =>
    match j.kind with
    | .routine _ e =>
      let s1 := s.removeGangs k id
      let s2 := (j.gangs.map Prod.fst).foldl (fun (x : State) p => x.backCopy k j e p) s1
      s2.modJob k id (fun x => { x with
        started := false, err := false, gangs := [], done := [], xout := [], restarts := min 63 (x.restarts + 1) })
    | _ => s.modJob k id (fun x => { x with started := false, err := false })

/-- TAKING A TRAP OF A GANG (12 R279, 03 R81): every gang of the issue on the core stops, and the issuing context stops
with a record whose engine is the gang of the partition and whose status is that of R279. One stop of an instance
makes one record. -/
def State.gangTrap (s : State) (k id p strandIx lane : Nat) (pc : Word) (cls : TrapClass) (addr : Word) (det : Nat) : State :=
  match (s.core k).job id with
  | none => s
  | some j =>
    if j.err then s
    else
      let fe : Nat × Nat := match j.kind with | .routine n e => (n, e) | _ => (0, 0)
      let off := (pc.toNat + 2 ^ 64 - natField fe.2 53 0) % 2 ^ 64 / 4
      let pcoff := if off < 2 ^ 21 - 1 then off else 2 ^ 21 - 1
      let status := fe.1 * 2 ^ 56 + strandIx * 2 ^ 52 + lane * 2 ^ 47 + natField fe.2 61 61 * 2 ^ 46 + min j.restarts 63 * 2 ^ 40 +
        p * 2 ^ 38 + pcoff * 2 ^ 17 + det % 2 ^ 17
      let s1 := (s.modJob k id (fun x => { x with err := true })).modCore k (fun c => { c with
        parts := c.parts.map (fun e => (e.1, { e.2 with
          strands := e.2.strands.map (fun st => if st.2.gang == id then (st.1, { st.2 with stopped := true }) else st) })) })
      s1.takeTrap k j.ctx ⟨4, p, j.slotNo, j.pc, j.cmd, some id⟩ cls addr (BitVec.ofNat 64 status)

/-! ### Uncorrectable data in engine operations (06 R143) -/

/-- The engine that finds a later trap of a figure (16 R440). -/
def figEngine (fig : Nat) : Nat :=
  if fig = 0x08 ∨ fig = 0x0A ∨ (0x10 ≤ fig ∧ fig ≤ 0x1A) then 1
  else if (0x40 ≤ fig ∧ fig ≤ 0x4C) ∨ fig = 0x07 then 2 else 7

/-- An error found by a figure in a partition: chunk, CAUSE, OPND, the address, and whether a replay is possible. -/
structure EngErr where
  chunk   : Nat
  cause   : Nat
  opnd    : Nat
  addr    : Nat
  restart : Bool
deriving DecidableEq, Repr, Inhabited

/-- Whether a byte range of the operand buffer holds uncorrectable bytes. -/
def Part.obufBad (x : Part) (a n : Nat) : Bool := x.badObuf.any (fun b => a ≤ b && b < a + n)

/-- Whether columns `lo` to `hi` − 1 of row `i` of a tile are uncorrectable. -/
def Part.rowBad (x : Part) (v : TView) (i lo hi : Nat) : Bool :=
  let w := v.tile.fmt.bits
  x.obufBad (v.at_ + i * v.tile.stride + lo * w / 8) ((hi * w + 7) / 8 - lo * w / 8)

/-- Whether a tile's elements, or its scales, are uncorrectable. -/
def Part.tileBad (x : Part) (v : TView) (opnd : Nat) : Option EngErr :=
  if (List.range v.tile.rows).any (fun i => x.rowBad v i 0 v.tile.cols) then some ⟨0, 1, opnd, 0, true⟩
  else if x.obufBad (v.at_ + v.tile.scoff) v.tile.scaleLen then some ⟨0, 1, 3, 0, true⟩ else none

/-- Whether a scale byte of rows `i0` to `i1` − 1 and columns `c0` to `c1` − 1 of a tile is uncorrectable. -/
def Part.scaleBad (x : Part) (v : TView) (i0 i1 c0 c1 : Nat) : Bool :=
  v.tile.fmt.block && x.badObuf.any (fun b =>
    (List.range (i1 - i0)).any (fun i => (List.range (c1 - c0)).any (fun c => b == v.at_ + v.tile.scoff + v.tile.scaleAt (i0 + i) (c0 + c))))

/-- The first error of an `mma` in a partition, from chunk `c0` on; an accumulator error counts first. A scale byte is
read with the chunk whose elements it scales. -/
def mmaErr (x : Part) (a b : TView) (z chunk c0 : Nat) : Option EngErr :=
  if (List.range a.tile.rows).any (fun i => x.badAcc.contains (z * 128 + i)) then some ⟨c0, 2, 0, 0, false⟩
  else (List.range (chunkCount chunk a.tile.cols - c0)).findSome? (fun q =>
    let lo := (c0 + q) * chunk
    let hi := if chunk = 0 then a.tile.cols else min a.tile.cols (lo + chunk)
    if (List.range a.tile.rows).any (fun i => x.rowBad a i lo hi) then some ⟨c0 + q, 1, 1, 0, true⟩
    else if (List.range (hi - lo)).any (fun i => x.rowBad b (lo + i) 0 b.tile.cols) then some ⟨c0 + q, 1, 2, 0, true⟩
    else if x.scaleBad a 0 a.tile.rows lo hi || x.scaleBad b lo hi 0 b.tile.cols then some ⟨c0 + q, 1, 3, 0, true⟩
    else none)

/-- The error a figure's job meets in a partition. OPND of a third tile input (tc of `tfma` and `tsel`) is `0b10`, and
RESTART of a `zdrain` that meets uncorrectable accumulator data is 1: 06 R143 names neither (DESIGN CHOICE, log 99). -/
def State.figErr (s : State) (k : Nat) (j : Job) (fig mod p : Nat) : Option EngErr :=
  let x := s.part k p
  let d := s.view k j p 0
  let task := (s.ctx k j.ctx).task
  let mv := moveRange fig mod d.tile p (j.x 1) (j.x 2) (j.x 3)
  let fromLanding : Option EngErr :=
    match (List.range mv.2.2.1).findSome? (fun i => s.landFirstBad k task (mv.1 + i * mv.2.1) mv.2.2.2.1) with
    | some a => some ⟨0, 3, 1, a, true⟩
    | none =>
      if fig ≠ 0x09 ∧ d.tile.sbl = 1 then
        (match s.landFirstBad k task mv.2.2.2.2 d.tile.scaleLen with | some a => some ⟨0, 3, 3, a, true⟩ | none => none)
      else none
  match fig with
  | 0x03 => fromLanding
  | 0x04 => fromLanding
  | 0x05 => fromLanding
  | 0x09 => fromLanding
  | 0x06 => x.tileBad d 1
  | 0x0A =>
    let z := s.physAcc k j 1
    if (List.range d.tile.rows).any (fun i => x.badAcc.contains (z * 128 + i)) then some ⟨0, 2, 0, 0, true⟩ else none
  | _ =>
    match mmaForm fig with
    | some (_, _, _, chunk) => mmaErr x (s.view k j p 1) (s.view k j p 2) (s.physAcc k j 0) chunk (max j.kstart (mod % 2048))
    | none =>
      if 0x40 ≤ fig then
        [1, 2, 3].findSome? (fun pos => match j.ops.getD pos .none with
          | .tile _ => x.tileBad (s.view k j p pos) (if pos = 1 then 1 else 2)
          | _ => none)
      else none

/-- The earliest error of a figure's job over its partitions: an accumulator error first at one boundary, then the
lowest partition (06 R143). Where both kinds lie in different partitions, EIDX names the lowest with the accumulator error
that the status word reports: the rule names only the lowest that found an error (DESIGN CHOICE, log 99). -/
def State.jobErr (s : State) (k : Nat) (j : Job) (fig mod : Nat) : Option (Nat × EngErr × Nat) :=
  let errs := j.parts.filterMap (fun p => (s.figErr k j fig mod p).map (fun e => (p, e)))
  match errs with
  | [] => none
  | e0 :: _ =>
    let c := errs.foldl (fun m e => min m e.2.chunk) e0.2.chunk
    let at_ := errs.filter (fun e => e.2.chunk == c)
    let pf := at_.foldl (fun a e => a + 2 ^ e.1) 0
    match at_.find? (fun e => e.2.cause == 2), at_ with
    | some e, _ => some (e.1, e.2, pf)
    | none, e :: _ => some (e.1, e.2, pf)
    | none, [] => none

/-- The accumulator index of a job, for the ACC field. -/
def Job.accIndex (j : Job) : Nat := match j.ops.find? (fun o => match o with | .acc _ => true | _ => false) with
  | some (.acc z) => z | _ => 0

/-- OR flags into the NUMFLAGS of a context (01 R21). -/
def State.orFlags (s : State) (k c : Nat) (fl : NFlags) : State :=
  s.modCtx k c (fun x => { x with numflags := x.numflags ||| fl })

/-- The bytes of a tile that a figure has written whole are correct afterwards (log 24). -/
def State.cleanTile (s : State) (k : Nat) (j : Job) (fig p : Nat) : State :=
  match j.ops.getD 0 .none with
  | .tile _ =>
    if fig = 0x06 then s
    else
      let v := s.view k j p 0
      s.modPart k p (fun x => { x with badObuf := x.badObuf.filter (fun b => !(v.at_ ≤ b && b < v.at_ + v.tile.size)) })
  | _ => s

/-- Run a figure's job in every partition of its scope, with its flags. -/
def State.runJob (s : State) (k : Nat) (j : Job) (fig mod : Nat) : State × NFlags :=
  j.parts.foldl (fun (x : State × NFlags) p =>
    let r := figRun fig mod x.1 k j p
    (r.1.cleanTile k j fig p, x.2 ||| r.2)) (s, 0)

end Sys2Proof.Machine
end

