-- ==== Sys2Proof/Machine/EngineOps.lean ====
section
/-! DEFINITION. The operations of the engine slot, and the happenings of engine jobs (spec 06 R127 to R151, 12 R272, R273,
R277). -/
namespace Sys2Proof.Machine

/-- tres (06 R134) -/
def slotTres (f : EFields) (env : SEnv) (s : State) : SlotRes := issueArch 0x00 f.mod.toNat f env s
/-- tres, issued alone. -/
def execTres (f : EFields) (s : State) : Out := issueOne 2 (slotTres f) s

/-- trel (06 R134) -/
def slotTrel (f : EFields) (env : SEnv) (s : State) : SlotRes := issueArch 0x01 f.mod.toNat f env s
/-- trel, issued alone. -/
def execTrel (f : EFields) (s : State) : Out := issueOne 2 (slotTrel f) s

/-- tcfg (06 R134) -/
def slotTcfg (f : EFields) (env : SEnv) (s : State) : SlotRes := issueArch 0x02 f.mod.toNat f env s
/-- tcfg, issued alone. -/
def execTcfg (f : EFields) (s : State) : Out := issueOne 2 (slotTcfg f) s

/-- tld (06 R136) -/
def slotTld (f : EFields) (env : SEnv) (s : State) : SlotRes := issueArch 0x03 f.mod.toNat f env s
/-- tld, issued alone. -/
def execTld (f : EFields) (s : State) : Out := issueOne 2 (slotTld f) s

/-- tld.x8 (06 R136) -/
def slotTldX8 (f : EFields) (env : SEnv) (s : State) : SlotRes := issueArch 0x04 f.mod.toNat f env s
/-- tld.x8, issued alone. -/
def execTldX8 (f : EFields) (s : State) : Out := issueOne 2 (slotTldX8 f) s

/-- tld.x16 (06 R136) -/
def slotTldX16 (f : EFields) (env : SEnv) (s : State) : SlotRes := issueArch 0x05 f.mod.toNat f env s
/-- tld.x16, issued alone. -/
def execTldX16 (f : EFields) (s : State) : Out := issueOne 2 (slotTldX16 f) s

/-- tst (06 R137) -/
def slotTst (f : EFields) (env : SEnv) (s : State) : SlotRes := issueArch 0x06 f.mod.toNat f env s
/-- tst, issued alone. -/
def execTst (f : EFields) (s : State) : Out := issueOne 2 (slotTst f) s

/-- tzero (06 R138) -/
def slotTzero (f : EFields) (env : SEnv) (s : State) : SlotRes := issueArch 0x07 f.mod.toNat f env s
/-- tzero, issued alone. -/
def execTzero (f : EFields) (s : State) : Out := issueOne 2 (slotTzero f) s

/-- zclr (06 R139) -/
def slotZclr (f : EFields) (env : SEnv) (s : State) : SlotRes := issueArch 0x08 f.mod.toNat f env s
/-- zclr, issued alone. -/
def execZclr (f : EFields) (s : State) : Out := issueOne 2 (slotZclr f) s

/-- zld (06 R139) -/
def slotZld (f : EFields) (env : SEnv) (s : State) : SlotRes := issueArch 0x09 f.mod.toNat f env s
/-- zld, issued alone. -/
def execZld (f : EFields) (s : State) : Out := issueOne 2 (slotZld f) s

/-- zdrain (06 R140) -/
def slotZdrain (f : EFields) (env : SEnv) (s : State) : SlotRes := issueArch 0x0A f.mod.toNat f env s
/-- zdrain, issued alone. -/
def execZdrain (f : EFields) (s : State) : Out := issueOne 2 (slotZdrain f) s

/-- fbind (06 R148) -/
def slotFbind (f : EFields) (env : SEnv) (s : State) : SlotRes := issueFbind f env s
/-- fbind, issued alone. -/
def execFbind (f : EFields) (s : State) : Out := issueOne 2 (slotFbind f) s

/-- fig (06 R149) -/
def slotFig (f : EFields) (env : SEnv) (s : State) : SlotRes := issueFig f env s
/-- fig, issued alone. -/
def execFig (f : EFields) (s : State) : Out := issueOne 2 (slotFig f) s

/-- mma.bf16 (06 R142) -/
def slotMmaBf16 (f : EFields) (env : SEnv) (s : State) : SlotRes := issueArch 0x10 f.mod.toNat f env s
/-- mma.bf16, issued alone. -/
def execMmaBf16 (f : EFields) (s : State) : Out := issueOne 2 (slotMmaBf16 f) s

/-- mma.f16 (06 R142) -/
def slotMmaF16 (f : EFields) (env : SEnv) (s : State) : SlotRes := issueArch 0x11 f.mod.toNat f env s
/-- mma.f16, issued alone. -/
def execMmaF16 (f : EFields) (s : State) : Out := issueOne 2 (slotMmaF16 f) s

/-- mma.e4m3 (06 R142) -/
def slotMmaE4m3 (f : EFields) (env : SEnv) (s : State) : SlotRes := issueArch 0x12 f.mod.toNat f env s
/-- mma.e4m3, issued alone. -/
def execMmaE4m3 (f : EFields) (s : State) : Out := issueOne 2 (slotMmaE4m3 f) s

/-- mma.e5m2 (06 R142) -/
def slotMmaE5m2 (f : EFields) (env : SEnv) (s : State) : SlotRes := issueArch 0x13 f.mod.toNat f env s
/-- mma.e5m2, issued alone. -/
def execMmaE5m2 (f : EFields) (s : State) : Out := issueOne 2 (slotMmaE5m2 f) s

/-- mma.i8 (06 R142) -/
def slotMmaI8 (f : EFields) (env : SEnv) (s : State) : SlotRes := issueArch 0x14 f.mod.toNat f env s
/-- mma.i8, issued alone. -/
def execMmaI8 (f : EFields) (s : State) : Out := issueOne 2 (slotMmaI8 f) s

/-- mma.mx8 (06 R142) -/
def slotMmaMx8 (f : EFields) (env : SEnv) (s : State) : SlotRes := issueArch 0x15 f.mod.toNat f env s
/-- mma.mx8, issued alone. -/
def execMmaMx8 (f : EFields) (s : State) : Out := issueOne 2 (slotMmaMx8 f) s

/-- mma.mx6 (06 R142) -/
def slotMmaMx6 (f : EFields) (env : SEnv) (s : State) : SlotRes := issueArch 0x16 f.mod.toNat f env s
/-- mma.mx6, issued alone. -/
def execMmaMx6 (f : EFields) (s : State) : Out := issueOne 2 (slotMmaMx6 f) s

/-- mma.mx4 (06 R142) -/
def slotMmaMx4 (f : EFields) (env : SEnv) (s : State) : SlotRes := issueArch 0x17 f.mod.toNat f env s
/-- mma.mx4, issued alone. -/
def execMmaMx4 (f : EFields) (s : State) : Out := issueOne 2 (slotMmaMx4 f) s

/-- mma.i4 (06 R142) -/
def slotMmaI4 (f : EFields) (env : SEnv) (s : State) : SlotRes := issueArch 0x18 f.mod.toNat f env s
/-- mma.i4, issued alone. -/
def execMmaI4 (f : EFields) (s : State) : Out := issueOne 2 (slotMmaI4 f) s

/-- mma.i4e (06 R142) -/
def slotMmaI4e (f : EFields) (env : SEnv) (s : State) : SlotRes := issueArch 0x19 f.mod.toNat f env s
/-- mma.i4e, issued alone. -/
def execMmaI4e (f : EFields) (s : State) : Out := issueOne 2 (slotMmaI4e f) s

/-- mma.f64 (06 R142) -/
def slotMmaF64 (f : EFields) (env : SEnv) (s : State) : SlotRes := issueArch 0x1A f.mod.toNat f env s
/-- mma.f64, issued alone. -/
def execMmaF64 (f : EFields) (s : State) : Out := issueOne 2 (slotMmaF64 f) s

/-- tcvt (06 R146) -/
def slotTcvt (f : EFields) (env : SEnv) (s : State) : SlotRes := issueArch 0x40 f.mod.toNat f env s
/-- tcvt, issued alone. -/
def execTcvt (f : EFields) (s : State) : Out := issueOne 2 (slotTcvt f) s

/-- tadd (06 R146) -/
def slotTadd (f : EFields) (env : SEnv) (s : State) : SlotRes := issueArch 0x41 f.mod.toNat f env s
/-- tadd, issued alone. -/
def execTadd (f : EFields) (s : State) : Out := issueOne 2 (slotTadd f) s

/-- tmul (06 R146) -/
def slotTmul (f : EFields) (env : SEnv) (s : State) : SlotRes := issueArch 0x42 f.mod.toNat f env s
/-- tmul, issued alone. -/
def execTmul (f : EFields) (s : State) : Out := issueOne 2 (slotTmul f) s

/-- tfma (06 R146) -/
def slotTfma (f : EFields) (env : SEnv) (s : State) : SlotRes := issueArch 0x43 f.mod.toNat f env s
/-- tfma, issued alone. -/
def execTfma (f : EFields) (s : State) : Out := issueOne 2 (slotTfma f) s

/-- tscale (06 R146) -/
def slotTscale (f : EFields) (env : SEnv) (s : State) : SlotRes := issueArch 0x44 f.mod.toNat f env s
/-- tscale, issued alone. -/
def execTscale (f : EFields) (s : State) : Out := issueOne 2 (slotTscale f) s

/-- tmaxr (06 R146) -/
def slotTmaxr (f : EFields) (env : SEnv) (s : State) : SlotRes := issueArch 0x45 f.mod.toNat f env s
/-- tmaxr, issued alone. -/
def execTmaxr (f : EFields) (s : State) : Out := issueOne 2 (slotTmaxr f) s

/-- tsumr (06 R146) -/
def slotTsumr (f : EFields) (env : SEnv) (s : State) : SlotRes := issueArch 0x46 f.mod.toNat f env s
/-- tsumr, issued alone. -/
def execTsumr (f : EFields) (s : State) : Out := issueOne 2 (slotTsumr f) s

/-- texp2 (06 R146) -/
def slotTexp2 (f : EFields) (env : SEnv) (s : State) : SlotRes := issueArch 0x47 f.mod.toNat f env s
/-- texp2, issued alone. -/
def execTexp2 (f : EFields) (s : State) : Out := issueOne 2 (slotTexp2 f) s

/-- tmask (06 R146) -/
def slotTmask (f : EFields) (env : SEnv) (s : State) : SlotRes := issueArch 0x48 f.mod.toNat f env s
/-- tmask, issued alone. -/
def execTmask (f : EFields) (s : State) : Out := issueOne 2 (slotTmask f) s

/-- tsel (06 R146) -/
def slotTsel (f : EFields) (env : SEnv) (s : State) : SlotRes := issueArch 0x49 f.mod.toNat f env s
/-- tsel, issued alone. -/
def execTsel (f : EFields) (s : State) : Out := issueOne 2 (slotTsel f) s

/-- tquant (06 R147) -/
def slotTquant (f : EFields) (env : SEnv) (s : State) : SlotRes := issueArch 0x4A f.mod.toNat f env s
/-- tquant, issued alone. -/
def execTquant (f : EFields) (s : State) : Out := issueOne 2 (slotTquant f) s

/-- tdequant (06 R146) -/
def slotTdequant (f : EFields) (env : SEnv) (s : State) : SlotRes := issueArch 0x4B f.mod.toNat f env s
/-- tdequant, issued alone. -/
def execTdequant (f : EFields) (s : State) : Out := issueOne 2 (slotTdequant f) s

/-- ttrans (06 R146) -/
def slotTtrans (f : EFields) (env : SEnv) (s : State) : SlotRes := issueArch 0x4C f.mod.toNat f env s
/-- ttrans, issued alone. -/
def execTtrans (f : EFields) (s : State) : Out := issueOne 2 (slotTtrans f) s

/-- The issue of a figure number: a user figure bound to a hard engine (12 R272). -/
def slotHardBoundFigure (n : BitVec 8) (f : EFields) (env : SEnv) (s : State) : SlotRes := issueNumber n.toNat f.mod.toNat f env s
/-- The issue of a figure number alone: a user figure bound to a hard engine (12 R272). -/
def execHardBoundFigure (n : BitVec 8) (f : EFields) (s : State) : Out := issueOne 2 (slotHardBoundFigure n f) s

/-- The issue of a figure number: a figure bound to a routine (12 R273). -/
def slotRoutineBoundFigure (n : BitVec 8) (f : EFields) (env : SEnv) (s : State) : SlotRes := issueNumber n.toNat f.mod.toNat f env s
/-- The issue of a figure number alone: a figure bound to a routine (12 R273). -/
def execRoutineBoundFigure (n : BitVec 8) (f : EFields) (s : State) : Out := issueOne 2 (slotRoutineBoundFigure n f) s

/-- The issue of a figure number: a reserved or unbound figure number (04 R88). -/
def slotUnboundFigureIssue (n : BitVec 8) (f : EFields) (env : SEnv) (s : State) : SlotRes := issueNumber n.toNat f.mod.toNat f env s
/-- The issue of a figure number alone: a reserved or unbound figure number (04 R88). -/
def execUnboundFigureIssue (n : BitVec 8) (f : EFields) (s : State) : Out := issueOne 2 (slotUnboundFigureIssue n f) s

/-- The issue of a figure number: a retired figure number (04 R88, R92). -/
def slotRetiredFigureIssue (n : BitVec 8) (f : EFields) (env : SEnv) (s : State) : SlotRes := issueNumber n.toNat f.mod.toNat f env s
/-- The issue of a figure number alone: a retired figure number (04 R88, R92). -/
def execRetiredFigureIssue (n : BitVec 8) (f : EFields) (s : State) : Out := issueOne 2 (slotRetiredFigureIssue n f) s

/-- What an engine slot runs: the meaning of the operation that its figure number decodes to. -/
def engineSlot (i : Instr) : Option (SEnv → State → SlotRes) :=
  match i with
  | .tres f => some (slotTres f)
  | .trel f => some (slotTrel f)
  | .tcfg f => some (slotTcfg f)
  | .tld f => some (slotTld f)
  | .tldX8 f => some (slotTldX8 f)
  | .tldX16 f => some (slotTldX16 f)
  | .tst f => some (slotTst f)
  | .tzero f => some (slotTzero f)
  | .zclr f => some (slotZclr f)
  | .zld f => some (slotZld f)
  | .zdrain f => some (slotZdrain f)
  | .fbind f => some (slotFbind f)
  | .fig f => some (slotFig f)
  | .mmaBf16 f => some (slotMmaBf16 f)
  | .mmaF16 f => some (slotMmaF16 f)
  | .mmaE4m3 f => some (slotMmaE4m3 f)
  | .mmaE5m2 f => some (slotMmaE5m2 f)
  | .mmaI8 f => some (slotMmaI8 f)
  | .mmaMx8 f => some (slotMmaMx8 f)
  | .mmaMx6 f => some (slotMmaMx6 f)
  | .mmaMx4 f => some (slotMmaMx4 f)
  | .mmaI4 f => some (slotMmaI4 f)
  | .mmaI4e f => some (slotMmaI4e f)
  | .mmaF64 f => some (slotMmaF64 f)
  | .tcvt f => some (slotTcvt f)
  | .tadd f => some (slotTadd f)
  | .tmul f => some (slotTmul f)
  | .tfma f => some (slotTfma f)
  | .tscale f => some (slotTscale f)
  | .tmaxr f => some (slotTmaxr f)
  | .tsumr f => some (slotTsumr f)
  | .texp2 f => some (slotTexp2 f)
  | .tmask f => some (slotTmask f)
  | .tsel f => some (slotTsel f)
  | .tquant f => some (slotTquant f)
  | .tdequant f => some (slotTdequant f)
  | .ttrans f => some (slotTtrans f)
  | .hardBoundFigure n f => some (slotHardBoundFigure n f)
  | .routineBoundFigure n f => some (slotRoutineBoundFigure n f)
  | .unboundFigureIssue n f => some (slotUnboundFigureIssue n f)
  | .retiredFigureIssue n f => some (slotRetiredFigureIssue n f)
  | _ => none

/-! ### The life of a job -/

/-- The figure number and modifiers of a hard-engine job. -/
def Job.fig? (j : Job) : Option (Nat × Nat) := match j.kind with | .figure f m => some (f, m) | _ => none

/-- Whether a phase operation or an fbind of a context's earlier bundle still holds it (05 R122, 06 R148). -/
def Core.bundleHeld (c : Core) (ctx : Nat) : Bool :=
  c.phases.any (fun p => p.who == .ctx ctx) ||
    c.jobs.any (fun j => j.ctx == ctx && (match j.fig? with | some (f, _) => f == 0x0B | none => false))

/-- The figure number of a job's issue, which a rendezvous compares: of a user figure bound to a hard engine the target's, so
that two such figures bound to one target do not differ (06 R127, 12 R272; DESIGN CHOICE, log 98). -/
def Job.figNo (j : Job) : Nat := match j.kind with | .figure f _ => f | .routine f _ => f | _ => 0

/-- The job of a member that awaits a rendezvous first. -/
def Core.rdvJob (c : Core) (task : Nat) : Option Job := c.jobs.find? (fun j => j.task == task && j.rdv && !j.err)

/-- TROUPE_RENDEZVOUS (06 R127): every member has issued its k-th troupe-scope figure. They begin, or each raises
ILLEGAL_OP where their numbers differ. -/
def execTroupeRendezvous (task : Nat) (s : State) : Out :=
  let tk := s.task task
  let js := tk.cores.filterMap (fun k => ((s.core k).rdvJob task).map (fun j => (k, j)))
  match js with
  | [] => .fault .notEnabled
  | (_, j0) :: _ =>
    if js.length ≠ tk.cores.length || !js.all (fun e => e.2.rdvNo == j0.rdvNo) then .fault .notEnabled
    else if js.all (fun e => e.2.figNo == j0.figNo) then
      .next (js.foldl (fun (x : State) e => x.modJob e.1 e.2.id (fun j => { j with rdv := false })) s)
    else
      .next (js.foldl (fun (x : State) e =>
        let j := e.2
        let eng := match j.kind with | .figure f _ => figEngine f | _ => 4
        let status := if eng = 4 then j.figNo * 2 ^ 56 else j.figNo * 2 ^ 40
        (x.modJob e.1 j.id (fun q => { q with rdv := false, err := true })).takeTrap e.1 j.ctx
          ⟨eng, 0, j.slotNo, j.pc, j.cmd, some j.id⟩ .illegalOp 0 (BitVec.ofNat 64 status)) s)

/-- ENGINE_JOB_START (06 R129, 11 R264): a figure's job begins once its waits have ended. -/
def execEngineJobStart (core job : Nat) (s : State) : Out :=
  let c := s.core core
  match c.job job with
  | none => .fault .notEnabled
  | some j =>
    if (match j.fig? with | some (f, _) => f != 0x0B | none => false) && !j.started && c.jobFree j (fun _ => true) &&
        j.parts.all (fun p => (c.part p).hold == 0) then
      .next (s.modJob core job (fun q => { q with started := true }))
    else .fault .notEnabled

/-- ENGINE_JOB_COMPLETE (06 R129): the job's data effect in every partition of its scope, its flags, and the end of its
accesses. -/
def execEngineJobComplete (core job : Nat) (s : State) : Out :=
  match (s.core core).job job with
  | none => .fault .notEnabled
  | some j =>
    match j.fig? with
    | none => .fault .notEnabled
    | some (fig, mod) =>
      if fig = 0x0B ∨ !j.started ∨ j.err ∨ (s.jobErr core j fig mod).isSome then .fault .notEnabled
      else
        let r := s.runJob core j fig mod
        .next ((r.1.orFlags core j.ctx r.2).dropJob core job)

/-- The strand, lane and PC of the pass that issued a figure through the lane instruction fig (08 R208). -/
def State.figPass (s : State) (k p : Nat) (j : Job) : Nat × Nat × Word :=
  let st := s.strand k p j.byStrand
  match st.results.find? (fun r => r.src == .figure j.id) with
  | some r => (st.index, r.lane, r.pc)
  | none => (st.index, 0, 0)

/-- ENGINE_ERROR_STOP (06 R143): the chunks before the error are added, and the context takes MEM_UNCORRECTABLE; a
figure that a gang issued stops its gang. -/
def execEngineErrorStop (core job : Nat) (s : State) : Out :=
  match (s.core core).job job with
  | none => .fault .notEnabled
  | some j =>
    match j.fig? with
    | none => .fault .notEnabled
    | some (fig, mod) =>
      if !j.started ∨ j.err then .fault .notEnabled
      else match s.jobErr core j fig mod with
        | none => .fault .notEnabled
        | some (p, e, pf) =>
          let part := (match mmaForm fig with
            | some _ =>
              j.parts.foldl (fun (x : State × NFlags) q =>
                let r := mmaRun fig (s.view core j q 1) (s.view core j q 2) (s.physAcc core j 0) (max j.kstart (mod % 2048)) e.chunk
                  (x.1.part core q).acc
                (x.1.modPart core q (fun y => { y with acc := r.1 }), x.2 ||| r.2)) (s, (0 : NFlags))
            | none => (s, (0 : NFlags)))
          let done := if (mmaForm fig).isSome then e.chunk else 0
          let status := e.cause * 2 ^ 56 + pf * 2 ^ 52 + j.accIndex * 2 ^ 49 + bit e.restart * 2 ^ 48 + fig * 2 ^ 40 +
            e.opnd * 2 ^ 38 + done
          let s1 := (part.1.orFlags core j.ctx part.2).modJob core job (fun q => { q with err := true, kstart := done })
          match j.parent with
          | some g =>
            let w := s.figPass core p j
            .next (s1.gangTrap core g p w.1 w.2.1 w.2.2 .memUncorrectable (BitVec.ofNat 64 e.addr) 0)
          | none =>
            .next (s1.takeTrap core j.ctx ⟨figEngine fig, p, j.slotNo, j.pc, j.cmd, some j.id⟩ .memUncorrectable
              (BitVec.ofNat 64 e.addr) (BitVec.ofNat 64 status))

/-- FBIND_COMPLETE (06 R148): every core of the address space has the new entry, and the context goes on. -/
def execFbindComplete (core ctx : Nat) (s : State) : Out :=
  match (s.core core).jobs.find? (fun j => j.ctx == ctx && (match j.fig? with | some (f, _) => f == 0x0B | none => false)) with
  | none => .fault .notEnabled
  | some j =>
    let s1 := s.modSpace (s.ctx core ctx).asid (fun sp =>
      { sp with figures := sp.figures.set 0 (j.x 0).toNat ((j.x 2) ++ (j.x 1) : BitVec 128) })
    .next (((s1.dropJob core j.id).modCtx core ctx (fun c => if c.wait == .fbind then { c with wait := .none } else c)).modCore core
      (fun c => { c with fbinds := c.fbinds.erase ctx }))

/-! ### Instances (12 R275, R277) -/

/-- Whether an instance issued earlier waits only for room in a partition (12 R275). -/
def Core.roomBefore (c : Core) (j : Job) (p : Nat) : Bool :=
  c.jobs.any (fun a => decide (a.id < j.id) && (match a.kind with | .routine .. => true | _ => false) &&
    a.parts.contains p && !(a.gangs.any (fun g => g.1 == p)) && c.jobFree a (fun q => q == p))

/-- ROUTINE_GANG_START (12 R275): the gang of an instance becomes resident in a partition. -/
def execRoutineGangStart (core inst part : Nat) (s : State) : Out :=
  let c := s.core core
  match c.job inst with
  | none => .fault .notEnabled
  | some j =>
    match j.kind with
    | .routine n e => if c.mayStart j part && !c.roomBefore j part then .next (s.startGang core j n e part) else .fault .notEnabled
    | _ => .fault .notEnabled

/-- Fill the register of a long-latency result, in whichever bank it stands (05 R118); a bundle of this cycle finds it
empty still (02 R38). -/
def Ctx.fillResult (c : Ctx) (r : CtxResult) (v : Word) : Ctx :=
  if r.reg < 56 ∨ r.shadow = c.ev.inh then
    let d := (c.setX r.reg v).dropLatch 2 r.reg
    if r.reg = 0 then d else { d with late := r.reg :: d.late }
  else { c with shX := c.shX.set 0 r.reg v, shEmpty := c.shEmpty.filter (· != r.reg) }

/-- INSTANCE_COMPLETE (12 R277, R283): every gang of the issue on the core has finished; its x outputs are written and
its accesses and its scratch end. -/
def execInstanceComplete (core inst : Nat) (s : State) : Out :=
  match (s.core core).job inst with
  | none => .fault .notEnabled
  | some j =>
    match j.kind with
    | .routine .. =>
      if j.err || j.rdv || !j.parts.all (fun p => j.done.contains p) then .fault .notEnabled
      else
        let out (r : CtxResult) : Word := (j.xout.find? (fun e => e.1 == r.value.toNat)).elim 0 (fun e => e.2)
        let s1 := s.modCtx core j.ctx (fun c =>
          if c.wait == .emulated inst then
            -- the handler finishes the bundle first, whose slots read what stood before it (04 R92, 12 R283)
            { c with
              results := c.results.map (fun r => if r.inst == some inst then { r with inst := none, value := out r } else r)
              wait := .none }
          else
            let c1 := (c.results.filter (fun r => r.inst == some inst)).foldl (fun (x : Ctx) r => x.fillResult r (out r)) c
            { c1 with results := c1.results.filter (fun r => r.inst != some inst) })
        .next ((s1.removeGangs core inst).dropJob core inst)
    | _ => .fault .notEnabled

end Sys2Proof.Machine
end

