-- ==== Sys2Proof/Machine/FerryCore.lean ====
section
/-! DEFINITION. The Ferry's parts: layout records, walk descriptors, footprints, the stream decoder, and the run of one
transfer (spec 09 R219 to R235). -/
namespace Sys2Proof.Machine

/-- Word `k` of a 128-byte record, and a field of it. -/
def recWord (r : BitVec 1024) (k : Nat) : Nat := r.toNat / 2 ^ (64 * k) % 2 ^ 64
def recField (r : BitVec 1024) (k hi lo : Nat) : Nat := natField (recWord r k) hi lo

/-! ### Layout records (09 R219 to R221) -/

def recSpace (r : BitVec 1024) : Bool := recField r 0 63 63 == 1
def recBase (r : BitVec 1024) : Nat := if recSpace r then recField r 0 31 0 else recField r 0 53 0
def recNdim (r : BitVec 1024) : Nat := recField r 1 10 8
def recWrap (r : BitVec 1024) (d : Nat) : Bool := recField r 1 (16 + d) (16 + d) == 1
def recEsize (r : BitVec 1024) : Nat := recField r 1 2 0
def recExtent (r : BitVec 1024) (d : Nat) : Nat := recField r (2 + d) 63 40
def recStride (r : BitVec 1024) (d : Nat) : Int := toSigned 40 (recWord r (2 + d))
def recHi (r : BitVec 1024) (d : Nat) : Int := toSigned 32 (recField r (8 + d) 63 32)
def recLo (r : BitVec 1024) (d : Nat) : Int := toSigned 32 (recField r (8 + d) 31 0)

/-- Whether a record breaks a field rule of R219 and R221; the bits of BASE above a Landing address are not used. -/
def recIllegal (r : BitVec 1024) : Bool :=
  recField r 0 62 54 != 0 || recField r 1 63 22 != 0 || recField r 1 15 11 != 0 ||
  recField r 1 7 3 != 0 || recWord r 14 != 0 || recWord r 15 != 0 || recNdim r == 0 || 6 < recNdim r || 4 < recEsize r ||
  (List.range 6).any (fun d =>
    if d < recNdim r then
      recExtent r d == 0 || (recWrap r d && (decide (recLo r d < 0) || decide ((recExtent r d : Int) < recHi r d)))
    else recWord r (2 + d) != 0 || recWord r (8 + d) != 0)

/-- Whether a record's base or a stride is not a multiple of its element size (09 R221). -/
def recMisaligned (r : BitVec 1024) : Bool :=
  let n := 2 ^ recEsize r
  recBase r % n != 0 || (List.range (recNdim r)).any (fun d => recStride r d % (n : Int) != 0)

/-- Map: the address of an index vector, and whether it is in bounds (09 R220). -/
def recMap (r : BitVec 1024) (iv : List Int) : Nat × Bool :=
  let z := (List.range (recNdim r)).foldl (fun (x : Int × Bool) d =>
    let i := iv.getD d 0
    let j := if recWrap r d then i % (recExtent r d : Int) else i
    (x.1 + j * recStride r d, x.2 && decide (recLo r d ≤ j) && decide (j < recHi r d))) ((recBase r : Int), true)
  (ofSigned (if recSpace r then 32 else 64) z.1,
    z.2 && (List.range 6).all (fun d => decide (d < recNdim r) || iv.getD d 0 == 0))

/-! ### Walk descriptors (09 R224, R225) -/

def wCtr (d : BitVec 1024) : Nat := recField d 0 56 48
def wCinc (d : BitVec 1024) : Nat := recField d 0 47 32
def wCmode (d : BitVec 1024) : Nat := recField d 0 25 24
def wTidx (d : BitVec 1024) : Nat := recField d 0 23 19
def wTpart (d : BitVec 1024) : Nat := recField d 0 18 17
def wTile (d : BitVec 1024) : Bool := recField d 0 16 16 == 1
def wCodet (d : BitVec 1024) : Nat := recField d 0 15 14
def wDec (d : BitVec 1024) : Bool := recField d 0 13 13 == 1
def wRingno (d : BitVec 1024) : Nat := recField d 0 12 9
def wRing (d : BitVec 1024) : Bool := recField d 0 8 8 == 1
def wDsty (d : BitVec 1024) : Nat := recField d 0 7 4
def wSrcy (d : BitVec 1024) : Nat := recField d 0 3 0
def wDs (d : BitVec 1024) (l : Nat) : Int := toSigned 16 (recField d (1 + l) 63 48)
def wSs (d : BitVec 1024) (l : Nat) : Int := toSigned 16 (recField d (1 + l) 47 32)
def wDd (d : BitVec 1024) (l : Nat) : Nat := recField d (1 + l) 26 24
def wSd (d : BitVec 1024) (l : Nat) : Nat := recField d (1 + l) 22 20
def wNm1 (d : BitVec 1024) (l : Nat) : Nat := recField d (1 + l) 19 0
/-- Box extent minus 1 of dimension `k`. -/
def wBx (d : BitVec 1024) (k : Nat) : Nat := if k < 4 then recField d 7 (16 * k + 15) (16 * k) else recField d 8 (16 * (k - 4) + 15) (16 * (k - 4))
def wSo (d : BitVec 1024) (k : Nat) : Int := toSigned 32 (recField d (9 + k / 2) (32 * (k % 2) + 31) (32 * (k % 2)))
def wDo (d : BitVec 1024) (k : Nat) : Int := toSigned 32 (recField d (12 + k / 2) (32 * (k % 2) + 31) (32 * (k % 2)))

/-- The elements of a box. -/
def wBox (d : BitVec 1024) : Nat := (List.range 6).foldl (fun a k => a * (wBx d k + 1)) 1

/-- The descriptor that `fcopy` acts on: words 1 to 6 are ignored, one iteration at every level (09 R224). -/
def wCopy (d : BitVec 1024) : BitVec 1024 :=
  BitVec.ofNat 1024 (d.toNat % 2 ^ 64 + d.toNat / 2 ^ (64 * 7) * 2 ^ (64 * 7))

/-- The transfers that a descriptor emits. -/
def wCount (d : BitVec 1024) : Nat := (List.range 6).foldl (fun a l => a * (wNm1 d l + 1)) 1

/-- Whether a descriptor breaks a field rule of R224, R226 and R238 that needs nothing but the descriptor. -/
def wIllegal (walk : Bool) (d : BitVec 1024) : Bool :=
  recField d 0 63 57 != 0 || recField d 0 31 26 != 0 || wCmode d == 3 || (wRing d && wTile d) || (walk && wTile d) ||
  (walk && (List.range 6).any (fun l => recField d (1 + l) 31 27 != 0 || recField d (1 + l) 23 23 != 0 || 5 < wDd d l || 5 < wSd d l)) ||
  recField d 8 63 32 != 0 || recWord d 15 != 0 ||
  (wRing d && (wDsty d != 0 || recWord d 12 != 0 || recWord d 13 != 0 || recWord d 14 != 0 ||
    (walk && (List.range 6).any (fun l => wDs d l != 0 || wDd d l != 0))))

/-- The iteration of each level at transfer `ix` of a command, level 5 fastest. -/
def wNest (d : BitVec 1024) (ix l : Nat) : Nat :=
  ix / (List.range (5 - l)).foldl (fun a j => a * (wNm1 d (l + 1 + j) + 1)) 1 % (wNm1 d l + 1)

/-- The source and destination origins of a transfer (09 R225). -/
def wOrigin (d : BitVec 1024) (ix k : Nat) : Int :=
  (List.range 6).foldl (fun (a : Int) l => if wSd d l = k then a + (wNest d ix l : Int) * wSs d l else a) (wSo d k)
def wTarget (d : BitVec 1024) (ix k : Nat) : Int :=
  (List.range 6).foldl (fun (a : Int) l => if wDd d l = k then a + (wNest d ix l : Int) * wDs d l else a) (wDo d k)

/-- Coordinate `k` of element `n` of a box, e[0] fastest. -/
def wElem (d : BitVec 1024) (n k : Nat) : Nat :=
  n / (List.range k).foldl (fun a j => a * (wBx d j + 1)) 1 % (wBx d k + 1)

/-! ### Footprints (09 R230) -/

/-- The least sum of one multiple `n * s` for each of the levels, with `n` up to the level's count, that is at least `t`. -/
def leastSum (ls : List (Nat × Nat)) (t : Nat) : Option Nat :=
  match ls with
  | [] => if t = 0 then some 0 else none
  | (n, s) :: r =>
    if s = 0 then leastSum r t
    else
      let rest := r.foldl (fun a l => a + l.1 * l.2) 0
      let lo := (t - rest + s - 1) / s
      let hi := min n ((t + s - 1) / s)
      (List.range (hi + 1 - lo)).foldl (fun (m : Option Nat) i =>
        match leastSum r (t - (lo + i) * s), m with
        | some v, some x => some (min x ((lo + i) * s + v))
        | some v, none => some ((lo + i) * s + v)
        | none, x => x) none

/-- The lowest and highest value from `lo` to `hi`, if any, that `base` plus a sum of the levels takes. -/
def sumRange (base : Int) (ls : List (Nat × Nat)) (lo hi : Int) : Option (Int × Int) :=
  let top : Nat := ls.foldl (fun a l => a + l.1 * l.2) 0
  match leastSum ls (lo - base).toNat, leastSum ls (base + (top : Int) - hi).toNat with
  | some a, some b =>
    let x := base + (a : Int)
    let y := base + (top : Int) - (b : Int)
    if x ≤ hi ∧ lo ≤ y then some (x, y) else none
  | _, _ => none

/-- The indexes that a side of a walk reaches in one dimension: the lowest of them, and the levels whose multiples, with the
box's own, are added to it (09 R225). -/
def wReach (d : BitVec 1024) (src : Bool) (k : Nat) : Int × List (Nat × Nat) :=
  let ls := (List.range 6).filterMap (fun l =>
    if (if src then wSd d l else wDd d l) = k then some (wNm1 d l, if src then wSs d l else wDs d l) else none)
  ((if src then wSo d k else wDo d k) + ls.foldl (fun (a : Int) l => a + min ((l.1 : Int) * l.2) 0) 0,
    ls.map (fun l => (l.1, l.2.natAbs)) ++ [(wBx d k, 1)])

/-- The lowest and highest in-bounds index that a side reaches in one dimension, if there is one (09 R220, R230). Where the
dimension wraps, an index modulo EXTENT is an index less a multiple of it. A decoding command reads a stream from SO0 on, of
at most 15 bits to a symbol (09 R233, log 25). -/
def dimRange (d : BitVec 1024) (src : Bool) (r : BitVec 1024) (k : Nat) : Option (Int × Int) :=
  if src && wDec d then
    if k = 0 then sumRange (wSo d 0) [((15 * (wCount d * wBox d) + 7) / 8 - 1, 1)] (recLo r 0) (recHi r 0 - 1)
    else sumRange (wSo d k) [] 0 0
  else
    let x := wReach d src k
    if recNdim r ≤ k then sumRange x.1 x.2 0 0
    else if recWrap r k then
      let e : Int := recExtent r k
      let top : Nat := x.2.foldl (fun a l => a + l.1 * l.2) 0
      let q0 := x.1 / e
      let q1 := (x.1 + (top : Int)) / e
      sumRange (x.1 - e * q1) (((q1 - q0).toNat, recExtent r k) :: x.2) (recLo r k) (recHi r k - 1)
    else sumRange x.1 x.2 (recLo r k) (recHi r k - 1)

/-- The interval from the lowest to the highest byte that an in-bounds element of a side can touch, before view
redirection; `none` when no element is in bounds. -/
def wInterval (d : BitVec 1024) (src : Bool) (r : BitVec 1024) : Option (Int × Int) :=
  let ds := (List.range 6).map (fun k => (dimRange d src r k).map (fun z =>
    let s := if k < recNdim r then recStride r k else 0
    (min (z.1 * s) (z.2 * s), max (z.1 * s) (z.2 * s))))
  if ds.any Option.isNone then none
  else
    let z := ds.foldl (fun (x : Int × Int) o => match o with | some y => (x.1 + y.1, x.2 + y.2) | none => x) (0, 0)
    some ((recBase r : Int) + z.1, (recBase r : Int) + z.2 + (2 ^ recEsize r : Nat) - 1)

/-! ### The stream decoder (09 R232, R233) -/

/-- The code lengths of a table. -/
def codeLens (t : Memory) : List Nat := (t.readList 0 256).map (fun b => b.toNat)

/-- The codes of a table as (length, code, symbol): canonical, symbols of one length in ascending order. -/
def codeList (t : Memory) : List (Nat × Nat × Nat) :=
  let ls := codeLens t
  let firsts := (List.range 15).foldl (fun (x : List Nat × Nat) i =>
    let prev := if i = 0 then 0 else (ls.filter (fun y => y == i)).length
    let code := (x.2 + prev) * 2
    (x.1 ++ [code], code)) ([], 0)
  (List.range 15).flatMap (fun i =>
    let syms := (List.range 256).filter (fun s => ls.getD s 0 == i + 1)
    (syms.zip (List.range syms.length)).map (fun e => (i + 1, firsts.1.getD i 0 + e.2, e.1)))

/-- Whether a table is refused (09 R232). -/
def codeBad (t : Memory) : Bool :=
  let ls := codeLens t
  ls.any (fun l => decide (15 < l)) || ls.all (fun l => l == 0) ||
    decide (2 ^ 15 < (ls.filter (fun l => l != 0)).foldl (fun a l => a + 2 ^ (15 - min l 15)) 0)

/-! ### The run of a transfer (09 R225, R226, R229, R231) -/

/-- How the run of a transfer's elements ended: all done, a replayable fault, or an error that is not replayable. -/
inductive FerryEnd where
  | done
  | page (t : Trap)
  | bad (cls : TrapClass) (addr : Word) (det : Nat)
deriving DecidableEq, Repr, Inhabited

/-- Who a command's accesses are made for. -/
def FCmd.agent (c : FCmd) (k : Nat) : Agent := ⟨k, c.task, c.asid, c.priv⟩

/-- A trap found by a Ferry access: PAGE is replayable, the others are not (09 R234, R235). -/
def ferryTrap (t : Trap) : FerryEnd := if t.cls = .page then .page t else .bad t.cls t.addr t.det

/-- Read bytes for the Ferry: the home values of global memory, and Landing through its apertures (09 R231). -/
def State.ferryRead (s : State) (g : Agent) (landing : Bool) (a n : Nat) : Except FerryEnd (List Byte × State) :=
  if landing then
    match s.landFirstBad g.core g.task a n with
    | some b => .error (.bad .memUncorrectable (BitVec.ofNat 64 b) 0)
    | none => .ok (s.landBytes g.core g.task a n, s)
  else
    match s.xlate g .read (BitVec.ofNat 64 a) with
    | .error t => .error (ferryTrap t)
    | .ok x =>
      if x.poisoned || x.s.lineBad x.pa then
        .error (.bad .memUncorrectable (BitVec.ofNat 64 a) (bit x.poisoned))
      else .ok (x.s.mem.readList x.pa n, x.s)

/-- The names of the bytes of a destination: Landing bytes of a core above 2^62, physical addresses below. -/
def landKey (k off : Nat) : Nat := 2 ^ 62 + k * 2 ^ 24 + off

/-- Write bytes for the Ferry, but for those that a higher-numbered transfer has written; the names of the bytes
(09 R229, R231, 11 R266). -/
def State.ferryWrite (s : State) (g : Agent) (landing : Bool) (a : Nat) (bs : List Byte) (mask : List Nat) :
    Except FerryEnd (List Nat × State) :=
  let ix := List.range bs.length
  if landing then
    let keys := ix.map (fun i => let pl := (s.core g.core).landByteAt g.core g.task (a + i); landKey pl.1 pl.2)
    if keys.any mask.contains then
      .ok (keys, ix.foldl (fun (x : State) i =>
        let pl := (x.core g.core).landByteAt g.core g.task (a + i)
        if mask.contains (landKey pl.1 pl.2) then x
        else x.modCore pl.1 (fun c => c.landWrite pl.2 [bs.getD i 0])) s)
    else .ok (keys, s.landStore g.core g.task a bs)
  else
    match s.xlate g .write (BitVec.ofNat 64 a) with
    | .error t => .error (ferryTrap t)
    | .ok x =>
      let keys := ix.map (fun i => x.pa + i)
      if keys.any mask.contains then
        .ok (keys, ix.foldl (fun (y : State) i =>
          if mask.contains (x.pa + i) then y else y.homeStore g.core (x.pa + i) [bs.getD i 0]) x.s)
      else .ok (keys, x.s.homeStore g.core x.pa bs)

/-- One coded symbol from bit `pos` of the stream: the symbol and the bit after it (09 R233). -/
def State.decodeSym (s : State) (g : Agent) (cmd : FCmd) (codes : List (Nat × Nat × Nat)) (pos len acc fuel : Nat) :
    Except FerryEnd (Nat × Nat × State) :=
  match fuel with
  | 0 => .error (.bad .format 0 0)
  | n + 1 =>
    let m := recMap cmd.src [wSo cmd.desc 0 + ((pos / 8 : Nat) : Int)]
    if !m.2 then .error (.bad .format (BitVec.ofNat 64 m.1) 0)
    else match s.ferryRead g (recSpace cmd.src) m.1 1 with
      | .error e => .error e
      | .ok (bs, s1) =>
        let b := (bs.getD 0 0).getLsbD (7 - pos % 8)
        let acc1 := 2 * acc + bit b
        match codes.find? (fun c => c.1 == len + 1 && c.2.1 == acc1) with
        | some c => .ok (c.2.2, pos + 1, s1)
        | none => s1.decodeSym g cmd codes (pos + 1) (len + 1) acc1 n

/-- Skip `n` symbols of a stream. -/
def State.skipSyms (s : State) (g : Agent) (cmd : FCmd) (codes : List (Nat × Nat × Nat)) (pos n : Nat) :
    Except FerryEnd (Nat × State) :=
  match n with
  | 0 => .ok (pos, s)
  | m + 1 =>
    match s.decodeSym g cmd codes pos 0 0 15 with
    | .error e => .error e
    | .ok (_, pos1, s1) => s1.skipSyms g cmd codes pos1 m

/-- The state of a run: the elements done, the bytes delivered, the names of bytes written, and the decoder's bit. -/
structure FerryRun where
  s     : State
  done  : Nat
  bytes : Nat
  keys  : List Nat
  bitp  : Nat

/-- The destination of element `n`: the space, the address, and whether it is in bounds (09 R226); `none` for a tile. -/
def State.ferryDest (s : State) (k : Nat) (tr : Transfer) (n : Nat) : Bool × Nat × Bool :=
  let d := tr.cmd.desc
  if wRing d then
    let ring := (s.core k).ring (wRingno d)
    (true, ring.base + (tr.slot.getD 0 % max ring.slots 1) * ring.slotsz + n * 2 ^ recEsize tr.cmd.src, true)
  else
    let m := recMap tr.cmd.dst ((List.range 6).map (fun j => wTarget d tr.ix j + (wElem d n j : Int)))
    (recSpace tr.cmd.dst, m.1, m.2)

/-- Write an element to its destination. -/
def State.ferryPut (s : State) (k : Nat) (tr : Transfer) (n : Nat) (bs : List Byte) : Except FerryEnd (Nat × List Nat × State) :=
  let d := tr.cmd.desc
  if wTile d then
    -- a tile refill: row e[1], byte e[0] times the element size (09 R226)
    if (s.ctx k tr.cmd.ctx).task ≠ tr.cmd.task then .ok (0, [], s)
    else
      match (s.core k).job tr.cmd.job with
      | none => .ok (0, [], s)
      | some j =>
        let tl := j.tcr (wTpart d) (wTidx d)
        let a := (s.ctx k tr.cmd.ctx).obufBase + tl.base + wElem d n 1 * tl.stride + wElem d n 0 * 2 ^ recEsize tr.cmd.src
        .ok (bs.length, [], s.modPart k (wTpart d) (fun x => { x with
          obuf := x.obuf.writeList a bs, badObuf := x.badObuf.filter (fun b => !(a ≤ b && b < a + bs.length)) }))
  else
    let q := s.ferryDest k tr n
    if !q.2.2 then .ok (0, [], s)
    else match s.ferryWrite (tr.cmd.agent k) q.1 q.2.1 bs tr.mask with
      | .error e => .error e
      | .ok (keys, s1) => .ok (bs.length, keys, s1)

/-- One element of a transfer. -/
def ferryElem (k : Nat) (tr : Transfer) (codes : List (Nat × Nat × Nat)) (r : FerryRun) : Except FerryEnd FerryRun :=
  let d := tr.cmd.desc
  let g := tr.cmd.agent k
  let n := r.done
  let put (s : State) (bs : List Byte) (bp : Nat) : Except FerryEnd FerryRun :=
    match s.ferryPut k tr n bs with
    | .error e => .error e
    | .ok (w, keys, s1) => .ok ⟨s1, n + 1, r.bytes + w, keys ++ r.keys, bp⟩
  if wDec d then
    match r.s.decodeSym g tr.cmd codes r.bitp 0 0 15 with
    | .error e => .error e
    | .ok (sym, bp, s1) => put s1 [BitVec.ofNat 8 sym] bp
  else
    let m := recMap tr.cmd.src ((List.range 6).map (fun j => wOrigin d tr.ix j + (wElem d n j : Int)))
    let inDest := wTile d || (r.s.ferryDest k tr n).2.2
    if !m.2 || !inDest then .ok { r with done := n + 1 }
    else match r.s.ferryRead g (recSpace tr.cmd.src) m.1 (2 ^ recEsize tr.cmd.src) with
      | .error e => .error e
      | .ok (bs, s1) => put s1 bs 0

/-- The elements of a transfer one after another, until the end or the first that fails. -/
def ferryLoop (k : Nat) (tr : Transfer) (codes : List (Nat × Nat × Nat)) (n : Nat) (r : FerryRun) : FerryRun × FerryEnd :=
  match n with
  | 0 => (r, .done)
  | m + 1 =>
    match ferryElem k tr codes r with
    | .error e => (r, e)
    | .ok r1 => ferryLoop k tr codes m r1

/-- The run of a started transfer from where it stands. -/
def State.ferryRunAll (s : State) (k : Nat) (tr : Transfer) : FerryRun × FerryEnd :=
  let d := tr.cmd.desc
  let codes := if wDec d then codeList (Tab.get (s.core k).codes [] (wCodet d)) else []
  let r0 (bp : Nat) (st : State) : FerryRun := ⟨st, tr.done, tr.bytes, [], bp⟩
  if wDec d then
    match s.skipSyms (tr.cmd.agent k) tr.cmd codes 0 (tr.ix * wBox d + tr.done) with
    | .error e => (r0 0 s, e)
    | .ok (bp, s1) => ferryLoop k tr codes (wBox d - tr.done) (r0 bp s1)
  else ferryLoop k tr codes (wBox d - tr.done) (r0 0 s)

/-! ### Channels (09 R227) -/

/-- The numbers of a channel that have not completed, each run by its lowest: started transfers, the next of each
command, parked ones, and the transfer that halted it. -/
def Chan.outstanding (x : Chan) : List Nat :=
  x.active.map (fun t => t.num) ++ (x.cmds.filter (fun c => decide (c.begun < c.count))).map (fun c => (c.first + c.begun) % 2 ^ 32) ++
    x.parked.map (fun c => (c.first + c.begun) % 2 ^ 32) ++ x.halted.toList

/-- WM: the lowest number that has not completed; NEXT when none is outstanding (09 R227). -/
def Chan.wm (x : Chan) : Nat :=
  let back := x.outstanding.foldl (fun m n => max m ((x.next + 2 ^ 32 - n) % 2 ^ 32)) 0
  (x.next + 2 ^ 32 - back) % 2 ^ 32

/-- The number of commands accepted that have not finished starting, parked ones among them (09 R227, R241). -/
def Chan.depth (x : Chan) : Nat := ((x.cmds ++ x.parked).filter (fun c => decide (c.begun < c.count))).length

/-- The state word of fstat (09 R241). -/
def Chan.stateWord (x : Chan) : Nat :=
  x.depth * 2 ^ 44 + x.cause * 2 ^ 40 + x.pgres * 2 ^ 32 + bit x.halt * 2 ^ 31 + bit (!x.outstanding.isEmpty) * 2 ^ 30

/-- Commands all of whose transfers have ended leave the channel, and their jobs end. -/
def State.reapChan (s : State) (k ch : Nat) : State :=
  let x := s.chan k ch
  let ended (c : FCmd) : Bool := decide (c.count ≤ c.begun) && !x.active.any (fun t => t.cmd.job == c.job)
  (x.cmds.filter ended).foldl (fun (y : State) c => y.dropJob k c.job)
    (s.modChan k ch (fun y => { y with cmds := y.cmds.filter (fun c => !ended c) }))

/-- Whether a transfer `a` has a lower number than `b` (09 R227). -/
def numBefore (a b : Nat) : Bool := a != b && serialBefore a b
where serialBefore (a b : Nat) : Bool := (b + 2 ^ 32 - a) % 2 ^ 32 < 2 ^ 31

/-- The bytes written by transfer `num` are kept from the lower-numbered transfers still running, and from those still to
start: parked ones, and tile refills that wait (09 R229). -/
def Chan.maskLower (x : Chan) (num : Nat) (keys : List Nat) : Chan :=
  let cover (c : FCmd) : FCmd :=
    if c.begun < c.count ∧ numBefore ((c.first + c.begun) % 2 ^ 32) num then { c with mask := keys ++ c.mask } else c
  { x with
    active := x.active.map (fun t => if numBefore t.num num then { t with mask := keys ++ t.mask } else t)
    cmds := x.cmds.map cover
    parked := x.parked.map cover }

/-- Put a command among others in the order of their numbers (09 R227). -/
def insertCmd (c : FCmd) (cs : List FCmd) : List FCmd :=
  match cs with
  | [] => [c]
  | x :: r => if numBefore c.first x.first then c :: x :: r else x :: insertCmd c r

end Sys2Proof.Machine
end

