-- ==== Sys2Proof/Machine/LaneOps.lean ====
section
/-! DEFINITION. Operand forms of lane instructions and the issue of a pass: fields, guards, sources, destinations, and
what a pass does when it issues (spec 03 R61 to R81, 07 R152 to R154, 08 R180). -/
namespace Sys2Proof.Machine

/-- The result of a pass: done, with a trap found after issue; a trap at issue (03 R81); or the pass does not
issue: its lanes are not ready, or wait in a queue's list as the state says (08 R196). -/
inductive LRes where
  | ok (s : State) (late : Option (LaneRef × Trap))
  | trap (r : LaneRef) (t : Trap)
  | wait (f : State → State)
  | hold

/-- What a pass sees: its lanes, ACTIVE (03 R78), the PC of its instruction and the instruction's length, and the
partition as it stood before the pass. -/
structure LEnv where
  core : Nat
  part : Nat
  pass : List LaneRef
  act  : List LaneRef
  pc   : Word
  size : Nat
  pre  : Part

/-- The meaning of a lane instruction in a pass. `valid` is its field check (03 R77, R84), and `bad` what a
failed one raises; `vs` lists the v registers
it names, wide ones as even pairs, `ps` the predicates; `conv` marks a converged instruction (08 R180), `split` one
that is never fused (03 R67). -/
structure LMean where
  gn    : Bool
  gp    : Nat
  size  : Nat
  valid : Bool
  bad   : TrapClass
  vs    : List (Nat × Bool)
  ps    : List Nat
  conv  : Bool
  split : Bool
  eff   : LEnv → State → LRes

/-! ### Registers of a lane -/

/-- v[n] (03 R57). -/
def Lane.getV (l : Lane) (n : Nat) : Nat := (Tab.get l.v 0 n).toNat
/-- v[n], or the pair from v[n] for a 64-bit operand (07 R152). -/
def Lane.getW (l : Lane) (wide : Bool) (n : Nat) : Nat := if wide then l.getV n + 2 ^ 32 * l.getV (n + 1) else l.getV n
/-- Write v[n]. -/
def Lane.setV (l : Lane) (n x : Nat) : Lane := { l with v := l.v.set 0 n (BitVec.ofNat 32 x) }
/-- Write v[n], or the pair from v[n]. -/
def Lane.setW (l : Lane) (wide : Bool) (n x : Nat) : Lane :=
  if wide then (l.setV n (x % 2 ^ 32)).setV (n + 1) (x / 2 ^ 32) else l.setV n x
/-- p[n]; p7 reads 1 (03 R57). -/
def Lane.getP (l : Lane) (n : Nat) : Bool := n == 7 || l.p.getLsbD n
/-- Write p[n]; writes to p7 are discarded (03 R57). -/
def Lane.setP (l : Lane) (n : Nat) (b : Bool) : Lane :=
  if n = 7 then l
  else { l with p := if b then l.p ||| BitVec.ofNat 8 (2 ^ n) else l.p &&& ~~~ (BitVec.ofNat 8 (2 ^ n)) }
/-- s[n] of a strand. -/
def Strand.getS (st : Strand) (n : Nat) : Word := Tab.get st.s 0 n
/-- Write s[n] of a strand. -/
def Strand.setS (st : Strand) (n : Nat) (w : Word) : Strand := { st with s := st.s.set 0 n w }

def LEnv.strand (e : LEnv) (r : LaneRef) : Strand := e.pre.strand r.slot
def LEnv.lane (e : LEnv) (r : LaneRef) : Lane := (e.strand r).lane r.lane
/-- Change a lane of the pass. -/
def LEnv.modLane (e : LEnv) (s : State) (r : LaneRef) (f : Lane → Lane) : State := s.modLane e.core e.part r.slot r.lane f
/-- Write a v register, or pair, of a lane of the pass. -/
def LEnv.writeV (e : LEnv) (s : State) (r : LaneRef) (wide : Bool) (n x : Nat) : State :=
  e.modLane s r (fun l => l.setW wide n x)
/-- Write a predicate of a lane of the pass. -/
def LEnv.writeP (e : LEnv) (s : State) (r : LaneRef) (n : Nat) (b : Bool) : State := e.modLane s r (fun l => l.setP n b)
/-- Change the strand of a slot. -/
def LEnv.modStrand (e : LEnv) (s : State) (slot : Nat) (f : Strand → Strand) : State := s.modStrand e.core e.part slot f

/-- The strand slots of a list of lanes, each once. -/
def slotsOf (rs : List LaneRef) : List Nat := (rs.map (fun r => r.slot)).eraseDups
/-- The lowest strand slot of the pass; with the cycle of issue it names the pass (03 R64). -/
def LEnv.lead (e : LEnv) : Nat := (slotsOf e.pass).foldl min (e.pass.headD ⟨0, 0⟩).slot
/-- A lane of the pass as an issuer of accesses (11 R260). -/
def LEnv.issuer (e : LEnv) (r : LaneRef) : Waiter × Nat := (.strand e.part r.slot, r.lane)
/-- The gang (its instance) that the pass belongs to. -/
def LEnv.gang (e : LEnv) : Nat := match e.pass with | r :: _ => (e.strand r).gang | [] => 0
/-- The registers of a lane that an unserved pop of a queue will fill (08 R196). -/
def Core.popRegs (c : Core) (part slot lane : Nat) : List Nat :=
  c.queues.flatMap (fun e => e.2.pops.flatMap (fun w => (w.filter (fun q => q.part == part && q.slot == slot && q.lane == lane)).flatMap
    (fun q => if q.wide then [q.val, q.val + 1] else [q.val])))

/-- The instance of the pass. -/
def LEnv.job (e : LEnv) (s : State) : Job := ((s.core e.core).job e.gang).getD default
/-- The agent of the pass: its core, and the task, address space and level of the issuing context; a firmware figure runs
at user level (12 R283, 16 R335). -/
def LEnv.agent (e : LEnv) (s : State) : Agent :=
  let j := e.job s
  let g := s.ctxAgent e.core j.ctx
  match j.kind with | .routine _ en => if en / 2 ^ 62 % 4 = 3 then { g with priv := 0 } else g | _ => g
/-- The figure-table entry of the instance. -/
def Job.entry (j : Job) : Nat := match j.kind with | .routine _ en => en | _ => 0

/-- OR flags of an arithmetic pass into NUMFLAGS (07 R154). -/
def LEnv.flags (e : LEnv) (s : State) (fl : NFlags) : State := s.gangFlags e.core e.gang fl

/-! ### Field checks -/

/-- The instruction with its U and immediate of a short form (03 R75, 07 R153). -/
def longOf (f : LShort) (ty : Nat) : LLong := ⟨f.gn, f.gp, f.d, f.a, f.b, BitVec.ofNat 5 ty, false, 0, 0⟩

/-- `mod`[3], the immediate form (07 R153). -/
def useImm (f : LLong) : Bool := f.mod.toNat / 8 % 2 == 1

/-- Whether `mod` sets only bits of a mask. -/
def modIn (f : LLong) (mask : Nat) : Bool := Nat.lor f.mod.toNat mask == mask

/-- Field b as a source (07 R152, R153): with I an immediate, b and U zero; otherwise `imm` is zero where the entry
takes an immediate, and a uniform register lies below 32. -/
def bOk (f : LLong) (immForm : Bool) : Bool :=
  if immForm && useImm f then f.b.toNat == 0 && !f.u
  else (!immForm || f.imm.toNat == 0) && (!f.u || f.b.toNat < 32)

/-- The v registers that field b names. -/
def bRegs (f : LLong) (immForm wide : Bool) : List (Nat × Bool) :=
  if f.u || (immForm && useImm f) then [] else [(f.b.toNat, wide)]

/-- Source B of a lane (07 R152, R153). -/
def LEnv.srcB (e : LEnv) (f : LLong) (immForm : Bool) (ty : Nat) (r : LaneRef) : Nat :=
  if immForm && useImm f then laneImm ty f.imm
  else if f.u then ((e.strand r).getS f.b.toNat).toNat % 2 ^ tyW ty
  else (e.lane r).getW (tyWide ty) f.b.toNat

/-- Whether a v register operand exists in a gang of register count `n` (03 R58). -/
def vOk (n : Nat) (o : Nat × Bool) : Bool :=
  let ok (k : Nat) : Bool := k + 9 ≤ n || (120 ≤ k && k < 128)
  if o.2 then o.1 % 2 == 0 && ok o.1 && ok (o.1 + 1) else ok o.1

/-- Whether a lane's operand registers are free of pending bits (03 R61). -/
def Lane.clear (l : Lane) (vs : List (Nat × Bool)) (ps : List Nat) : Bool :=
  vs.all (fun o => !l.pendV.contains o.1 && !(o.2 && l.pendV.contains (o.1 + 1))) && ps.all (fun p => !l.pendP.contains p)

/-- Whether a lane's guard holds (03 R78). -/
def Lane.guard (l : Lane) (m : LMean) : Bool := l.getP m.gp != m.gn

/-- Whether no pending bit keeps a lane from issuing an instruction (03 R61): its guard's, and where the guard holds
those of its operands. -/
def Lane.issuable (l : Lane) (m : LMean) : Bool := l.clear [] [m.gp] && (!l.guard m || l.clear m.vs m.ps)

/-- Whether pending bits keep an instruction from issuing: one that traps by its fields issues at once, but for a retired
opcode, whose operands its emulation takes (04 R92). -/
def LMean.waits (m : LMean) : Bool := m.valid || m.bad == .retiredOp

/-! ### The issue of a pass -/

/-- The lowest-numbered lane of a strand's part of the pass (12 R279). -/
def lowestLane (rs : List LaneRef) (slot : Nat) : Nat :=
  match rs.find? (fun r => r.slot == slot) with | some r => r.lane | none => 0

/-- A trap of a pass stops its gang (03 R81, 12 R279). -/
def LEnv.raise (e : LEnv) (s : State) (r : LaneRef) (t : Trap) : State :=
  let st := e.strand r
  s.gangTrap e.core st.gang e.part st.index (lowestLane e.pass r.slot) e.pc t.cls t.addr t.det

/-- The lanes of the pass have issued: each takes the next PC, and its strand has issued now (03 R65, R70). -/
def LEnv.advance (e : LEnv) (s : State) : State :=
  let s1 := e.pass.foldl (fun (x : State) r =>
    e.modLane x r (fun l => { l with pc := e.pc + BitVec.ofNat 64 e.size, idle := 0 })) s
  (slotsOf e.pass).foldl (fun (x : State) sl => e.modStrand x sl (fun st => { st with issued := s.cycle })) s1

/-- Whether the pass holds every lane of its strand that has not exited (08 R180). -/
def LEnv.whole (e : LEnv) (slot : Nat) : Bool :=
  (e.pre.strand slot).lanes.all (fun l => l.2.exited || e.pass.contains ⟨slot, l.1⟩)

/-- The lanes of a pass that an instruction issues for: one of R67 issues for the strand of the lower slot alone. -/
def passLanes (m : LMean) (pass0 : List LaneRef) : List LaneRef :=
  if m.split then
    match slotsOf pass0 with
    | [] => pass0
    | sl :: sls => pass0.filter (fun r => r.slot == sls.foldl min sl)
  else pass0

/-- What a pass sees as it issues. -/
def passEnv (m : LMean) (core part : Nat) (pass : List LaneRef) (s : State) : LEnv :=
  let pre := s.part core part
  let r0 := pass.headD ⟨0, 0⟩
  let e0 : LEnv := ⟨core, part, pass, [], ((pre.strand r0.slot).lane r0.lane).pc, m.size, pre⟩
  { e0 with act := pass.filter (fun r => (e0.lane r).guard m) }

/-- What comes of the attempt to issue a pass: it issues; it does not, and begins to wait in a queue's list; it is held. -/
inductive PassTry where
  | issues (s : State)
  | waits (s : State)
  | holds

/-- The attempt to issue a pass (03 R61, R77, R78, R81, R84, 08 R180): the field checks whatever the guards, the registers,
convergence, then the entry's effect in ACTIVE. -/
def passTry (m : LMean) (core part : Nat) (pass0 : List LaneRef) (s : State) : PassTry :=
  let pass := passLanes m pass0
  let r0 := pass.headD ⟨0, 0⟩
  let e := passEnv m core part pass s
  if pass.isEmpty then .holds
  else if !(m.valid && m.vs.all (vOk (e.strand r0).nregs)) then .issues (e.raise s r0 ⟨m.bad, 0, 0⟩)
  else if m.conv && !e.whole r0.slot then .issues (e.raise s r0 ⟨.illegalConvergence, 0, 0⟩)
  else if !pass.all (fun r => (e.lane r).issuable m) then .holds
  else
    let s1 := e.advance s
    if e.act.isEmpty then .issues s1
    else match m.eff e s1 with
      | .ok s2 none => .issues s2
      | .ok s2 (some (r, t)) => .issues (e.raise s2 r t)
      | .trap r t => .issues (e.raise s r t)
      | .wait g => .waits (g s)
      | .hold => .holds

/-- The state after a pass that issues or begins to wait. -/
def passResult (m : LMean) (core part : Nat) (pass : List LaneRef) (s : State) : Option State :=
  match passTry m core part pass s with
  | .issues t => some t
  | .waits t => some t
  | .holds => none

/-- The state after a pass is tried: unchanged where it does not issue. -/
def issuePassOf (m : LMean) (core part : Nat) (pass : List LaneRef) (s : State) : State := (passResult m core part pass s).getD s

/-- The issue of one lane instruction by the pass whose turn it is (log 7). -/
def runPass (m : LMean) (s : State) : Out := .next (issuePassOf m s.turn.core s.turn.part s.turn.pass s)

/-! ### Arithmetic forms -/

/-- A meaning with its guard fields. -/
def laneMean (f : LLong) (size : Nat) (valid : Bool) (vs : List (Nat × Bool)) (ps : List Nat) (eff : LEnv → State → LRes) :
    LMean := ⟨f.gn, f.gp.toNat, size, valid, .illegalOp, vs, f.gp.toNat :: ps, false, false, eff⟩

/-- Write a result in every active lane, with the flags of all of them (07 R154). -/
def LEnv.results (e : LEnv) (s : State) (wide : Bool) (d : Nat) (g : LaneRef → Nat × NFlags) : LRes :=
  let x := e.act.foldl (fun (x : State × NFlags) r =>
    let y := g r
    (e.writeV x.1 r wide d y.1, x.2 ||| y.2)) (s, (0 : NFlags))
  .ok (if x.2 = 0 then x.1 else e.flags x.1 x.2) none

/-- Two sources, the second of which may be an immediate when `immForm`. -/
def laneBin (f : LLong) (size : Nat) (tys : List Nat) (mask : Nat) (immForm : Bool)
    (g : Nat → Nat → Nat → Nat → Nat × NFlags) : LMean :=
  let ty := f.ty.toNat
  let w := tyWide ty
  laneMean f size (tys.contains ty && modIn f mask && bOk f immForm && (immForm || f.imm.toNat == 0))
    ((f.d.toNat, w) :: (f.a.toNat, w) :: bRegs f immForm w) []
    (fun e s => e.results s w f.d.toNat (fun r =>
      g ty f.mod.toNat ((e.lane r).getW w f.a.toNat) (e.srcB f immForm ty r)))

/-- One source, in field a; `narrow` writes a 32-bit result whatever the type. -/
def laneUn (f : LLong) (size : Nat) (tys : List Nat) (mask : Nat) (narrow : Bool) (g : Nat → Nat → Nat → Nat × NFlags) : LMean :=
  let ty := f.ty.toNat
  let w := tyWide ty
  laneMean f size (tys.contains ty && modIn f mask && f.b.toNat == 0 && !f.u && f.imm.toNat == 0)
    [(f.d.toNat, w && !narrow), (f.a.toNat, w)] []
    (fun e s => e.results s (w && !narrow) f.d.toNat (fun r => g ty f.mod.toNat ((e.lane r).getW w f.a.toNat)))

/-- Three sources, in fields a, b and c; `extMask` are the bits of `ext` the entry defines. -/
def laneTern (f : LLong) (size : Nat) (tys : List Nat) (mask extMask : Nat)
    (g : Nat → Nat → Nat → Nat → Nat → Nat × NFlags) : LMean :=
  let ty := f.ty.toNat
  let w := tyWide ty
  laneMean f size (tys.contains ty && modIn f mask && Nat.lor f.ext extMask == extMask && (!f.u || f.b.toNat < 32))
    ((f.d.toNat, w) :: (f.a.toNat, w) :: (f.c, w) :: bRegs f false w) []
    (fun e s => e.results s w f.d.toNat (fun r =>
      g ty f.mod.toNat ((e.lane r).getW w f.a.toNat) (e.srcB f false ty r) ((e.lane r).getW w f.c)))

/-- A comparison into p[d[2:0]] (07 R160, R165): condition in `mod`[2:0], I in `mod`[3]. -/
def laneCmp (f : LLong) (size : Nat) (tys : List Nat) (ccMax : Nat) (g : Nat → Nat → Nat → Nat → Bool × NFlags) : LMean :=
  let ty := f.ty.toNat
  let w := tyWide ty
  let cc := f.mod.toNat % 8
  laneMean f size (tys.contains ty && cc ≤ ccMax && bOk f true && f.d.toNat < 8)
    ((f.a.toNat, w) :: bRegs f true w) [f.d.toNat]
    (fun e s =>
      let x := e.act.foldl (fun (x : State × NFlags) r =>
        let y := g ty cc ((e.lane r).getW w f.a.toNat) (e.srcB f true ty r)
        (e.writeP x.1 r f.d.toNat y.1, x.2 ||| y.2)) (s, (0 : NFlags))
      .ok (if x.2 = 0 then x.1 else e.flags x.1 x.2) none)

/-! ### Memory forms -/

/-- The first lane in ascending order that fails a check, checks made for all lanes one after another (07 R172). -/
def firstLane (rs : List LaneRef) (checks : List (LaneRef → Option Trap)) : Option (LaneRef × Trap) :=
  checks.findSome? (fun c => rs.findSome? (fun r => (c r).map (fun t => (r, t))))

/-- The apertures a Landing access may use: 0 local, 1 cluster, 2 either (07 R172, R178). -/
def landRangeBad (ap a size : Nat) : Bool :=
  let loc := a < 0x800000
  let clu := 0x1000000 ≤ a && a < 0x3000000
  let within := if ap = 0 then loc else if ap = 1 then clu else loc || clu
  !within || (match landingPlace 0 a with | some (_, off) => off < 0x1000 && size != 8 | none => true)

/-- The Landing checks of every active lane (07 R172). -/
def landChecks (ap size : Nat) (acc : Access) (ea : LaneRef → Nat) : List (LaneRef → Option Trap) :=
  [fun r => if landRangeBad ap (ea r) size then some (trapRange (BitVec.ofNat 64 (ea r)) acc size) else none,
   fun r => if ea r % size ≠ 0 then some (trapAlign (BitVec.ofNat 64 (ea r)) acc size) else none]

/-- The global checks of every active lane that come before translation (07 R172). -/
def globalChecks (size : Nat) (acc : Access) (ea : LaneRef → Nat) : List (LaneRef → Option Trap) :=
  [fun r => if ea r / 2 ^ 54 ≠ 0 then some (trapPage (BitVec.ofNat 64 (ea r)) 3 acc 0) else none,
   fun r => if ea r % size ≠ 0 then some (trapAlign (BitVec.ofNat 64 (ea r)) acc size) else none]

/-- Translate the address of every active lane, in ascending order. A poisoned page traps only once every lane's
translation has passed (02 R40, 16 R331). -/
def LEnv.xlateAll (e : LEnv) (acc : Access) (ea : LaneRef → Nat) (rs : List LaneRef) (s : State) :
    Except (LaneRef × Trap) (List (LaneRef × Nat × Bool) × State) :=
  match rs with
  | [] => .ok ([], s)
  | r :: rest =>
    match s.xlate (e.agent s) acc (BitVec.ofNat 64 (ea r)) with
    | .error t =>
      if t.cls = .memUncorrectable then
        (match e.xlateAll acc ea rest s with
         | .error z => if z.2.cls = .page then .error z else .error (r, t)
         | .ok _ => .error (r, t))
      else .error (r, t)
    | .ok x =>
      match e.xlateAll acc ea rest x.s with
      | .error z => .error z
      | .ok (l, s2) => .ok ((r, x.pa, x.poisoned) :: l, s2)

/-- The core and offset of a Landing address of the pass, after view redirection (14 R308). -/
def LEnv.place (e : LEnv) (s : State) (a : Nat) : Nat × Nat :=
  (landingPlace e.core ((s.core e.core).redirect (e.agent s).task true a)).getD (e.core, 0x1000)

/-- The newest byte that an entry of the lane's strand holds for a location (11 R267). -/
def Strand.forward (st : Strand) (lane m off : Nat) : Option Byte :=
  (st.spills.reverse.findSome? (fun x => (x.pieces.reverse.find? (fun p =>
    p.lane == lane && p.core == m && p.off ≤ off && off < p.off + p.bytes.length)).map (fun p => p.bytes.getD (off - p.off) 0)))

/-- A Landing read of a lane: its forwarded bytes, or those of the bank, with whether the bank's are uncorrectable; `none`
while part is forwarded and part is not (11 R267, 15 R317). -/
def LEnv.landLoad (e : LEnv) (s : State) (r : LaneRef) (m off n : Nat) : Option (Nat × Bool) :=
  let fw := (List.range n).map (fun i => (e.strand r).forward r.lane m (off + i))
  if fw.all Option.isSome then some (numOf (fw.map (fun b => b.getD 0)), false)
  else if fw.all Option.isNone then some ((s.core m).landRead off n, (s.core m).landBad off n)
  else none

/-- Extend a loaded value by its type (07 R173). -/
def loadExtend (ty x : Nat) : Nat :=
  if ty = 0x04 then ofSigned 32 (toSigned 8 x) else if ty = 0x05 then ofSigned 32 (toSigned 16 x) else x

/-- A long-latency producer: pending bits, and the result on its way (03 R61). -/
def LEnv.produce (e : LEnv) (s : State) (r : LaneRef) (wide : Bool) (d : Nat) (src : ResSrc) (v va : Word) (lines : List Nat) : State :=
  e.modStrand s r.slot (fun st =>
    { st.modLane r.lane (fun l => { l with pendV := (if wide then [d, d + 1] else [d]) ++ l.pendV }) with
        results := st.results ++ [⟨r.lane, d, wide, st.ev.inh && 120 ≤ d, src, v, lines, va, e.pc, s.cycle, e.lead⟩] })

/-- The reds of the pass's strands on a location are performed before a later access of the strand to it (07 R174). -/
def LEnv.settleReds (e : LEnv) (s : State) (space m a n : Nat) : State :=
  (slotsOf e.pass).foldl (fun (x : State) sl =>
    let st := x.strand e.core e.part sl
    let hit (q : Red) : Bool := q.space == space && (space == 0 || q.core == m) && q.addr < a + n && a < q.addr + tySize q.ty
    let x1 := (st.reds.filter hit).foldl (fun (y : State) q => y.performRed e.core e.part sl st.gang q) x
    x1.modStrand e.core e.part sl (fun st => { st with reds := st.reds.filter (fun q => !hit q) })) s

/-- Whether a store of the strand to a Landing range still waits at its bank. -/
def Strand.spillMeets (st : Strand) (m off n : Nat) : Bool :=
  st.spills.any (fun x => x.pieces.any (fun p => !p.served && p.core == m && p.off < off + n && off < p.off + p.bytes.length))

/-- A Landing load pass (07 R171 to R175, R178): `slow` for a long-latency producer. -/
def LEnv.loadL (e : LEnv) (s : State) (slow : Bool) (ap ty d : Nat) (ea : LaneRef → Nat) : LRes :=
  let n := tySize ty
  match firstLane e.act (landChecks ap n .read ea) with
  | some (r, t) => .trap r t
  | none =>
    let s0 := e.act.foldl (fun (x : State) r => let pl := e.place x (ea r); e.settleReds x 1 pl.1 pl.2 n) s
    let vals := e.act.map (fun r => let pl := e.place s0 (ea r); (r, pl, e.landLoad s0 r pl.1 pl.2 n))
    let got (v : LaneRef × (Nat × Nat) × Option (Nat × Bool)) : Nat × Bool := v.2.2.getD (0, false)
    if vals.any (fun v => v.2.2.isNone) then .hold
    else if slow then
      .ok (vals.foldl (fun (x : State) v =>
        e.produce x v.1 (tyWide ty) d .value (BitVec.ofNat 64 (loadExtend ty (got v).1)) (BitVec.ofNat 64 (ea v.1))
          (if (got v).2 then [badMark] else [])) s0) none
    else
      match vals.find? (fun v => (got v).2) with
      | some v => .ok s0 (some (v.1, trapMem (BitVec.ofNat 64 (ea v.1)) .read false))
      | none => .ok (vals.foldl (fun (x : State) v => e.writeV x v.1 (tyWide ty) d (loadExtend ty (got v).1)) s0) none

/-- A lane store into the restart copy of an instance spoils it (12 R276). -/
def State.spoil (s : State) (m off n : Nat) : State :=
  s.modCore m (fun c => { c with jobs := c.jobs.map (fun j =>
    if j.scratch = 0 then j
    else
      let g := (s.task j.task).gbase
      let sc := natField (match j.kind with | .routine _ e => e | _ => 0) 115 104 * 128
      let ps := j.parts.filter (fun p => decide (off < g + (p + 1) * j.scratch) && decide (g + p * j.scratch + sc < off + n))
      { j with spoiled := ps ++ j.spoiled }) })

/-- The number of a strand's next forwarding entry. -/
def Strand.nextSpill (st : Strand) : Nat := st.spills.foldl (fun m q => max m (q.id + 1)) 0

/-- A Landing store pass takes an entry of each strand's forwarding table (11 R267), and its bytes wait at their banks: one
request for each bank it reaches, which holds the bytes of its lanes in ascending order (07 R174, 09 R217). -/
def LEnv.storeL (e : LEnv) (s : State) (ap ty : Nat) (ea : LaneRef → Nat) (data : LaneRef → Nat) : LRes :=
  let n := tySize ty
  match firstLane e.act (landChecks ap n .write ea) with
  | some (r, t) => .trap r t
  | none =>
    let slots := slotsOf e.act
    if slots.any (fun sl => decide (16 ≤ (e.pre.strand sl).spills.length)) then .hold
    else
      let s0 := e.act.foldl (fun (x : State) r =>
        let pl := e.place x (ea r); (e.settleReds x 1 pl.1 pl.2 n).spoil pl.1 pl.2 n) s
      let ps : List (LaneRef × SpillPiece) := e.act.map (fun r =>
        let pl := e.place s0 (ea r); (r, ⟨r.lane, pl.1, pl.2, bytesOf n (data r), false⟩))
      let s1 := slots.foldl (fun (x : State) sl => e.modStrand x sl (fun st =>
        { st with spills := st.spills ++ [⟨st.nextSpill, (ps.filter (fun p => p.1.slot == sl)).map Prod.snd⟩] })) s0
      .ok (((ps.map (fun p => (p.2.core, bankOf p.2.off))).eraseDups).foldl (fun (x : State) b =>
        let here := ps.filter (fun p => p.2.core == b.1 && bankOf p.2.off == b.2)
        x.bankPut b.1 ⟨b.2, 4, none, e.core, none, e.part,
          (slotsOf (here.map Prod.fst)).map (fun sl => (sl, (e.pre.strand sl).nextSpill)),
          here.map (fun p => (p.2.off, p.2.bytes))⟩) s1) none

/-- A global load pass: every lane's value of the core's view, on its way (07 R172 to R174, 11 R257). -/
def LEnv.loadG (e : LEnv) (s : State) (ty d : Nat) (ea : LaneRef → Nat) : LRes :=
  let n := tySize ty
  match firstLane e.act (globalChecks n .read ea) with
  | some (r, t) => .trap r t
  | none =>
    match e.xlateAll .read ea e.act s with
    | .error (r, t) => .trap r t
    | .ok (pas, s1) =>
      let s2 := pas.foldl (fun (x : State) p => e.settleReds x 0 0 p.2.1 n) s1
      .ok (pas.foldl (fun (x : State) p =>
        e.produce x p.1 (tyWide ty) d .value (BitVec.ofNat 64 (loadExtend ty ((s2.core e.core).viewRead p.2.1 n)))
          (BitVec.ofNat 64 (ea p.1)) (readUnits p.2.1 p.2.2)) s2) none

/-- A global store pass: the bytes of every lane enter the core's write set, the highest lane's newest (07 R174). -/
def LEnv.storeG (e : LEnv) (s : State) (ty : Nat) (ea : LaneRef → Nat) (data : LaneRef → Nat) : LRes :=
  let n := tySize ty
  match firstLane e.act (globalChecks n .write ea) with
  | some (r, t) => .trap r t
  | none =>
    match e.xlateAll .write ea e.act s with
    | .error (r, t) => .trap r t
    | .ok (pas, s1) =>
      let s2 := pas.foldl (fun (x : State) p => e.settleReds x 0 0 p.2.1 n) s1
      .ok (pas.foldl (fun (x : State) p => x.plainStore e.core (e.issuer p.1) p.2.1 (bytesOf n (data p.1))) s2) none

/-- The address of a direct load or store (07 R172): modulo 2^32 for Landing, 2^64 for global. -/
def LEnv.directEa (e : LEnv) (f : LLong) (global addU : Bool) (r : LaneRef) : Nat :=
  let w := if global then 64 else 32
  let base := (e.lane r).getW global f.a.toNat
  let u := if addU && f.u then ((e.strand r).getS f.b.toNat).toNat else 0
  ofSigned w (((base + u : Nat) : Int) + f.imm.toInt)

/-- The fields of a direct load (07 R171). -/
def loadOk (f : LLong) : Bool :=
  tysLoad.contains f.ty.toNat && f.mod.toNat == 0 && (if f.u then f.b.toNat < 32 else f.b.toNat == 0)

/-- The fields of a direct store (07 R171). -/
def storeOk (f : LLong) : Bool :=
  tysStore.contains f.ty.toNat && f.mod.toNat == 0 && f.d.toNat == 0 && (!f.u || f.b.toNat < 32)

/-- A mean marked converged (08 R180), and so never fused. -/
def LMean.converged (m : LMean) : LMean := { m with conv := true, split := true }
/-- A mean never fused (03 R67). -/
def LMean.unfused (m : LMean) : LMean := { m with split := true }

/-- The lowest-numbered active lane (03 R62, 08 R180). -/
def LEnv.first (e : LEnv) : LaneRef := e.act.headD ⟨0, 0⟩

end Sys2Proof.Machine
end

