-- ==== Sys2Proof/Machine/LaneMem.lean ====
section
/-! DEFINITION. The lane memory instructions: loads, stores, tile elements, gathers, atomics and queues (spec 07 R171 to
R178, 08 R192 to R197). -/
namespace Sys2Proof.Machine

/-! ### Direct loads and stores (07 R171) -/

/-- ld.l in either form: the local aperture, at once. -/
def laneLoadL (f : LLong) (size : Nat) : LMean :=
  laneMean f size (loadOk f) [(f.d.toNat, tyWide f.ty.toNat), (f.a.toNat, false)] []
    (fun e s => e.loadL s false 0 f.ty.toNat f.d.toNat (e.directEa f false true))

/-- st.l in either form: the local or the cluster aperture. -/
def laneStoreL (f : LLong) (size : Nat) : LMean :=
  let w := tyWide f.ty.toNat
  laneMean f size (storeOk f) ((f.a.toNat, false) :: bRegs f false w) []
    (fun e s => e.storeL s 2 f.ty.toNat (e.directEa f false false) (fun r => e.srcB f false f.ty.toNat r))

/-- ld.l, short form (07 R171) -/
def passLaneLdL (f : LShort) : LMean := laneLoadL (longOf f tyB32) 4
/-- ld.l, short form: issued by the pass whose turn it is. -/
def execLaneLdL (f : LShort) (s : State) : Out := runPass (passLaneLdL f) s
/-- ld.l, long form (07 R171) -/
def passLaneLdLLong (f : LLong) : LMean := laneLoadL f 8
/-- ld.l, long form: issued by the pass whose turn it is. -/
def execLaneLdLLong (f : LLong) (s : State) : Out := runPass (passLaneLdLLong f) s

/-- st.l, short form (07 R171) -/
def passLaneStL (f : LShort) : LMean := laneStoreL (longOf f tyB32) 4
/-- st.l, short form: issued by the pass whose turn it is. -/
def execLaneStL (f : LShort) (s : State) : Out := runPass (passLaneStL f) s
/-- st.l, long form (07 R171) -/
def passLaneStLLong (f : LLong) : LMean := laneStoreL f 8
/-- st.l, long form: issued by the pass whose turn it is. -/
def execLaneStLLong (f : LLong) (s : State) : Out := runPass (passLaneStLLong f) s

/-- ld.g (07 R171) -/
def passLaneLdG (f : LLong) : LMean :=
  laneMean f 8 (loadOk f) [(f.d.toNat, tyWide f.ty.toNat), (f.a.toNat, true)] []
    (fun e s => e.loadG s f.ty.toNat f.d.toNat (e.directEa f true true))
/-- ld.g: issued by the pass whose turn it is. -/
def execLaneLdG (f : LLong) (s : State) : Out := runPass (passLaneLdG f) s

/-- st.g (07 R171) -/
def passLaneStG (f : LLong) : LMean :=
  let w := tyWide f.ty.toNat
  laneMean f 8 (storeOk f) ((f.a.toNat, true) :: bRegs f false w) []
    (fun e s => e.storeG s f.ty.toNat (e.directEa f true false) (fun r => e.srcB f false f.ty.toNat r))
/-- st.g: issued by the pass whose turn it is. -/
def execLaneStG (f : LLong) (s : State) : Out := runPass (passLaneStG f) s

/-- ld.c: the cluster aperture, long-latency (07 R171, R173) -/
def passLdC (f : LLong) : LMean :=
  laneMean f 8 (loadOk f) [(f.d.toNat, tyWide f.ty.toNat), (f.a.toNat, false)] []
    (fun e s => e.loadL s true 1 f.ty.toNat f.d.toNat (e.directEa f false true))
/-- ld.c: issued by the pass whose turn it is. -/
def execLdC (f : LLong) (s : State) : Out := runPass (passLdC f) s

/-! ### Tile elements (07 R176, R177) -/

/-- The rows and columns of an operand position; `none` for an x register or none. -/
def posLimits (j : Job) (part pos : Nat) : Option (Nat × Nat) :=
  match j.ops.getD pos .none with
  | .tile t => some ((j.tcr part t).rows, (j.tcr part t).cols)
  | .acc z => some (128, accCols (j.accTy part z))
  | _ => none

/-- Whether a type fits the element (07 R177). -/
def elemTyOk (j : Job) (part pos ty : Nat) (sc load : Bool) : Bool :=
  match j.ops.getD pos .none with
  | .acc z => !sc && ty == (if j.accTy part z = 3 then tyB64 else tyB32)
  | .tile t =>
    let tl := j.tcr part t
    if sc then tl.fmt.block && ty == (if load then tyN8 else tyB8)
    else match tl.fmt.bits with
      | 64 => ty == tyB64
      | 32 => ty == tyB32
      | 16 => if load then ty == tyN16 || ty == tyS16 || ty == tyB16 else ty == tyB16
      | 8 => if load then ty == tyN8 || ty == tyS8 || ty == tyB8 else ty == tyB8
      | _ => if load then ty == tyN8 || ty == tyS8 else ty == tyB8
  | _ => false

/-- The checks of ldt and stt: TILE_STATE, FORMAT, for the pass and for each lane's row and column. -/
def tileChecks (f : LLong) (load : Bool) (e : LEnv) (s : State) : Option (LaneRef × Trap) :=
  let j := e.job s
  let pos := f.imm.toNat % 4
  let sc := f.imm.toNat / 4 % 2 == 1
  let inOnly := natField (entryRole j.entry pos) 5 4 == 0
  match posLimits j e.part pos with
  | none => some (e.first, ⟨.tileState, 0, 0⟩)
  | some (rows, cols) =>
    if !load && inOnly then some (e.first, ⟨.tileState, 0, 0⟩)
    else
      match e.act.find? (fun r => decide (rows ≤ (e.lane r).getV f.a.toNat) || decide (cols ≤ e.srcB f false tyB32 r)) with
      | some r => some (r, ⟨.tileState, 0, 0⟩)
      | none => if elemTyOk j e.part pos f.ty.toNat sc load then none else some (e.first, ⟨.format, 0, 0⟩)

/-- Whether a figure that the gang issued holds an access to an operand position back (08 R209). -/
def subFigHolds (s : State) (e : LEnv) (pos : Nat) (load : Bool) : Bool :=
  let j := e.job s
  let reg : Nat × Bool × Nat := match j.ops.getD pos .none with
    | .tile t => (e.part, false, t) | .acc z => (e.part, true, z) | _ => (e.part, false, 99)
  (s.core e.core).jobs.any (fun q => q.parent == some j.id && (q.writes.contains reg || (!load && q.reads.contains reg)))

/-- The byte offset of a scale byte of a tile. -/
def scaleIndex (tl : Tile) (i c : Nat) : Nat := tl.scoff + tl.scaleAt i c

/-- The value of an element, and the units read. -/
def tileLoad (f : LLong) (e : LEnv) (s : State) (r : LaneRef) : Nat × List Nat :=
  let j := e.job s
  let pos := f.imm.toNat % 4
  let i := (e.lane r).getV f.a.toNat
  let c := e.srcB f false tyB32 r
  match j.ops.getD pos .none with
  | .acc z =>
    let ph := (s.ctx e.core j.ctx).accMap.getD z 0
    (accGet (s.part e.core e.part).acc ph (j.accTy e.part z) i c, [accUnit e.core e.part (ph * 128 + i)])
  | .tile _ =>
    let v := s.view e.core j e.part pos
    if f.imm.toNat / 4 % 2 = 1 then
      let a := v.at_ + scaleIndex v.tile i c
      ((v.mem.byte a).toNat, [obufUnit e.core e.part a])
    else
      let w := v.tile.fmt.bits
      let x := v.code i c
      let a := v.at_ + i * v.tile.stride + c * w / 8
      (if tySigned f.ty.toNat then ofSigned 32 (toSigned w x) else x,
        (List.range ((w * (c + 1) + 7) / 8 - w * c / 8)).map (fun q => obufUnit e.core e.part (a + q)))
  | _ => (0, [])

/-- Write an element (07 R177). -/
def tileStore (f : LLong) (e : LEnv) (s : State) (r : LaneRef) : State :=
  let j := e.job s
  let pos := f.imm.toNat % 4
  let i := (e.lane r).getV f.a.toNat
  let c := e.srcB f false tyB32 r
  let x := (e.lane r).getW (tyWide f.ty.toNat) f.d.toNat
  match j.ops.getD pos .none with
  | .acc z =>
    let ph := (s.ctx e.core j.ctx).accMap.getD z 0
    s.modPart e.core e.part (fun p => { p with acc := accSet p.acc ph (j.accTy e.part z) i c x })
  | .tile _ =>
    let v := s.view e.core j e.part pos
    if f.imm.toNat / 4 % 2 = 1 then
      s.setObuf e.core e.part (v.mem.setByte (v.at_ + scaleIndex v.tile i c) (BitVec.ofNat 8 x))
    else s.setObuf e.core e.part (v.setCode i c (x % 2 ^ v.tile.fmt.bits)).mem
  | _ => s

/-- The fields of ldt and stt. -/
def tileOk (f : LLong) : Bool := f.mod.toNat == 0 && f.imm.toNat < 8 && (!f.u || f.b.toNat < 32)

/-- ldt (07 R176) -/
def passLdt (f : LLong) : LMean :=
  let w := tyWide f.ty.toNat
  laneMean f 8 (tileOk f && [0, 1, 2, 3, 4, 5, 8, 9].contains f.ty.toNat)
    ((f.d.toNat, w) :: (f.a.toNat, false) :: bRegs f false false) []
    (fun e s =>
      match tileChecks f true e s with
      | some (r, t) => .trap r t
      | none =>
        if subFigHolds s e (f.imm.toNat % 4) true then .hold
        else .ok (e.act.foldl (fun (x : State) r =>
          let v := tileLoad f e s r
          e.produce x r w f.d.toNat .value (BitVec.ofNat 64 v.1) 0 v.2) s) none)
/-- ldt: issued by the pass whose turn it is. -/
def execLdt (f : LLong) (s : State) : Out := runPass (passLdt f) s

/-- stt (07 R176) -/
def passStt (f : LLong) : LMean :=
  let w := tyWide f.ty.toNat
  laneMean f 8 (tileOk f && tysStore.contains f.ty.toNat) ((f.d.toNat, w) :: (f.a.toNat, false) :: bRegs f false false) []
    (fun e s =>
      match tileChecks f false e s with
      | some (r, t) => .trap r t
      | none =>
        if subFigHolds s e (f.imm.toNat % 4) false then .hold
        else .ok (e.act.foldl (fun (x : State) r => tileStore f e x r) s) none)
/-- stt: issued by the pass whose turn it is. -/
def execStt (f : LLong) (s : State) : Out := runPass (passStt f) s

/-! ### Gather and scatter (03 R79, 07 R178) -/

/-- The fields of `ext`. -/
def gatherWide (f : LLong) : Bool := f.ext / 128 == 3
def gatherLanding (f : LLong) : Bool := f.ext / 4 % 2 == 1

/-- The v registers that the address names. -/
def gatherRegs (f : LLong) : List (Nat × Bool) := (f.a.toNat, gatherWide f) :: bRegs f false (!gatherLanding f)

/-- The address of a lane (03 R79). -/
def LEnv.gatherEa (e : LEnv) (f : LLong) (r : LaneRef) : Nat :=
  let w := 8 * 2 ^ (f.ext / 128)
  let raw := (e.lane r).getW (gatherWide f) f.a.toNat
  let ix : Int := if f.ext / 64 % 2 = 1 then toSigned w raw else (raw % 2 ^ w : Nat)
  let land := gatherLanding f
  let base := if f.u then ((e.strand r).getS f.b.toNat).toNat else (e.lane r).getW (!land) f.b.toNat
  ofSigned (if land then 32 else 64) ((base : Nat) + ix * (2 ^ (f.ext / 8 % 8) : Nat))

/-- ldx (07 R178) -/
def passLdx (f : LLong) : LMean :=
  laneMean f 8 (tysLoad.contains f.ty.toNat && f.mod.toNat == 0 && f.ext % 4 == 0 && f.c == 0 && (!f.u || f.b.toNat < 32))
    ((f.d.toNat, tyWide f.ty.toNat) :: gatherRegs f) []
    (fun e s => if gatherLanding f then e.loadL s true 2 f.ty.toNat f.d.toNat (e.gatherEa f)
      else e.loadG s f.ty.toNat f.d.toNat (e.gatherEa f))
/-- ldx: issued by the pass whose turn it is. -/
def execLdx (f : LLong) (s : State) : Out := runPass (passLdx f) s

/-- stx (07 R178) -/
def passStx (f : LLong) : LMean :=
  let w := tyWide f.ty.toNat
  laneMean f 8 (tysStore.contains f.ty.toNat && f.mod.toNat == 0 && f.ext % 4 == 0 && f.d.toNat == 0 && (!f.u || f.b.toNat < 32))
    ((f.c, w) :: gatherRegs f) []
    (fun e s => if gatherLanding f then e.storeL s 2 f.ty.toNat (e.gatherEa f) (fun r => (e.lane r).getW w f.c)
      else e.storeG s f.ty.toNat (e.gatherEa f) (fun r => (e.lane r).getW w f.c))
/-- stx: issued by the pass whose turn it is. -/
def execStx (f : LLong) (s : State) : Out := runPass (passStx f) s

/-! ### Atomics and reds (08 R192 to R194) -/

/-- The address of an atomic: the base at a plus a signed offset. -/
def LEnv.atomEa (e : LEnv) (f : LLong) (land : Bool) (off : Int) (r : LaneRef) : Nat :=
  ofSigned (if land then 32 else 64) (((e.lane r).getW (!land) f.a.toNat : Nat) + off)

/-- The checks of an atomic pass, then the operation in each active lane in ascending order at its home: `op` gives the
new value of a lane, and the old value is on its way to v[d]. An atomic whose read is uncorrectable writes nothing
(log 51). -/
def LEnv.atomics (e : LEnv) (s : State) (f : LLong) (land : Bool) (n : Nat) (ea : LaneRef → Nat)
    (op : LaneRef → Nat → Nat × NFlags) : LRes :=
  let w := tyWide f.ty.toNat
  if land then
    match firstLane e.act (landChecks 2 n .atomic ea) with
    | some (r, t) => .trap r t
    | none =>
      if e.act.any (fun r => let pl := e.place s (ea r); (e.strand r).spillMeets pl.1 pl.2 n) then .hold
      else .ok (e.act.foldl (fun (x : State) r =>
        let pl := e.place x (ea r)
        let x0 := e.settleReds x 1 pl.1 pl.2 n
        if (x0.core pl.1).landBad pl.2 n then
          e.produce x0 r w f.d.toNat .value 0 (BitVec.ofNat 64 (ea r)) [badMark, atomMark]
        else
          let y := x0.atomL pl.1 pl.2 n (op r)
          e.produce (e.flags y.2.2 y.2.1) r w f.d.toNat .value (BitVec.ofNat 64 y.1) (BitVec.ofNat 64 (ea r)) [atomMark]) s) none
  else
    match firstLane e.act (globalChecks n .atomic ea) with
    | some (r, t) => .trap r t
    | none =>
      match e.xlateAll .atomic ea e.act s with
      | .error (r, t) => .trap r t
      | .ok (pas, s1) =>
        .ok (pas.foldl (fun (x : State) p =>
          let x0 := e.settleReds x 0 0 p.2.1 n
          if p.2.2 || x0.lineBad p.2.1 then
            e.produce x0 p.1 w f.d.toNat .value 0 (BitVec.ofNat 64 (ea p.1)) [if p.2.2 then poisonMark else badMark, atomMark]
          else
            let y := x0.atomG e.core (e.issuer p.1) p.2.1 n (op p.1)
            e.produce (e.flags y.2.2 y.2.1) p.1 w f.d.toNat .value (BitVec.ofNat 64 y.1) (BitVec.ofNat 64 (ea p.1)) [atomMark]) s1) none

/-- The fields of atom and red: L, offset. -/
def atomLand (f : LLong) : Bool := f.imm.toNat / 32768 == 1
def atomOff (f : LLong) : Int := toSigned 15 f.imm.toNat
def atomOk (f : LLong) : Bool := atomTyOk f.mod.toNat f.ty.toNat && (!f.u || f.b.toNat < 32)

/-- atom (08 R192, R193) -/
def passAtom (f : LLong) : LMean :=
  let ty := f.ty.toNat
  let w := tyWide ty
  laneMean f 8 (atomOk f) ((f.d.toNat, w) :: (f.a.toNat, !atomLand f) :: bRegs f false w) []
    (fun e s => e.atomics s f (atomLand f) (tySize ty) (e.atomEa f (atomLand f) (atomOff f))
      (fun r old => atomVal f.mod.toNat ty old (e.srcB f false ty r)))
/-- atom: issued by the pass whose turn it is. -/
def execAtom (f : LLong) (s : State) : Out := runPass (passAtom f) s

/-- atom.cas (08 R194): `ext`[8] is L, `ext`[7:0] the offset in units of the access size. -/
def passAtomCas (f : LLong) : LMean :=
  let ty := f.ty.toNat
  let w := tyWide ty
  let land := f.ext / 256 == 1
  laneMean f 8 (tysBits.contains ty && f.mod.toNat == 0 && !f.u)
    [(f.d.toNat, w), (f.a.toNat, !land), (f.b.toNat, w), (f.c, w)] []
    (fun e s => e.atomics s f land (tySize ty) (e.atomEa f land (toSigned 8 f.ext * (tySize ty : Nat)))
      (fun r old => (if old = (e.lane r).getW w f.b.toNat then (e.lane r).getW w f.c else old, 0)))
/-- atom.cas: issued by the pass whose turn it is. -/
def execAtomCas (f : LLong) (s : State) : Out := runPass (passAtomCas f) s

/-- red (08 R192, R193): the lane continues, and the operation is performed later (RED_PERFORM). -/
def passRed (f : LLong) : LMean :=
  let ty := f.ty.toNat
  let w := tyWide ty
  let n := tySize ty
  let land := atomLand f
  laneMean f 8 (atomOk f && f.d.toNat == 0) ((f.a.toNat, !land) :: bRegs f false w) []
    (fun e s =>
      let ea := e.atomEa f land (atomOff f)
      let add (x : State) (r : LaneRef) (space m a : Nat) : State := e.modStrand x r.slot (fun st =>
        { st with reds := st.reds ++ [⟨r.lane, f.mod.toNat, ty, m, space, a, BitVec.ofNat 64 (e.srcB f false ty r), BitVec.ofNat 64 (ea r), e.pc, s.cycle, e.lead⟩] })
      if land then
        match firstLane e.act (landChecks 2 n .atomic ea) with
        | some (r, t) => .trap r t
        | none =>
          if e.act.any (fun r => let pl := e.place s (ea r); (e.strand r).spillMeets pl.1 pl.2 n) then .hold
          else .ok (e.act.foldl (fun (x : State) r => let pl := e.place s (ea r); add x r 1 pl.1 pl.2) s) none
      else
        match firstLane e.act (globalChecks n .atomic ea) with
        | some (r, t) => .trap r t
        | none =>
          match e.xlateAll .atomic ea e.act s with
          | .error (r, t) => .trap r t
          | .ok (pas, s1) => .ok (pas.foldl (fun (x : State) p => add x p.1 0 e.core p.2.1) s1) none)
/-- red: issued by the pass whose turn it is. -/
def execRed (f : LLong) (s : State) : Out := runPass (passRed f) s

/-! ### Queues (08 R195 to R197) -/

/-- The ring of a bound queue. -/
def Core.queueRing (c : Core) (q : Nat) : Option Ring := (c.queue q).ring.map (fun r => c.ring r)

/-- The Landing offset of slot `i` of a ring, counted since binding. -/
def Ring.slotAt (r : Ring) (i : Nat) : Nat := r.base + (if r.slots = 0 then 0 else i % r.slots) * r.slotsz

/-- How many slots from `i` on are filled. -/
def runFrom (fs : List Nat) (i fuel : Nat) : Nat :=
  match fuel with
  | 0 => 0
  | n + 1 => if fs.contains i then 1 + runFrom fs (i + 1) n else 0

/-- Slot number `i` is filled; entries become visible in the order of their slots (08 R196, 09 R223). -/
def Queue.fillSlot (x : Queue) (i : Nat) : Queue :=
  let fs := i :: x.filled
  let n := runFrom fs x.visible fs.length
  { x with entries := x.entries + n, visible := x.visible + n, filled := fs.filter (fun j => decide (x.visible + n ≤ j)) }

/-- The next slot number to take. -/
def Queue.nextSlot (x : Queue) (slots : Nat) : Nat := x.head + (slots - x.free)

/-- Push one value: its slot's bytes are written, and the entry is visible (08 R196). -/
def State.qPushOne (s : State) (k q n v : Nat) : State :=
  match (s.core k).queueRing q with
  | none => s
  | some ring =>
    let qu := (s.core k).queue q
    let i := qu.nextSlot ring.slots
    let s1 := s.modCore k (fun c => c.landWrite (ring.slotAt i) (bytesOf n v))
    s1.modCQueue k q (fun x => { x with free := x.free - 1 }.fillSlot i)

/-- Take the first entry: its value and its Landing offset (08 R196). -/
def State.qPopOne (s : State) (k q n : Nat) : Nat × Nat × State :=
  match (s.core k).queueRing q with
  | none => (0, 0, s)
  | some ring =>
    let qu := (s.core k).queue q
    let off := ring.slotAt qu.head
    ((s.core k).landRead off n, off,
      s.modCQueue k q (fun x => { x with entries := x.entries - 1, free := x.free + 1, head := x.head + 1 }))

/-- The traps of a queue instruction: an unbound queue, and a type wider than a slot (08 R195). -/
def queueTrap (s : State) (k q n : Nat) : Option Trap :=
  match (s.core k).queueRing q with
  | none => some trapIllegal
  | some ring => if ring.slotsz < n then some ⟨.format, 0, 0⟩ else none

/-- The fields of qpush and qpop in `imm`. -/
def queueFieldsOk (f : LLong) : Bool :=
  tysBits.contains f.ty.toNat && f.imm.toNat < 256 && (f.imm.toNat / 16 % 2 == 1 || f.imm.toNat / 32 == 0) &&
    f.a.toNat == 0 && f.mod.toNat == 0
def queueNb (f : LLong) : Bool := f.imm.toNat / 16 % 2 == 1
def queuePred (f : LLong) : Nat := f.imm.toNat / 32 % 8

/-- Whether a lane's push has been granted its place (08 R196). -/
def Lane.granted (l : Lane) : Bool := match l.wait with | .qpush _ g => g | _ => false

/-- Push the values of a pass's lanes, in their order. -/
def LEnv.pushAll (e : LEnv) (f : LLong) (q : Nat) (rs : List LaneRef) (s : State) : State :=
  rs.foldl (fun (x : State) r => x.qPushOne e.core q (tySize f.ty.toNat) (e.srcB f false f.ty.toNat r)) s

/-- The lanes of a pass wait in the list of a queue's pushes; the pass has not issued (08 R196). Each strand of a fused pass
waits as a request of its own, since no pass holds the two together yet (log 59). `val` is 1 for a lane of ACTIVE. -/
def LEnv.joinPushes (e : LEnv) (f : LLong) (q : Nat) (s : State) : State :=
  (slotsOf e.act).foldl (fun (x : State) sl =>
    let rs := e.pass.filter (fun r => r.slot == sl)
    (rs.foldl (fun (y : State) r => e.modLane y r (fun l => { l with wait := .qpush q false })) x).modCQueue e.core q (fun z =>
      { z with pushes := z.pushes ++ [rs.map (fun r =>
        (⟨e.part, sl, r.lane, bit (e.act.contains r), tyWide f.ty.toNat, false, e.pc⟩ : QWait))] })) s

/-- qpush (08 R196). A pass that finds no room does not issue: its lanes wait in the queue's list, and the pass issues
once QPUSH_SERVE has granted it the place. -/
def passQpush (f : LLong) : LMean :=
  let ty := f.ty.toNat
  let n := tySize ty
  let q := f.imm.toNat % 16
  laneMean f 8 (queueFieldsOk f && f.d.toNat == 0 && (!f.u || f.b.toNat < 32)) (bRegs f false (tyWide ty))
    (if queueNb f then [queuePred f] else [])
    (fun e s =>
      match queueTrap s e.core q n with
      | some t => .trap e.first t
      | none =>
        let qu := (s.core e.core).queue q
        let room := if qu.pushes.isEmpty then qu.free else 0
        if queueNb f then
          let served := e.act.take room
          .ok (e.act.foldl (fun (x : State) r => e.writeP x r (queuePred f) (served.contains r)) (e.pushAll f q served s)) none
        else if e.act.all (fun r => (e.lane r).granted) then
          .ok (e.pass.foldl (fun (x : State) r => e.modLane x r (fun l => { l with wait := .none }))
            (e.pushAll f q e.act (s.modCQueue e.core q (fun x => { x with pushes := x.pushes.drop 1 })))) none
        else if e.act.length ≤ room then .ok (e.pushAll f q e.act s) none
        else .wait (e.joinPushes f q))
/-- qpush: issued by the pass whose turn it is. -/
def execQpush (f : LLong) (s : State) : Out := runPass (passQpush f) s

/-- qpop (08 R196) -/
def passQpop (f : LLong) : LMean :=
  let ty := f.ty.toNat
  let w := tyWide ty
  let n := tySize ty
  let q := f.imm.toNat % 16
  laneMean f 8 (queueFieldsOk f && f.b.toNat == 0 && !f.u) [(f.d.toNat, w)] (if queueNb f then [queuePred f] else [])
    (fun e s =>
      match queueTrap s e.core q n with
      | some t => .trap e.first t
      | none =>
        let qu := (s.core e.core).queue q
        if queueNb f then
          let m := if qu.pops.isEmpty then qu.entries else 0
          let served := e.act.take m
          let z := served.foldl (fun (x : State × Bool) r =>
            let y := x.1.qPopOne e.core q n
            (e.writeV y.2.2 r w f.d.toNat y.1, x.2 || (s.core e.core).landBad y.2.1 n)) (s, false)
          if z.2 then .ok s (some (e.first, trapMem 0 .read false))
          else .ok (e.act.foldl (fun (x : State) r => e.writeP x r (queuePred f) (served.contains r)) z.1) none
        else
          let s1 := e.act.foldl (fun (x : State) r => e.modLane x r (fun l =>
            { l with pendV := (if w then [f.d.toNat, f.d.toNat + 1] else [f.d.toNat]) ++ l.pendV })) s
          .ok (s1.modCQueue e.core q (fun x => { x with pops := x.pops ++ [e.act.map (fun r =>
            (⟨e.part, r.slot, r.lane, f.d.toNat, w, (e.strand r).ev.inh && decide (120 ≤ f.d.toNat), e.pc⟩ : QWait))] })) none)
/-- qpop: issued by the pass whose turn it is. -/
def execQpop (f : LLong) (s : State) : Out := runPass (passQpop f) s

/-- qlen (08 R197) -/
def passQlen (f : LLong) : LMean :=
  let q := f.imm.toNat % 16
  laneMean f 8 (f.ty.toNat == tyB32 && f.imm.toNat < 32 && f.a.toNat == 0 && f.b.toNat == 0 && !f.u && f.mod.toNat == 0)
    [(f.d.toNat, false)] []
    (fun e s =>
      match (s.core e.core).queueRing q with
      | none => .trap e.first trapIllegal
      | some _ =>
        let qu := (s.core e.core).queue q
        e.results s false f.d.toNat (fun _ => (if f.imm.toNat / 16 % 2 = 1 then qu.free else qu.entries, 0)))
/-- qlen: issued by the pass whose turn it is. -/
def execQlen (f : LLong) (s : State) : Out := runPass (passQlen f) s

end Sys2Proof.Machine
end

