-- ==== Sys2Proof/Machine/Ferry.lean ====
section
/-! DEFINITION. The nine Ferry commands, and the happenings of Ferry transfers (spec 09 R219 to R242, 16 R345). -/
namespace Sys2Proof.Machine

/-! ### The commands -/

/-- The channel of a command, and whether its fields are legal: sb[5:2] and mb are zero (09 R236). -/
def ferryCh (f : SFields) : Nat := f.sb.toNat % 4
def ferryChOk (f : SFields) : Bool := !f.mb && decide (f.sb.toNat < 4)

/-- Read `n` bytes of local Landing at issue for a command: the address checks, the wait for footprints, and the bytes
as a number (09 R236, 05 R106). Uncorrectable bytes trap as a scalar load's do, and the command has no effect. -/
def SEnv.ferryBytes (env : SEnv) (s : State) (ea : Word) (n : Nat) (k : State → Nat → SlotRes) : SlotRes :=
  let a := ea.toNat
  if a < 0x1000 ∨ 0x800000 < a + n then .trap (trapRange ea .read n)
  else if a % 16 ≠ 0 then .trap (trapAlign ea .read n)
  else if (s.core env.core).footHolds env.ctx true false a (a + n - 1) then .hold s
  else
    let s1 := s.drainCtx env.core env.ctx
    if (s1.landFirstBad env.core env.pre.task a n).isSome then .ok s1 none (some (trapMem ea .read false))
    else k s1 (numOf (s1.landBytes env.core env.pre.task a n))

/-- fdef (09 R221, R237): load a layout record. -/
def slotFdef (f : SFields) (env : SEnv) (s : State) : SlotRes :=
  scalarOp .raw .x .none (decide (f.dst.toNat < 16)) false f env s (fun a _ =>
    env.ferryBytes s (a + sImmS f) 128 (fun s v =>
      let r := BitVec.ofNat 1024 v
      if recIllegal r then .trap trapIllegal
      else if recMisaligned r then .trap (trapAlign (BitVec.ofNat 64 (recBase r)) .read (2 ^ recEsize r))
      else .done (s.modCtx env.core env.ctx (fun c => { c with y := c.y.put f.dst.toNat r }))))
/-- fdef, issued alone. -/
def execFdef (f : SFields) (s : State) : Out := issueOne 1 (slotFdef f) s

/-- Whether an outstanding transfer, or a command still to start one, uses a ring (09 R223). -/
def Core.ringUsed (c : Core) (g : Nat) : Bool :=
  c.chans.any (fun e =>
    (e.2.cmds ++ e.2.parked).any (fun x => x.fpage.isNone && wRing x.desc && wRingno x.desc == g && decide (x.begun < x.count)) ||
    e.2.active.any (fun t => t.cmd.fpage.isNone && wRing t.cmd.desc && wRingno t.cmd.desc == g)) ||
  (match (c.ring g).queue with
   | some q => !(c.queue q).pushes.isEmpty || !(c.queue q).pops.isEmpty
   | none => false)

/-- Ring `g` loses its queue. -/
def Core.unbindRing (c : Core) (g : Nat) : Core :=
  { c with
    queues := c.queues.map (fun e => if e.2.ring == some g then (e.1, Queue.init) else e)
    rings := c.rings.map (fun e => if e.1 == g then (e.1, { e.2 with queue := none }) else e) }

/-- The ring that fring's words define takes effect (09 R222, R223). -/
def Core.defineRing (c : Core) (g : Nat) (w1 w2 : Word) : Core :=
  let slots := fieldNat w2 15 0
  let qn := fieldNat w2 35 32
  let bound := decide (slots ≠ 0) && fieldNat w2 36 36 == 1
  let c1 := c.unbindRing g
  let c2 := if bound then (match (c1.queue qn).ring with | some h => c1.unbindRing h | none => c1) else c1
  let ring : Ring := if slots = 0 then Ring.init
    else ⟨fieldNat w1 31 0, fieldNat w1 52 32, slots, fieldNat w2 24 16, if bound then some qn else none, 0⟩
  let c3 : Core := { c2 with rings := c2.rings.put g ring }
  if bound then { c3 with queues := c3.queues.put qn { Queue.init with ring := some g, free := slots } } else c3

/-- fring (09 R222, R223, R237). The checks of SLOTSZ, RELIX and BASE are made whatever SLOTS is (log 26). -/
def slotFring (f : SFields) (env : SEnv) (s : State) : SlotRes :=
  scalarOp .raw .x .x (decide (f.dst.toNat < 16) && decide (f.imm = 0)) false f env s (fun w1 w2 =>
    let sz := fieldNat w1 52 32
    let base := fieldNat w1 31 0
    let slots := fieldNat w2 15 0
    if fieldNat w1 63 53 ≠ 0 ∨ fieldNat w2 63 37 ≠ 0 ∨ fieldNat w2 31 25 ≠ 0 then .trap trapIllegal
    else if sz % 16 ≠ 0 ∨ sz < 16 ∨ 2 ^ 20 < sz ∨ (fieldNat w2 36 36 = 1 ∧ fieldNat w2 24 16 ≠ 0) then .trap trapIllegal
    else if base < 0x1000 ∨ 0x800000 < base + slots * sz then .trap (trapRange (BitVec.ofNat 64 base) .write 16)
    else if base % 16 ≠ 0 then .trap (trapAlign (BitVec.ofNat 64 base) .write 16)
    else if (s.core env.core).ringUsed f.dst.toNat ||
        (decide (slots ≠ 0) && fieldNat w2 36 36 == 1 &&
          (match ((s.core env.core).queue (fieldNat w2 35 32)).ring with
           | some h => (s.core env.core).ringUsed h | none => false)) then .hold s
    else .done (s.modCore env.core (fun c => c.defineRing f.dst.toNat w1 w2)))
/-- fring, issued alone. -/
def execFring (f : SFields) (s : State) : Out := issueOne 1 (slotFring f) s

/-- Whether an outstanding decoding command uses a code table (09 R237). -/
def Core.codeUsed (c : Core) (t : Nat) : Bool :=
  c.chans.any (fun e =>
    (e.2.cmds ++ e.2.parked).any (fun x => x.fpage.isNone && wDec x.desc && wCodet x.desc == t) ||
    e.2.active.any (fun x => x.cmd.fpage.isNone && wDec x.cmd.desc && wCodet x.cmd.desc == t))

/-- fcode (09 R232, R237): load a code table. -/
def slotFcode (f : SFields) (env : SEnv) (s : State) : SlotRes :=
  scalarOp .raw .x .none (decide (f.dst.toNat < 4)) false f env s (fun a _ =>
    env.ferryBytes s (a + sImmS f) 256 (fun s v =>
      let t := Memory.writeList [] 0 (bytesOf 256 v)
      if codeBad t then .trap ⟨.format, 0, 0⟩
      else if (s.core env.core).codeUsed f.dst.toNat then .hold s
      else .done (s.modCore env.core (fun c => { c with codes := c.codes.put f.dst.toNat t }))))
/-- fcode, issued alone. -/
def execFcode (f : SFields) (s : State) : Out := issueOne 1 (slotFcode f) s

/-- Whether a piece of a declared Landing interval leaves the mapped data ranges (09 R230). -/
def pieceBad (i : Interval) : Bool :=
  !((0x1000 ≤ i.lo && i.hi < 0x800000) || (0x1004000 ≤ i.lo && i.hi < 0x3000000))

/-- The intervals that one side of a command declares, or the trap of the first bad one (09 R230, R238). -/
def Core.ferrySide (c : Core) (task : Option Nat) (d : BitVec 1024) (src : Bool) (r : BitVec 1024) : Except Trap (List Interval) :=
  let acc : Access := if src then .read else .write
  match wInterval d src r with
  | none => .ok []
  | some (lo, hi) =>
    if recSpace r then
      if lo < 0 then .error (trapRange (BitVec.ofNat 64 (ofSigned 32 lo)) acc (2 ^ recEsize r))
      else
        let xs := c.declare task true (!src) lo.toNat hi.toNat
        match xs.find? pieceBad with
        | some i => .error (trapRange (BitVec.ofNat 64 i.lo) acc (2 ^ recEsize r))
        | none => .ok xs
    else if lo < 0 ∨ (2 ^ 54 : Nat) ≤ hi then
      .error (trapPage (BitVec.ofNat 64 (ofSigned 64 (if lo < 0 then lo else hi))) 3 acc 0)
    else .ok (c.declare task false (!src) lo.toNat hi.toNat)

/-- The bad fields of a destination of its kind (09 R226). -/
def destIllegal (d : BitVec 1024) : Bool :=
  wTile d && (List.range 4).any (fun k => wBx d (k + 2) != 0)

/-- Whether a command that decodes breaks R233, or its table is empty. -/
def decBad (c : Core) (d src dst : BitVec 1024) : Bool :=
  wDec d && (recNdim src != 1 || recEsize src != 0 || recWrap src 0 || (List.range 6).any (fun l => wSs d l != 0) ||
    wTile d || (!wRing d && recEsize dst != 0) || (Tab.find c.codes (wCodet d)).isNone)

/-- The traps of fwalk and fcopy in the order of R40 (09 R238, log 27). -/
def walkTrap (s : State) (env : SEnv) (ch : Nat) (d src dst : BitVec 1024) : Option Trap :=
  let co := s.core env.core
  let c := s.ctx env.core env.ctx
  let ring := co.ring (wRingno d)
  let tl := c.tile (wTpart d) (wTidx d)
  let x := co.chan ch
  let n := wCount d
  let layout := !wRing d && !wTile d
  if destIllegal d then some trapIllegal
  else if recNdim src = 0 ∨ (layout ∧ recNdim dst = 0) then some trapIllegal
  else if wRing d ∧ (ring.slots = 0 ∨ ring.slotsz < wBox d * 2 ^ recEsize src) then some trapIllegal
  else if 2 ^ 31 - 1 < n ∨ 2 ^ 31 - 1 < (x.next + 2 ^ 32 - x.wm) % 2 ^ 32 + n then some trapIllegal
  else if wTile d ∧ (!tl.reserved || (wBx d 0 + 1) * 2 ^ recEsize src != tl.rowLen || wBx d 1 + 1 != tl.rows) then
    some ⟨.tileState, 0, 0⟩
  else if wTile d ∧ tl.sbl = 1 then some ⟨.format, 0, 0⟩
  else if decBad co d src dst then some ⟨.format, 0, 0⟩
  else if layout ∧ recEsize src ≠ recEsize dst then some trapIllegal
  else none

/-- A Ferry command's job: its scoreboard access and its footprint (06 R129, 09 R230). -/
def ferryJob (env : SEnv) (ch first n : Nat) (tile : Option (Nat × Nat × Tile)) (foot : List Interval) (id : Nat) : Job :=
  { id := id, ctx := env.ctx, task := env.pre.task.getD 0, kind := .ferry ch first n,
    parts := (match tile with | some t => [t.1] | none => []), ops := [], reads := [],
    writes := (match tile with | some t => [(t.1, false, t.2.1)] | none => []),
    tcrs := (match tile with | some t => [t] | none => []), atys := [], foot := foot, started := false, readDone := false,
    err := false, scope := 0, restarts := 0, copied := [], spoiled := [], scratch := 0, gangs := [], done := [],
    xout := [], slotNo := env.slot, pc := env.pre.pc, cmd := env.pre.cmd, parent := none, byStrand := 0, rdv := false,
    rdvNo := 0, kstart := 0, killed := false, redo := false }

/-- A command enters its channel with its transfer numbers, and writes the advanced NEXT (09 R227). -/
def SEnv.enterCmd (env : SEnv) (s : State) (f : SFields) (ch n : Nat) (fpage : Option (Nat × Nat)) (d src dst : BitVec 1024)
    (tile : Option (Nat × Nat × Tile)) (foot : List Interval) : State :=
  let x := s.chan env.core ch
  let nx := (x.next + n) % 2 ^ 32
  let cmd : FCmd :=
    { fpage := fpage, desc := d, src := src, dst := dst, first := x.next, count := n, begun := 0,
      job := (s.core env.core).nextJob, ctx := env.ctx, task := env.pre.task, asid := env.pre.asid, priv := env.pre.priv,
      pc := env.pre.pc, cmd := env.pre.cmd, mask := [] }
  let s1 := (s.addJob env.core (ferryJob env ch x.next n tile foot)).modChan env.core ch (fun y =>
    { y with next := nx, cmds := y.cmds ++ [cmd] })
  env.writeX s1 f.dst.toNat (BitVec.ofNat 64 nx)

/-- Whether a command must wait for room: eight commands that have not finished starting (09 R227), or 64 jobs of the
context (06 R129). -/
def SEnv.ferryFull (env : SEnv) (s : State) (ch : Nat) : Bool :=
  decide (8 ≤ (s.chan env.core ch).depth) ||
    decide (64 ≤ ((s.core env.core).jobs.filter (fun j => j.ctx == env.ctx)).length)

/-- fwalk and fcopy (09 R224 to R231, R238). -/
def slotWalk (walk : Bool) (f : SFields) (env : SEnv) (s : State) : SlotRes :=
  scalarOp .x .x .raw (ferryChOk f) false f env s (fun a _ =>
    env.ferryBytes s (a + sImmS f) 128 (fun s v =>
      let d0 := BitVec.ofNat 1024 v
      let d := if walk then d0 else wCopy d0
      if wIllegal walk d0 then .trap trapIllegal
      else
        let ch := ferryCh f
        let c := s.ctx env.core env.ctx
        let src := Tab.get c.y 0 (wSrcy d)
        let dst := Tab.get c.y 0 (wDsty d)
        match walkTrap s env ch d src dst with
        | some t => .trap t
        | none =>
          let co := s.core env.core
          match co.ferrySide env.pre.task d true src with
          | .error t => .trap t
          | .ok fs =>
            match (if wRing d || wTile d then .ok [] else co.ferrySide env.pre.task d false dst : Except Trap (List Interval)) with
            | .error t => .trap t
            | .ok fd =>
              if env.ferryFull s ch then .hold s
              else
                let p := wTpart d
                let t := wTidx d
                let tile := if wTile d then some (p, t, c.tile p t) else none
                let s1 := if wTile d then s.modCtx env.core env.ctx (fun y => (y.markWritten p t).dropLatch 0 t) else s
                .done (env.enterCmd s1 f ch (wCount d) none d src dst tile (fs ++ fd))))

/-- fwalk (09 R238). -/
def slotFwalk (f : SFields) (env : SEnv) (s : State) : SlotRes := slotWalk true f env s
/-- fwalk, issued alone. -/
def execFwalk (f : SFields) (s : State) : Out := issueOne 1 (slotFwalk f) s
/-- fcopy (09 R238). -/
def slotFcopy (f : SFields) (env : SEnv) (s : State) : SlotRes := slotWalk false f env s
/-- fcopy, issued alone. -/
def execFcopy (f : SFields) (s : State) : Out := issueOne 1 (slotFcopy f) s

/-- fpage (09 R239): it needs the address space's tier-move permission. -/
def slotFpage (f : SFields) (env : SEnv) (s : State) : SlotRes :=
  scalarOp .x .x .raw (ferryChOk f && decide ((sImmU f).toNat ≤ 1))
    ((s.space env.pre.asid).asctl.toNat % 2 == 0) f env s (fun a _ =>
    let ch := ferryCh f
    let x := s.chan env.core ch
    if 2 ^ 31 - 1 < (x.next + 2 ^ 32 - x.wm) % 2 ^ 32 + 1 then .trap trapIllegal
    else if a.toNat / 2 ^ 54 ≠ 0 then .trap (trapPage a 3 .write 0)
    else if env.ferryFull s ch then .hold s
    else
      let lo := a.toNat / 2 ^ 15 * 2 ^ 15
      let co := s.core env.core
      let foot := co.declare env.pre.task false false lo (lo + 2 ^ 15 - 1) ++ co.declare env.pre.task false true lo (lo + 2 ^ 15 - 1)
      .done (env.enterCmd s f ch 1 (some (a.toNat, (sImmU f).toNat)) 0 0 0 none foot))
/-- fpage, issued alone. -/
def execFpage (f : SFields) (s : State) : Out := issueOne 1 (slotFpage f) s

/-- fwait (09 R240): the bundle issues once WM, as it stood at the start of the cycle, is at or after the threshold. -/
def slotFwait (f : SFields) (env : SEnv) (s : State) : SlotRes :=
  scalarOp .none .x .raw (ferryChOk f) false f env s (fun a _ =>
    let x := s.chan env.core (ferryCh f)
    if x.halt || !serialReached x.seen ((a + sImmS f).toNat % 2 ^ 32) then .hold s else .done s)
/-- fwait, issued alone. -/
def execFwait (f : SFields) (s : State) : Out := issueOne 1 (slotFwait f) s

/-- fstat (09 R241): a long-latency producer of WM, NEXT or the state word. -/
def slotFstat (f : SFields) (env : SEnv) (s : State) : SlotRes :=
  scalarOp .x .none .raw (ferryChOk f && decide ((sImmU f).toNat < 3)) false f env s (fun _ _ =>
    let x := s.chan env.core (ferryCh f)
    let v := if (sImmU f).toNat = 0 then x.wm else if (sImmU f).toNat = 1 then x.next else x.stateWord
    .done (env.produce s f.dst.toNat (BitVec.ofNat 64 v) 0 []))
/-- fstat, issued alone. -/
def execFstat (f : SFields) (s : State) : Out := issueOne 1 (slotFstat f) s

/-- Whether a command's job still waits for the edges of earlier jobs. -/
def Core.cmdBlocked (c : Core) (x : FCmd) : Bool :=
  match c.job x.job with
  | some j => !j.started && !c.jobFree j (fun _ => true)
  | none => false

/-- Whether a command's next transfer waits for the consumed event of its tile (09 R231). -/
def Core.tileWait (c : Core) (x : FCmd) : Bool :=
  x.fpage.isNone && wTile x.desc && decide (x.begun < x.count) && (match c.job x.job with
    | some j => !j.started && c.jobs.any (fun a => a.before j && a.holdsRegs j (fun _ => true))
    | none => false)

/-- A ring takes back the last slot that it gave out, from a transfer that is cancelled (09 R242). A slot after which others
have been given out stays taken (log 108). -/
def Core.returnSlot (c : Core) (t : Transfer) : Core :=
  match t.slot with
  | none => c
  | some n =>
    let g := wRingno t.cmd.desc
    let r := c.ring g
    match r.queue with
    | some q =>
      if (c.queue q).head + (r.slots - (c.queue q).free) = n + 1 then { c with queues := c.queues.put q { c.queue q with free := (c.queue q).free + 1 } }
      else c
    | none => if r.fill = n + 1 then { c with rings := c.rings.put g { r with fill := n } } else c

/-- A channel after fstop: what has not started, and the halted transfer, is cancelled (09 R242). -/
def Chan.stop (x : Chan) : Chan :=
  { x with
    cmds := (x.cmds ++ x.parked).map (fun c => { c with begun := c.count })
    active := x.active.filter (fun t => some t.num != x.halted)
    halt := false, halted := none, cause := 4, parked := [], frec := none }

/-- Whether fstop must wait: a tile refill of the channel waits for its consumed event, or, its event having come, has yet to
complete (09 R242). In a halted channel none can start. -/
def Core.stopWaits (c : Core) (x : Chan) : Bool :=
  x.cmds.any (fun y => c.tileWait y || (!x.halt && y.fpage.isNone && wTile y.desc && decide (y.begun < y.count) && !c.cmdBlocked y)) ||
    x.active.any (fun t => t.cmd.fpage.isNone && wTile t.cmd.desc && some t.num != x.halted)

/-- fstop (09 R242). -/
def slotFstop (f : SFields) (env : SEnv) (s : State) : SlotRes :=
  scalarOp .none .none .raw (ferryChOk f && decide (f.imm = 0)) false f env s (fun _ _ =>
    let ch := ferryCh f
    let co := s.core env.core
    let x := co.chan ch
    if co.stopWaits x then .hold s
    else
      let gone := x.active.filter (fun t => some t.num == x.halted)
      .done (((s.modCore env.core (fun c => gone.foldl Core.returnSlot c)).modChan env.core ch Chan.stop).reapChan env.core ch))
/-- fstop, issued alone. -/
def execFstop (f : SFields) (s : State) : Out := issueOne 1 (slotFstop f) s

/-! ### Transfers (09 R227 to R235) -/

/-- Whether a ring's next slot is free, and its number (09 R223): a counter that reaches its value in a cycle frees the slot
from the next one on (09 R243). -/
def Core.freeSlot (c : Core) (g : Nat) : Option Nat :=
  let r := c.ring g
  match r.queue with
  | some q => let qu := c.queue q; if qu.free = 0 then none else some (qu.nextSlot r.slots)
  | none => if r.fill + 1 ≤ (c.counterAtStart r.relix).toNat + r.slots then some r.fill else none

/-- The command whose next transfer the channel starts, with the ring slot it takes (09 R223, R227). -/
def Core.startable (c : Core) (cmds : List FCmd) : Option (FCmd × Option Nat) :=
  match cmds with
  | [] => none
  | x :: r =>
    if x.count ≤ x.begun then c.startable r
    else if c.tileWait x then c.startable r
    else if c.cmdBlocked x then none
    else if x.fpage.isNone && wRing x.desc then (c.freeSlot (wRingno x.desc)).map (fun n => (x, some n))
    else some (x, none)

/-- Take ring slot `n`. -/
def Core.takeSlot (c : Core) (g : Nat) : Core :=
  match (c.ring g).queue with
  | some q => { c with queues := c.queues.put q { c.queue q with free := (c.queue q).free - 1 } }
  | none => { c with rings := c.rings.put g { c.ring g with fill := (c.ring g).fill + 1 } }

/-- TRANSFER_START (09 R227): the channel starts its next transfer. -/
def execTransferStart (core ch : Nat) (s : State) : Out :=
  let co := s.core core
  let x := co.chan ch
  if x.halt then .fault .notEnabled
  else match co.startable x.cmds with
    | none => .fault .notEnabled
    | some (c, slot) =>
      let c1 := { c with begun := c.begun + 1 }
      let tr : Transfer := ⟨(c.first + c.begun) % 2 ^ 32, c.begun, c1, slot, 0, 0, c.mask⟩
      let s1 := if slot.isSome then s.modCore core (fun y => y.takeSlot (wRingno c.desc)) else s
      .next ((s1.modJob core c.job (fun j => { j with started := true })).modChan core ch (fun y =>
        { y with active := y.active ++ [tr], cmds := y.cmds.map (fun z => if z.job == c.job then c1 else z) }))

/-- A started transfer of a channel that may run: not an fpage, and not one that a halt has stopped. -/
def Chan.running (x : Chan) (n : Nat) : Option Transfer :=
  if x.halted == some n then none else x.active.find? (fun t => t.num == n && t.cmd.fpage.isNone)

/-- TRANSFER_COMPLETE (09 R227 to R231): a transfer's bytes are written, its counter addition is performed, and its queue
entry becomes visible. -/
def execTransferComplete (core ch n : Nat) (s : State) : Out :=
  match (s.chan core ch).running n with
  | none => .fault .notEnabled
  | some tr =>
    match s.ferryRunAll core tr with
    | (r, .done) =>
      let d := tr.cmd.desc
      let add := if wCmode d = 1 then wCinc d else if wCmode d = 2 then r.bytes else 0
      let s1 := if add = 0 then r.s else r.s.modCore core (fun c => c.addCounter (wCtr d) (BitVec.ofNat 64 add))
      let s2 := (match tr.slot with
        | none => s1
        | some i =>
          (match (s1.core core).ring (wRingno d) |>.queue with
           | some q => s1.modCQueue core q (fun y => y.fillSlot i)
           | none => s1))
      .next ((s2.modChan core ch (fun y => { y.maskLower tr.num r.keys with
        active := (y.maskLower tr.num r.keys).active.filter (fun t => t.num != n) })).reapChan core ch)
    | _ => .fault .notEnabled

/-- The first started transfer of a channel whose run ends in a way that a test accepts. -/
def State.endingTransfer (s : State) (k ch : Nat) (p : FerryEnd → Bool) : Option (Transfer × FerryRun × FerryEnd) :=
  let x := s.chan k ch
  x.active.findSome? (fun t =>
    match x.running t.num with
    | none => none
    | some tr => let r := s.ferryRunAll k tr; if p r.2 then some (tr, r.1, r.2) else none)

/-- The record of a replayable fault (16 R345): a stop of its own, NREC 0 and LAST. -/
def ferryRecord (s : State) (k ch : Nat) (tr : Transfer) (t : Trap) : TrapRec :=
  let r := mkRecord s k tr.cmd.ctx ⟨3, ch, 1, tr.cmd.pc, tr.cmd.cmd, none⟩ t.cls t.addr (BitVec.ofNat 64 (tr.num * 2 ^ 32 + t.det)) true
  { r with nrec := 0, last := true, asid := tr.cmd.asid, privl := tr.cmd.priv,
           topb := (match tr.cmd.task with | some q => (s.task q).topb | none => 0) }

/-- FERRY_PAGE_FAULT (09 R234, 16 R345): a transfer meets no sufficient translation; its channel halts at the element. The
elements before it stay written, and the issuing context runs on. -/
def execFerryPageFault (core ch : Nat) (s : State) : Out :=
  if (s.chan core ch).halt then .fault .notEnabled
  else match s.endingTransfer core ch (fun e => match e with | .page _ => true | _ => false) with
    | some (tr, r, .page t) =>
      let rec1 := ferryRecord r.s core ch tr t
      .next (r.s.modChan core ch (fun y => { y.maskLower tr.num r.keys with
        active := (y.maskLower tr.num r.keys).active.map (fun q =>
          if q.num == tr.num then { q with done := r.done, bytes := r.bytes } else q),
        halt := true, halted := some tr.num, cause := 1, frec := some rec1 }))
    | _ => .fault .notEnabled

/-- FERRY_HALT_ERROR (09 R235): a decode error or uncorrectable data halts the channel; the failing transfer and those
numbered after it are discarded, and the issuing context takes the trap. -/
def execFerryHaltError (core ch : Nat) (s : State) : Out :=
  if (s.chan core ch).halt then .fault .notEnabled
  else match s.endingTransfer core ch (fun e => match e with | .bad .. => true | _ => false) with
  | some (tr, r, .bad cls addr det) =>
    let gone (n : Nat) : Bool := !numBefore n tr.num
    let s1 := r.s.modChan core ch (fun y => { y.maskLower tr.num r.keys with
      active := (y.maskLower tr.num r.keys).active.filter (fun q => !gone q.num),
      cmds := y.cmds.map (fun c => if c.begun < c.count ∧ gone ((c.first + c.begun) % 2 ^ 32) then { c with begun := c.count } else c),
      parked := y.parked.filter (fun c => !gone ((c.first + c.begun) % 2 ^ 32)),
      halt := true, halted := some tr.num, cause := if cls = .format then 2 else 3, frec := none })
    let lost := (r.s.chan core ch).active.filter (fun q => gone q.num)
    let s2 := (s1.modCore core (fun c => (lost.reverse).foldl Core.returnSlot c)).reapChan core ch
    .next (if (s2.ctx core tr.cmd.ctx).task = tr.cmd.task then
      s2.takeTrap core tr.cmd.ctx ⟨3, ch, 1, tr.cmd.pc, tr.cmd.cmd, none⟩ cls addr (BitVec.ofNat 64 (tr.num * 2 ^ 32 + det))
      else s2)
  | _ => .fault .notEnabled

/-! ### fpage (09 R239) -/

/-- The ranges of physical memory, as base and size, that a table of an address space and what it names take: the table, the
tables below it and the pages of its leaves (16 R327 to R329). -/
def State.tableUses (s : State) (base level fuel : Nat) : List (Nat × Nat) :=
  match fuel with
  | 0 => []
  | f + 1 =>
    (base, 2 ^ 16) :: (s.mem.filter (fun e => decide (base ≤ e.1) && decide (e.1 < base + 2 ^ 16) && e.1 % 8 == 0 && e.2.toNat % 2 == 1)).flatMap (fun e =>
      let pte := s.mem.read e.1 8
      if s.pteBad (BitVec.ofNat 64 pte) level then []
      else if natField pte 9 9 = 1 then [(natField pte 47 15 * 2 ^ 15, if level == 1 then 2 ^ 41 else if level == 2 then 2 ^ 28 else 2 ^ 15)]
      else s.tableUses (natField pte 47 15 * 2 ^ 15) (level + 1) f)

/-- The ranges of physical memory in use: the Purser's area, what the address spaces map, their save areas and rings, the
launch rings, and the Causeway's tables (16 R327, R337, R342, R348, 19 R379, 22 R415, 23 R429). -/
def State.usedRanges (s : State) : List (Nat × Nat) :=
  let ring (w : Word) : Nat × Nat := (natField w.toNat 47 12 * 2 ^ 12, if natField w.toNat 63 59 = 0 then 0 else 64 * 2 ^ natField w.toNat 63 59)
  (0, 0x100000) :: (natField s.fabric.rqbase.toNat 47 13 * 2 ^ 13, 2 ^ 13) :: (natField s.fabric.peerlive.toNat 47 9 * 2 ^ 9, 2 ^ 9) ::
    (s.spaces.flatMap (fun e =>
      ring e.2.trapring :: ring e.2.dbgring :: (natField e.2.peermap.toNat 47 9 * 2 ^ 9, 2 ^ 9) ::
      (natField e.2.savepool.toNat 47 20 * 2 ^ 20, natField e.2.savepool.toNat 63 48 * natField e.2.savepool.toNat 11 0 * 2 ^ 20) ::
      (if e.2.ptbase.toNat % 2 = 1 then s.tableUses (natField e.2.ptbase.toNat 47 16 * 2 ^ 16) 1 3 else []))) ++
    s.queues.map (fun e => (natField e.2.qbase.toNat 47 12 * 2 ^ 12, 64 * 2 ^ natField e.2.qctl.toNat 39 35))

/-- The free frame that a tier's pool gives, if it has one: pools are not laid down, and a frame of the tier that nothing uses
is given, or none (log 28). -/
def State.poolFrame (s : State) (tier : Nat) : Option Nat :=
  let w := (Config.freeWord s.fresh 0).toNat
  if w % 2 = 0 then none
  else
    let fr := if tier = 0 then w / 2 % 0x1800000 else 0x100000000000 / 2 ^ 15 + w / 2 % 2 ^ 28
    if s.phys (fr * 2 ^ 15) = (if tier = 0 then .tierH else .tierC) && !s.beyondExpander (fr * 2 ^ 15 + 32767) && !s.purser.retired.contains fr &&
        s.usedRanges.all (fun u => decide (fr * 2 ^ 15 + 32768 ≤ u.1) || decide (u.1 + u.2 ≤ fr * 2 ^ 15)) then some fr
    else none

/-- The bytes and the uncorrectable lines of a page move to a new frame. -/
def State.copyFrame (s : State) (old new : Nat) : State :=
  let s1 : State := { s with mem := (List.range 32768).foldl (fun (m : Memory) i => m.setByte (new + i) (s.mem.byte (old + i))) s.mem }
  { s1 with badLines := ((List.range 512).filter (fun i => s.lineBad (old + 64 * i))).map (fun i => new / 64 + i) ++
      s1.badLines.filter (fun l => !(new / 64 ≤ l && l < new / 64 + 512)) }

/-- A core's view of the old frame becomes its view of the new one: its snapshot, and its writes and reds on their way. -/
def Core.moveFrame (c : Core) (old new : Nat) : Core :=
  let moved (a : Nat) : Nat := if old ≤ a ∧ a < old + 32768 then new + (a - old) else a
  { c with
    snapshot := (List.range 32768).foldl (fun (m : Memory) i => m.setByte (new + i) (c.snapshot.byte (old + i))) c.snapshot
    writes := c.writes.map (fun w => { w with addr := moved w.addr })
    parts := c.parts.map (fun e => (e.1, { e.2 with strands := e.2.strands.map (fun t => (t.1, { t.2 with
      reds := t.2.reds.map (fun r => if r.space = 0 then { r with addr := moved r.addr } else r) })) })) }

/-- Move the page of an address: PGRES and the state after. -/
def State.movePage (s : State) (asid va tier : Nat) : Nat × State :=
  match s.walk asid va with
  | .error _ => (3, s)
  | .ok w =>
    if w.bits ≠ 15 then (4, s)
    else if natField w.pte.toNat 4 4 = tier then (1, s)
    else match s.poolFrame tier with
      | none => (2, { s with fresh := s.fresh + 1 })
      | some fr =>
        let old := natField w.pte.toNat 47 15 * 2 ^ 15
        let s1 := ({ s with fresh := s.fresh + 1 } : State).copyFrame old (fr * 2 ^ 15)
        let keep := w.pte.toNat % 2 ^ 15 - natField w.pte.toNat 5 5 * 2 ^ 5 - natField w.pte.toNat 4 4 * 2 ^ 4
        let pte := fr * 2 ^ 15 + keep + tier * 2 ^ 4
        let s2 : State := { s1 with mem := s1.mem.write w.at_ 8 pte }
        (0, { s2 with cores := s2.cores.map (fun e => (e.1, { e.2.moveFrame old (fr * 2 ^ 15) with
          tlb := e.2.tlb.filter (fun t => !(t.asid == asid && t.va == va / 2 ^ t.bits * 2 ^ t.bits)) })) })

/-- FPAGE_COMPLETE (09 R239): the page stands in its new frame, or did not move; PGRES says which. -/
def execFpageComplete (core ch : Nat) (s : State) : Out :=
  match (s.chan core ch).active.findSome? (fun t => t.cmd.fpage.map (fun p => (t, p))) with
  | none => .fault .notEnabled
  | some (t, p) =>
    let r := s.movePage t.cmd.asid p.1 p.2
    .next ((r.2.modChan core ch (fun y => { y with
      pgres := r.1, active := y.active.filter (fun q => q.num != t.num) })).reapChan core ch)

end Sys2Proof.Machine
end

