-- ==== Sys2Proof/WellFormed.lean ====
section
/-! DEFINITION. Which terms of Instr the machine has: fields that an encoding can hold, and units that exist (00 R1, 02
R32, 03 R56, R57, 06 R126). A term that is not well-formed has no word and happens nowhere. -/
namespace Sys2Proof

/-- The units of the device: 288 cores (00 R1), 8 contexts and 4 partitions of a core, 32 strand slots of a partition
(02 R32, 03 R56), 16 core queues (08 R195), 4 Ferry channels (09 R227), 8 dies, 2 ports (00 R1, 22 R410). -/
def coreOk (k : Nat) : Bool := k < 288
def ctxOk (c : Nat) : Bool := c < 8
def partOk (p : Nat) : Bool := p < 4
def slotOk (l : Nat) : Bool := l < 32
def dieOk (d : Nat) : Bool := d < 8
def portOk (p : Nat) : Bool := p < 2

/-- Whether a waiter exists. -/
def Waiter.ok (w : Waiter) : Bool :=
  match w with
  | .ctx c => ctxOk c
  | .strand p l => partOk p && slotOk l

/-- Whether an issuer exists. -/
def Issuer.ok (i : Issuer) : Bool :=
  match i with
  | .host p => portOk p
  | .ctx k c => coreOk k && ctxOk c
  | .strand k p l => coreOk k && partOk p && slotOk l

/-- The figure numbers of each outcome of 04 R88 that has no name of its own. -/
def figReserved (n : Nat) : Bool :=
  (0x0D ≤ n && n ≤ 0x0F) || (0x1B ≤ n && n ≤ 0x20) || (0x23 ≤ n && n ≤ 0x3F) || (0x4D ≤ n && n ≤ 0x6F)
def figRetired (n : Nat) : Bool := n == 0x21 || n == 0x22

/-- Whether an instruction is well-formed. -/
def Instr.wf (i : Instr) : Bool :=
  match i with
  | .bundleIssue core => coreOk core
  | .longLatencyResult core ctx _ => coreOk core && ctxOk ctx
  | .add _ => true
  | .sub _ => true
  | .mul _ => true
  | .mulhS _ => true
  | .mulhN _ => true
  | .divS _ => true
  | .divN _ => true
  | .remS _ => true
  | .remN _ => true
  | .and _ => true
  | .or _ => true
  | .xor _ => true
  | .andn _ => true
  | .shl _ => true
  | .shr _ => true
  | .sra _ => true
  | .minS _ => true
  | .minN _ => true
  | .maxS _ => true
  | .maxN _ => true
  | .clz _ => true
  | .popc _ => true
  | .sel _ => true
  | .madd _ => true
  | .lea _ => true
  | .li _ => true
  | .lih _ => true
  | .addI _ => true
  | .subI _ => true
  | .mulI _ => true
  | .mulhSI _ => true
  | .mulhNI _ => true
  | .divSI _ => true
  | .divNI _ => true
  | .remSI _ => true
  | .remNI _ => true
  | .andI _ => true
  | .orI _ => true
  | .xorI _ => true
  | .andnI _ => true
  | .shlI _ => true
  | .shrI _ => true
  | .sraI _ => true
  | .minSI _ => true
  | .minNI _ => true
  | .maxSI _ => true
  | .maxNI _ => true
  | .cand _ => true
  | .cor _ => true
  | .cnot _ => true
  | .cmpEq _ => true
  | .cmpNe _ => true
  | .cmpLtS _ => true
  | .cmpLeS _ => true
  | .cmpLtN _ => true
  | .cmpLeN _ => true
  | .cmpEqI _ => true
  | .cmpNeI _ => true
  | .cmpLtSI _ => true
  | .cmpLeSI _ => true
  | .cmpLtNI _ => true
  | .cmpLeNI _ => true
  | .catm _ => true
  | .cwait _ => true
  | .ldLB8N _ => true
  | .ldLB16N _ => true
  | .ldLB32N _ => true
  | .ldLB64 _ => true
  | .ldLB8S _ => true
  | .ldLB16S _ => true
  | .ldLB32S _ => true
  | .stLB8 _ => true
  | .stLB16 _ => true
  | .stLB32 _ => true
  | .stLB64 _ => true
  | .lpset _ => true
  | .call _ => true
  | .ret _ => true
  | .jmpx _ => true
  | .ldGB8N _ => true
  | .ldGB16N _ => true
  | .ldGB32N _ => true
  | .ldGB64 _ => true
  | .ldGB8S _ => true
  | .ldGB16S _ => true
  | .ldGB32S _ => true
  | .stGB8 _ => true
  | .stGB16 _ => true
  | .stGB32 _ => true
  | .stGB64 _ => true
  | .snext _ => true
  | .spawn _ => true
  | .spawnNb _ => true
  | .sync _ => true
  | .merge _ => true
  | .tend _ => true
  | .tbar _ => true
  | .evarm _ => true
  | .evdis _ => true
  | .twany _ => true
  | .evret _ => true
  | .crd _ => true
  | .cwr _ => true
  | .phase _ => true
  | .fence _ => true
  | .fbar _ => true
  | .brk _ => true
  | .trap _ => true
  | .nop _ => true
  | .fstop _ => true
  | .fdef _ => true
  | .fring _ => true
  | .fcode _ => true
  | .fwalk _ => true
  | .fcopy _ => true
  | .fpage _ => true
  | .fwait _ => true
  | .fstat _ => true
  | .tres _ => true
  | .trel _ => true
  | .tcfg _ => true
  | .tld _ => true
  | .tldX8 _ => true
  | .tldX16 _ => true
  | .tst _ => true
  | .tzero _ => true
  | .zclr _ => true
  | .zld _ => true
  | .zdrain _ => true
  | .fbind _ => true
  | .fig _ => true
  | .mmaBf16 _ => true
  | .mmaF16 _ => true
  | .mmaE4m3 _ => true
  | .mmaE5m2 _ => true
  | .mmaI8 _ => true
  | .mmaMx8 _ => true
  | .mmaMx6 _ => true
  | .mmaMx4 _ => true
  | .mmaI4 _ => true
  | .mmaI4e _ => true
  | .mmaF64 _ => true
  | .tcvt _ => true
  | .tadd _ => true
  | .tmul _ => true
  | .tfma _ => true
  | .tscale _ => true
  | .tmaxr _ => true
  | .tsumr _ => true
  | .texp2 _ => true
  | .tmask _ => true
  | .tsel _ => true
  | .tquant _ => true
  | .tdequant _ => true
  | .ttrans _ => true
  | .hardBoundFigure n _ => 0x80 ≤ n.toNat
  | .routineBoundFigure n _ => 0x70 ≤ n.toNat
  | .unboundFigureIssue n _ => figReserved n.toNat || 0x70 ≤ n.toNat
  | .retiredFigureIssue n _ => figRetired n.toNat
  | .retiredOpEmulation core who _ => coreOk core && who.ok
  | .troupeRendezvous _ => true
  | .engineJobStart core _ => coreOk core
  | .engineJobComplete core _ => coreOk core
  | .engineErrorStop core _ => coreOk core
  | .fbindComplete core ctx => coreOk core && ctxOk ctx
  | .issuePass core part => coreOk core && partOk part
  | .strandRotation core part => coreOk core && partOk part
  | .laneResultArrival core part slot _ => coreOk core && partOk part && slotOk slot
  | .hangDetect core part slot => coreOk core && partOk part && slotOk slot
  | .hangctlWrite core part _ => coreOk core && partOk part
  | .iadd _ => true
  | .isub _ => true
  | .imul _ => true
  | .laneAnd _ => true
  | .laneOr _ => true
  | .laneXor _ => true
  | .laneShl _ => true
  | .laneShr _ => true
  | .laneSra _ => true
  | .imin _ => true
  | .imax _ => true
  | .mov _ => true
  | .lanePopc _ => true
  | .laneClz _ => true
  | .not _ => true
  | .fadd _ => true
  | .fsub _ => true
  | .fmul _ => true
  | .fmin _ => true
  | .fmax _ => true
  | .fabs _ => true
  | .fneg _ => true
  | .dadd _ => true
  | .dsub _ => true
  | .dmul _ => true
  | .laneLdL _ => true
  | .laneStL _ => true
  | .exit _ => true
  | .laneNop _ => true
  | .yield _ => true
  | .iaddLong _ => true
  | .isubLong _ => true
  | .imulLong _ => true
  | .laneAndLong _ => true
  | .laneOrLong _ => true
  | .laneXorLong _ => true
  | .laneShlLong _ => true
  | .laneShrLong _ => true
  | .laneSraLong _ => true
  | .iminLong _ => true
  | .imaxLong _ => true
  | .movLong _ => true
  | .lanePopcLong _ => true
  | .laneClzLong _ => true
  | .notLong _ => true
  | .faddLong _ => true
  | .fsubLong _ => true
  | .fmulLong _ => true
  | .fminLong _ => true
  | .fmaxLong _ => true
  | .fabsLong _ => true
  | .fnegLong _ => true
  | .daddLong _ => true
  | .dsubLong _ => true
  | .dmulLong _ => true
  | .laneLdLLong _ => true
  | .laneStLLong _ => true
  | .exitLong _ => true
  | .laneNopLong _ => true
  | .yieldLong _ => true
  | .imulh _ => true
  | .imad _ => true
  | .iabs _ => true
  | .ineg _ => true
  | .rot _ => true
  | .brev _ => true
  | .bfe _ => true
  | .bfi _ => true
  | .prmt _ => true
  | .laneSel _ => true
  | .setp _ => true
  | .laneLea _ => true
  | .movi _ => true
  | .dot4 _ => true
  | .ffma _ => true
  | .fsetp _ => true
  | .frcp _ => true
  | .frsq _ => true
  | .fsqrt _ => true
  | .fexp2 _ => true
  | .flog2 _ => true
  | .fsin _ => true
  | .fcos _ => true
  | .dfma _ => true
  | .dmin _ => true
  | .dmax _ => true
  | .dsetp _ => true
  | .drcp _ => true
  | .cvt _ => true
  | .cvtMx _ => true
  | .laneLdG _ => true
  | .laneStG _ => true
  | .ldC _ => true
  | .ldt _ => true
  | .stt _ => true
  | .ldx _ => true
  | .stx _ => true
  | .atom _ => true
  | .atomCas _ => true
  | .red _ => true
  | .qpush _ => true
  | .qpop _ => true
  | .qlen _ => true
  | .bra _ => true
  | .brx _ => true
  | .laneCall _ => true
  | .laneRet _ => true
  | .join _ => true
  | .joinCompletion core part slot _ => coreOk core && partOk part && slotOk slot
  | .joinTimeout core part slot _ => coreOk core && partOk part && slotOk slot
  | .gbar _ => true
  | .barv _ => true
  | .barw _ => true
  | .vote _ => true
  | .shfl _ => true
  | .matchLanes _ => true
  | .laneFence _ => true
  | .lanePhase _ => true
  | .laneEvarm _ => true
  | .laneEvdis _ => true
  | .wany _ => true
  | .laneEvret _ => true
  | .mbsend _ => true
  | .bxfer _ => true
  | .rget _ => true
  | .ratom _ => true
  | .rslotAlloc f => f.mod.toNat % 4 == 0
  | .rslotPut f => f.mod.toNat % 4 == 1
  | .rslotGet f => f.mod.toNat % 4 == 2
  | .rslotFree f => f.mod.toNat % 4 == 3
  | .renq _ => true
  | .laneFig _ => true
  | .fret _ => true
  | .laneCrd _ => true
  | .laneCwr _ => true
  | .laneTrap _ => true
  | .laneBrk _ => true
  | .laneFbar _ => true
  | .retiredLaneOpcode w0 w1 => 0x3E ≤ (w0.extractLsb' 26 6).toNat && (w0.getLsbD 25 || w1 == 0)
  | .qpushServe core q => coreOk core && decide (q < 16)
  | .qpopServe core q => coreOk core && decide (q < 16)
  | .redPerform core part slot _ => coreOk core && partOk part && slotOk slot
  | .strandFinish core part slot => coreOk core && partOk part && slotOk slot
  | .routineGangStart core _ part => coreOk core && partOk part
  | .instanceComplete core _ => coreOk core
  | .landingBankServe core bank => coreOk core && decide (bank < 64)
  | .writeArrival core _ => coreOk core
  | .transferStart core ch => coreOk core && decide (ch < 4)
  | .transferComplete core ch _ => coreOk core && decide (ch < 4)
  | .ferryPageFault core ch => coreOk core && decide (ch < 4)
  | .ferryHaltError core ch => coreOk core && decide (ch < 4)
  | .fpageComplete core ch => coreOk core && decide (ch < 4)
  | .tlbMissWalk core _ _ => coreOk core
  | .eventFire core who slot => coreOk core && who.ok && decide (slot < 16)
  | .timerSlotExpiry core who slot => coreOk core && who.ok && decide (slot < 16)
  | .evpostWrite core who _ => coreOk core && who.ok
  | .handlerEntry core ctx => coreOk core && ctxOk ctx
  | .strandHandlerEntry core part slot => coreOk core && partOk part && slotOk slot
  | .savedTierDelivery _ slot => decide (slot < 16)
  | .stepStart core ctx => coreOk core && ctxOk ctx
  | .stepEnd core ctx => coreOk core && ctxOk ctx
  | .launchRecordTake _ => true
  | .taskDispatch die => dieOk die
  | .staggerExpiry die _ => dieOk die
  | .spawnUnpark die => dieOk die
  | .spawnAnswer core ctx => coreOk core && ctxOk ctx
  | .spawnDeadlockDetect die => dieOk die
  | .viewFill _ => true
  | .childMerge _ => true
  | .syncRelease core ctx => coreOk core && ctxOk ctx
  | .trapRecordWrite core ctx => coreOk core && ctxOk ctx
  | .trapringWrite issuer _ _ => issuer.ok
  | .tlbinvWrite issuer _ => issuer.ok
  | .tlbinvComplete => true
  | .preemptWrite issuer _ => issuer.ok
  | .preemptStop core ctx => coreOk core && ctxOk ctx
  | .graceExpiry core ctx => coreOk core && ctxOk ctx
  | .deviceSwap _ => true
  | .taskRestore _ => true
  | .retry issuer _ => issuer.ok
  | .skip issuer _ => issuer.ok
  | .replay issuer _ => issuer.ok
  | .discard issuer _ => issuer.ok
  | .abort issuer _ => issuer.ok
  | .ferry issuer _ => issuer.ok
  | .restore issuer _ => issuer.ok
  | .checkpointStream core ctx _ => coreOk core && ctxOk ctx
  | .cwentWrite issuer _ => issuer.ok
  | .cwswapWrite issuer _ => issuer.ok
  | .cwswapSwitch => true
  | .registerWrite issuer _ _ => issuer.ok
  | .readClear issuer _ => issuer.ok
  | .linkTraining _ _ _ _ => true
  | .stopSignal _ _ _ _ => true
  | .circuitFlitArrival _ _ _ _ _ => true
  | .circuitFlitDepart _ _ => true
  | .packetFlitSend _ _ => true
  | .requestTimeout core _ => coreOk core
  | .replyArrival core _ => coreOk core
  | .refusalArrival core _ => coreOk core
  | .bulkPacketArrival _ => true
  | .bulkAckArrival core _ => coreOk core
  | .remoteRequestServe _ => true
  | .mailboxArrival _ => true
  | .combineRelease _ _ => true
  | .rslotAllocServe _ => true
  | .rslotPutArrival _ => true
  | .rslotTimeout _ slot => decide (slot < 64)
  | .noticeArrival _ => true
  | .rslotFreeArrival _ => true
  | .enqueueArrival _ => true
  | .enqueueRetry core _ => coreOk core
  | .bar0AccessError port _ _ _ => portOk port
  | .hostBar2Read port _ _ => portOk port
  | .hostBar2Write port _ _ => portOk port
  | .hostAtomicop port _ _ _ _ _ => portOk port
  | .qctlWrite port _ _ => portOk port
  | .qctlApply _ => true
  | .qtailWrite port _ _ => portOk port
  | .deviceReset _ => true
  | .bootStepLimitExpiry _ => true
  | .blockHold die _ _ => dieOk die
  | .powerStatusUpdate => true
  | .errorHistoryEntry _ _ _ _ => true
  | .rowSpare _ => true
  | .attestationPoll => true
  | .phaseComplete core _ => coreOk core
  | .rslotGetTimeout core _ => coreOk core
  | .timedOutTagRelease core _ => coreOk core
  | .singleStep core part slot _ => coreOk core && partOk part && slotOk slot
  | .softError _ => true
  | .pcieLinkDown port _ => portOk port

end Sys2Proof
end

