-- ==== Sys2Proof/Decode.lean ====
section
/-! DEFINITION. The decoder and the encoder, from the encoding tables of the spec: scalar and Ferry slots (02 R44, 04
R85), the engine slot (02 R46, 04 R87), bundles (02 R41), and lane instructions (03 R74, R75, 04 R90, R91). The decoder
is total on any words and rejects by name what names no instruction (04 R82). -/
namespace Sys2Proof

/-- Why words name no instruction (04 R82, R90, R91). -/
inductive DecodeError where
  | scalarUnassigned            -- scalar code 0x00
  | scalarReserved (op : Nat)   -- a reserved scalar code
  | laneUnassigned              -- lane primary 0x00
  | laneReserved (op : Nat)     -- a reserved lane primary
  | groupShort (op : Nat)       -- the short form of a group primary
  | subReserved (op sub : Nat)  -- a reserved sub-opcode
  | notOneSlot                  -- a bundle that does not hold exactly one operation
  | noWords (nbits : Nat)       -- no instruction has this many bits
deriving DecidableEq, Repr, Inhabited

/-- The row of a code in a table of the opcode maps. -/
def codeRow {α : Type} (t : List (Nat × α)) (k : Nat) : Option α :=
  match t with
  | [] => none
  | (j, v) :: r => if j = k then some v else codeRow r k

/-! ### Scalar and Ferry slots -/

/-- The scalar and Ferry opcode map (04 R85), part 1. -/
noncomputable def scalarCodes1 : List (Nat × (SFields → Instr)) :=
  [(0x01, .add), (0x02, .sub), (0x03, .mul), (0x04, .mulhS), (0x05, .mulhN), (0x06, .divS), (0x07, .divN),
   (0x08, .remS), (0x09, .remN), (0x0A, .and), (0x0B, .or), (0x0C, .xor), (0x0D, .andn), (0x0E, .shl),
   (0x0F, .shr), (0x10, .sra), (0x11, .minS), (0x12, .minN), (0x13, .maxS), (0x14, .maxN), (0x15, .clz),
   (0x16, .popc), (0x17, .sel), (0x18, .madd)]

/-- The scalar and Ferry opcode map (04 R85), part 2. -/
noncomputable def scalarCodes2 : List (Nat × (SFields → Instr)) :=
  [(0x19, .lea), (0x1A, .li), (0x1B, .lih), (0x21, .addI), (0x22, .subI), (0x23, .mulI), (0x24, .mulhSI),
   (0x25, .mulhNI), (0x26, .divSI), (0x27, .divNI), (0x28, .remSI), (0x29, .remNI), (0x2A, .andI), (0x2B, .orI),
   (0x2C, .xorI), (0x2D, .andnI), (0x2E, .shlI), (0x2F, .shrI), (0x30, .sraI), (0x31, .minSI), (0x32, .minNI),
   (0x33, .maxSI), (0x34, .maxNI), (0x35, .cand)]

/-- The scalar and Ferry opcode map (04 R85), part 3. -/
noncomputable def scalarCodes3 : List (Nat × (SFields → Instr)) :=
  [(0x36, .cor), (0x37, .cnot), (0x38, .cmpEq), (0x39, .cmpNe), (0x3A, .cmpLtS), (0x3B, .cmpLeS), (0x3C, .cmpLtN),
   (0x3D, .cmpLeN), (0x40, .cmpEqI), (0x41, .cmpNeI), (0x42, .cmpLtSI), (0x43, .cmpLeSI), (0x44, .cmpLtNI),
   (0x45, .cmpLeNI), (0x46, .catm), (0x47, .cwait), (0x48, .ldLB8N), (0x49, .ldLB16N), (0x4A, .ldLB32N),
   (0x4B, .ldLB64), (0x4C, .ldLB8S), (0x4D, .ldLB16S), (0x4E, .ldLB32S), (0x50, .stLB8)]

/-- The scalar and Ferry opcode map (04 R85), part 4. -/
noncomputable def scalarCodes4 : List (Nat × (SFields → Instr)) :=
  [(0x51, .stLB16), (0x52, .stLB32), (0x53, .stLB64), (0x54, .lpset), (0x55, .call), (0x56, .ret), (0x57, .jmpx),
   (0x58, .ldGB8N), (0x59, .ldGB16N), (0x5A, .ldGB32N), (0x5B, .ldGB64), (0x5C, .ldGB8S), (0x5D, .ldGB16S),
   (0x5E, .ldGB32S), (0x60, .stGB8), (0x61, .stGB16), (0x62, .stGB32), (0x63, .stGB64), (0x64, .snext),
   (0x65, .spawn), (0x66, .spawnNb), (0x67, .sync), (0x68, .merge), (0x69, .tend)]

/-- The scalar and Ferry opcode map (04 R85), part 5. -/
noncomputable def scalarCodes5 : List (Nat × (SFields → Instr)) :=
  [(0x6A, .tbar), (0x6B, .evarm), (0x6C, .evdis), (0x6D, .twany), (0x6E, .evret), (0x6F, .crd), (0x70, .cwr),
   (0x71, .phase), (0x72, .fence), (0x73, .fbar), (0x74, .brk), (0x75, .trap), (0x76, .nop), (0x77, .fstop),
   (0x78, .fdef), (0x79, .fring), (0x7A, .fcode), (0x7B, .fwalk), (0x7C, .fcopy), (0x7D, .fpage), (0x7E, .fwait),
   (0x7F, .fstat)]

/-- The scalar and Ferry opcode map (04 R85). -/
noncomputable def scalarCodes : List (Nat × (SFields → Instr)) := scalarCodes1 ++ scalarCodes2 ++ scalarCodes3 ++ scalarCodes4 ++ scalarCodes5

/-- The architected figure numbers (04 R87), part 1. -/
def figureCodes1 : List (Nat × (EFields → Instr)) :=
  [(0x00, .tres), (0x01, .trel), (0x02, .tcfg), (0x03, .tld), (0x04, .tldX8), (0x05, .tldX16), (0x06, .tst),
   (0x07, .tzero), (0x08, .zclr), (0x09, .zld), (0x0A, .zdrain), (0x0B, .fbind), (0x0C, .fig), (0x10, .mmaBf16),
   (0x11, .mmaF16), (0x12, .mmaE4m3), (0x13, .mmaE5m2), (0x14, .mmaI8), (0x15, .mmaMx8), (0x16, .mmaMx6),
   (0x17, .mmaMx4), (0x18, .mmaI4), (0x19, .mmaI4e), (0x1A, .mmaF64)]

/-- The architected figure numbers (04 R87), part 2. -/
def figureCodes2 : List (Nat × (EFields → Instr)) :=
  [(0x40, .tcvt), (0x41, .tadd), (0x42, .tmul), (0x43, .tfma), (0x44, .tscale), (0x45, .tmaxr), (0x46, .tsumr),
   (0x47, .texp2), (0x48, .tmask), (0x49, .tsel), (0x4A, .tquant), (0x4B, .tdequant), (0x4C, .ttrans)]

/-- The architected figure numbers (04 R87). -/
def figureCodes : List (Nat × (EFields → Instr)) := figureCodes1 ++ figureCodes2

/-- The single primaries of lane instructions, short forms (04 R90), part 1. -/
def shortCodes1 : List (Nat × (LShort → Instr)) :=
  [(0x01, .iadd), (0x02, .isub), (0x03, .imul), (0x04, .laneAnd), (0x05, .laneOr), (0x06, .laneXor),
   (0x07, .laneShl), (0x08, .laneShr), (0x09, .laneSra), (0x0A, .imin), (0x0B, .imax), (0x0C, .mov),
   (0x0D, .lanePopc), (0x0E, .laneClz), (0x0F, .not), (0x10, .fadd), (0x11, .fsub), (0x12, .fmul), (0x13, .fmin),
   (0x14, .fmax), (0x15, .fabs), (0x16, .fneg), (0x17, .dadd), (0x18, .dsub)]

/-- The single primaries of lane instructions, short forms (04 R90), part 2. -/
def shortCodes2 : List (Nat × (LShort → Instr)) :=
  [(0x19, .dmul), (0x1A, .laneLdL), (0x1B, .laneStL), (0x1C, .exit), (0x1D, .laneNop), (0x1E, .yield)]

/-- The single primaries of lane instructions, short forms (04 R90). -/
def shortCodes : List (Nat × (LShort → Instr)) := shortCodes1 ++ shortCodes2

/-- The single primaries, long forms with sub 0x00 (04 R90), part 1. -/
def singleCodes1 : List (Nat × (LLong → Instr)) :=
  [(0x01, .iaddLong), (0x02, .isubLong), (0x03, .imulLong), (0x04, .laneAndLong), (0x05, .laneOrLong),
   (0x06, .laneXorLong), (0x07, .laneShlLong), (0x08, .laneShrLong), (0x09, .laneSraLong), (0x0A, .iminLong),
   (0x0B, .imaxLong), (0x0C, .movLong), (0x0D, .lanePopcLong), (0x0E, .laneClzLong), (0x0F, .notLong),
   (0x10, .faddLong), (0x11, .fsubLong), (0x12, .fmulLong), (0x13, .fminLong), (0x14, .fmaxLong),
   (0x15, .fabsLong), (0x16, .fnegLong), (0x17, .daddLong), (0x18, .dsubLong)]

/-- The single primaries, long forms with sub 0x00 (04 R90), part 2. -/
def singleCodes2 : List (Nat × (LLong → Instr)) :=
  [(0x19, .dmulLong), (0x1A, .laneLdLLong), (0x1B, .laneStLLong), (0x1C, .exitLong), (0x1D, .laneNopLong),
   (0x1E, .yieldLong)]

/-- The single primaries, long forms with sub 0x00 (04 R90). -/
def singleCodes : List (Nat × (LLong → Instr)) := singleCodes1 ++ singleCodes2

/-- The group primaries by 64·primary + sub (04 R91), but for rslot, whose mod selects a form (08 R206), part 1. -/
def groupCodes1 : List (Nat × (LLong → Instr)) :=
  [(0x0800, .imulh), (0x0801, .imad), (0x0802, .iabs), (0x0803, .ineg), (0x0804, .rot), (0x0805, .brev),
   (0x0806, .bfe), (0x0807, .bfi), (0x0808, .prmt), (0x0809, .laneSel), (0x080A, .setp), (0x080B, .laneLea),
   (0x080C, .movi), (0x080D, .dot4), (0x0840, .ffma), (0x0841, .fsetp), (0x0842, .frcp), (0x0843, .frsq),
   (0x0844, .fsqrt), (0x0845, .fexp2), (0x0846, .flog2), (0x0847, .fsin), (0x0848, .fcos), (0x0880, .dfma)]

/-- The group primaries by 64·primary + sub (04 R91), but for rslot, whose mod selects a form (08 R206), part 2. -/
def groupCodes2 : List (Nat × (LLong → Instr)) :=
  [(0x0881, .dmin), (0x0882, .dmax), (0x0883, .dsetp), (0x0884, .drcp), (0x08C0, .cvt), (0x08C1, .cvtMx),
   (0x0900, .laneLdG), (0x0901, .laneStG), (0x0902, .ldC), (0x0903, .ldt), (0x0904, .stt), (0x0905, .ldx),
   (0x0906, .stx), (0x0940, .atom), (0x0941, .atomCas), (0x0942, .red), (0x0943, .qpush), (0x0944, .qpop),
   (0x0945, .qlen), (0x0980, .bra), (0x0981, .brx), (0x0982, .laneCall), (0x0983, .laneRet), (0x0984, .join)]

/-- The group primaries by 64·primary + sub (04 R91), but for rslot, whose mod selects a form (08 R206), part 3. -/
def groupCodes3 : List (Nat × (LLong → Instr)) :=
  [(0x09C0, .gbar), (0x09C1, .barv), (0x09C2, .barw), (0x09C3, .vote), (0x09C4, .shfl), (0x09C5, .matchLanes),
   (0x09C6, .laneFence), (0x09C7, .lanePhase), (0x0A00, .laneEvarm), (0x0A01, .laneEvdis), (0x0A02, .wany),
   (0x0A03, .laneEvret), (0x0A04, .mbsend), (0x0A40, .bxfer), (0x0A41, .rget), (0x0A42, .ratom), (0x0A44, .renq),
   (0x0A80, .laneFig), (0x0A81, .fret), (0x0A82, .laneCrd), (0x0A83, .laneCwr), (0x0A84, .laneTrap),
   (0x0A85, .laneBrk), (0x0A86, .laneFbar)]

/-- The group primaries by 64·primary + sub (04 R91), but for rslot, whose mod selects a form (08 R206). -/
def groupCodes : List (Nat × (LLong → Instr)) := groupCodes1 ++ groupCodes2 ++ groupCodes3


/-- The fields of a scalar slot (02 R44); `x` is the extension word when the slot owns it. -/
def slotFields (w : BitVec 48) (x : Option W32) : SFields :=
  { dst := w.extractLsb' 30 6, ma := w.getLsbD 29, sa := w.extractLsb' 23 6, mb := w.getLsbD 22,
    sb := w.extractLsb' 16 6, imm := w.extractLsb' 0 16, x := x }
/-- The opcode of a scalar slot. -/
def slotOp (w : BitVec 48) : Nat := (w.extractLsb' 41 7).toNat
/-- The guard of a scalar slot (02 R47). -/
def slotGuard (w : BitVec 48) : BitVec 5 := w.extractLsb' 36 5
/-- Whether a code is one of the nine Ferry opcodes (04 R85). -/
def isFerryCode (op : Nat) : Bool := 0x77 ≤ op && op ≤ 0x7F

/-- The operation of a scalar slot. -/
noncomputable def decodeScalar (w : BitVec 48) (x : Option W32) : Except DecodeError Instr :=
  match codeRow scalarCodes (slotOp w) with
  | some mk => .ok (mk (slotFields w x))
  | none => if slotOp w = 0 then .error .scalarUnassigned else .error (.scalarReserved (slotOp w))

/-! ### The engine slot -/

/-- An operand field (02 R46). -/
def decodeOperand (w : BitVec 9) : EOperand := ⟨w.extractLsb' 7 2, w.extractLsb' 1 6, w.getLsbD 0⟩
/-- The fields of the engine slot (02 R46). -/
def engineFields (w : BitVec 64) : EFields :=
  { scope := w.extractLsb' 48 3, opa := decodeOperand (w.extractLsb' 39 9), opb := decodeOperand (w.extractLsb' 30 9),
    opc := decodeOperand (w.extractLsb' 21 9), opd := decodeOperand (w.extractLsb' 12 9), mod := w.extractLsb' 0 12 }
/-- The guard of the engine slot. -/
def engineGuard (w : BitVec 64) : BitVec 5 := w.extractLsb' 51 5

/-- The figure of a number (04 R87, R88): an architected figure, a retired one, one whose entry may be bound, or a
reserved one. -/
def decodeFigure (n : BitVec 8) (f : EFields) : Instr :=
  match codeRow figureCodes n.toNat with
  | some mk => mk f
  | none =>
    if n.toNat = 0x21 ∨ n.toNat = 0x22 then .retiredFigureIssue n f
    else if 0x70 ≤ n.toNat then .routineBoundFigure n f
    else .unboundFigureIssue n f

/-- The operation of the engine slot; every figure number has a fate (04 R88). -/
def decodeEngine (w : BitVec 64) : Instr := decodeFigure (w.extractLsb' 56 8) (engineFields w)

/-! ### Bundles -/

/-- A bundle's header and slots (02 R41). -/
structure Bundle where
  s0p  : Bool
  s1p  : Bool
  ep   : Bool
  bp   : Bool
  rsv  : Bool
  lend : Bool
  xown : BitVec 2
  s0   : BitVec 48
  s1   : BitVec 48
  e    : BitVec 64
  b    : BitVec 56
  x    : W32
deriving DecidableEq, Repr, Inhabited

/-- The fields of a bundle. -/
def decodeBundle (w : W256) : Bundle :=
  { s0p := w.getLsbD 0, s1p := w.getLsbD 1, ep := w.getLsbD 2, bp := w.getLsbD 3, rsv := w.getLsbD 4, lend := w.getLsbD 5,
    xown := w.extractLsb' 6 2, s0 := w.extractLsb' 8 48, s1 := w.extractLsb' 56 48, e := w.extractLsb' 104 64,
    b := w.extractLsb' 168 56, x := w.extractLsb' 224 32 }

/-- The words of a bundle. -/
def encodeBundle (b : Bundle) : W256 :=
  (b.x ++ b.b ++ b.e ++ b.s1 ++ b.s0 ++ b.xown ++ BitVec.ofBool b.lend ++ BitVec.ofBool b.rsv ++ BitVec.ofBool b.bp ++
    BitVec.ofBool b.ep ++ BitVec.ofBool b.s1p ++ BitVec.ofBool b.s0p : BitVec 256)

/-- The extension word that slot S0 or S1 owns (02 R41, R45). -/
def Bundle.ext (b : Bundle) (slot : Nat) : Option W32 := if b.xown.toNat = slot + 1 then some b.x else none

/-- The operation of a bundle that holds exactly one, in any of S0, S1 and E. -/
noncomputable def decodeOne (w : W256) : Except DecodeError Instr :=
  let b := decodeBundle w
  if b.s0p && !b.s1p && !b.ep && !b.bp then decodeScalar b.s0 (b.ext 0)
  else if b.s1p && !b.s0p && !b.ep && !b.bp then decodeScalar b.s1 (b.ext 1)
  else if b.ep && !b.s0p && !b.s1p && !b.bp then .ok (decodeEngine b.e)
  else .error .notOneSlot

/-! ### Lane instructions -/

/-- The bytes of a lane instruction (03 R74). -/
def laneSize (w0 : W32) : Nat := if w0.getLsbD 25 then 8 else 4

/-- The fields of a short form (03 R74). -/
def shortFields (w0 : W32) : LShort :=
  { gn := w0.getLsbD 24, gp := w0.extractLsb' 21 3, d := w0.extractLsb' 14 7, a := w0.extractLsb' 7 7, b := w0.extractLsb' 0 7 }
/-- The fields of a long form (03 R74, R75). -/
def longFields (w0 w1 : W32) : LLong :=
  { gn := w0.getLsbD 24, gp := w0.extractLsb' 21 3, d := w0.extractLsb' 14 7, a := w0.extractLsb' 7 7, b := w0.extractLsb' 0 7,
    ty := w1.extractLsb' 21 5, u := w1.getLsbD 20, mod := w1.extractLsb' 16 4, imm := w1.extractLsb' 0 16 }

/-- The four forms of rslot by `mod`[1:0] (08 R206). -/
def decodeRslot (f : LLong) : Instr :=
  match f.mod.toNat % 4 with
  | 0 => .rslotAlloc f
  | 1 => .rslotPut f
  | 2 => .rslotGet f
  | _ => .rslotFree f

/-- The lane instruction of a first word and the word after it, which a short form ignores. -/
def decodeLane (w0 w1 : W32) : Except DecodeError Instr :=
  let op := (w0.extractLsb' 26 6).toNat
  if op = 0x3E ∨ op = 0x3F then .ok (.retiredLaneOpcode w0 (if w0.getLsbD 25 then w1 else 0))
  else if op = 0 then .error .laneUnassigned
  else if w0.getLsbD 25 then
    let sub := (w1.extractLsb' 26 6).toNat
    match codeRow singleCodes op with
    | some mk => if sub = 0 then .ok (mk (longFields w0 w1)) else .error (.subReserved op sub)
    | none =>
      if op = 0x29 ∧ sub = 3 then .ok (decodeRslot (longFields w0 w1))
      else match codeRow groupCodes (64 * op + sub) with
        | some mk => .ok (mk (longFields w0 w1))
        | none => if 0x20 ≤ op ∧ op ≤ 0x2A then .error (.subReserved op sub) else .error (.laneReserved op)
  else
    match codeRow shortCodes op with
    | some mk => .ok (mk (shortFields w0))
    | none => if 0x20 ≤ op ∧ op ≤ 0x2A then .error (.groupShort op) else .error (.laneReserved op)

/-- The instruction of the bits of the opcode table, which gives bits to lane instructions alone: the first word in
bits 31 to 0, the second in bits 63 to 32 (03 R74). -/
def decodeTableWord (nbits w : Nat) : Option Instr :=
  if nbits ≤ 64 then (decodeLane (BitVec.ofNat 32 w) (BitVec.ofNat 32 (w / 2 ^ 32))).toOption else none

/-! ### The encoder -/

/-- A scalar slot with guard "always" (02 R44, R47). -/
def encodeSlot (op : Nat) (f : SFields) : BitVec 48 :=
  (BitVec.ofNat 7 op ++ (31 : BitVec 5) ++ f.dst ++ BitVec.ofBool f.ma ++ f.sa ++ BitVec.ofBool f.mb ++ f.sb ++ f.imm : BitVec 48)

/-- An operand field. -/
def encodeOperand (o : EOperand) : BitVec 9 := (o.kind ++ o.idx ++ BitVec.ofBool o.hold : BitVec 9)

/-- An engine slot with guard "always" (02 R46, R47). -/
def encodeEngineSlot (n : BitVec 8) (f : EFields) : BitVec 64 :=
  (n ++ (31 : BitVec 5) ++ f.scope ++ encodeOperand f.opa ++ encodeOperand f.opb ++ encodeOperand f.opc ++
    encodeOperand f.opd ++ f.mod : BitVec 64)

/-- A short form (03 R74). -/
def encodeShort (op : Nat) (f : LShort) : W32 :=
  (BitVec.ofNat 6 op ++ (0 : BitVec 1) ++ BitVec.ofBool f.gn ++ f.gp ++ f.d ++ f.a ++ f.b : BitVec 32)

/-- The first word of a long form (03 R74). -/
def encodeLong0 (op : Nat) (f : LLong) : W32 :=
  (BitVec.ofNat 6 op ++ (1 : BitVec 1) ++ BitVec.ofBool f.gn ++ f.gp ++ f.d ++ f.a ++ f.b : BitVec 32)
/-- The second word of a long form (03 R75). -/
def encodeLong1 (sub : Nat) (f : LLong) : W32 :=
  (BitVec.ofNat 6 sub ++ f.ty ++ BitVec.ofBool f.u ++ f.mod ++ f.imm : BitVec 32)

/-- How an instruction is encoded: its code in its map and its fields; a happening has no words. -/
inductive EncForm where
  | scalar (op : Nat) (f : SFields)
  | engine (n : BitVec 8) (f : EFields)
  | short (op : Nat) (f : LShort)
  | long (op sub : Nat) (f : LLong)
  | words (w0 w1 : W32)
  | none
deriving DecidableEq, Repr

/-- The encoding of every instruction (04 R85, R87, R90, R91). -/
def encForm (i : Instr) : EncForm :=
  match i with
  | .bundleIssue _ => .none
  | .longLatencyResult _ _ _ => .none
  | .add f => .scalar 0x01 f
  | .sub f => .scalar 0x02 f
  | .mul f => .scalar 0x03 f
  | .mulhS f => .scalar 0x04 f
  | .mulhN f => .scalar 0x05 f
  | .divS f => .scalar 0x06 f
  | .divN f => .scalar 0x07 f
  | .remS f => .scalar 0x08 f
  | .remN f => .scalar 0x09 f
  | .and f => .scalar 0x0A f
  | .or f => .scalar 0x0B f
  | .xor f => .scalar 0x0C f
  | .andn f => .scalar 0x0D f
  | .shl f => .scalar 0x0E f
  | .shr f => .scalar 0x0F f
  | .sra f => .scalar 0x10 f
  | .minS f => .scalar 0x11 f
  | .minN f => .scalar 0x12 f
  | .maxS f => .scalar 0x13 f
  | .maxN f => .scalar 0x14 f
  | .clz f => .scalar 0x15 f
  | .popc f => .scalar 0x16 f
  | .sel f => .scalar 0x17 f
  | .madd f => .scalar 0x18 f
  | .lea f => .scalar 0x19 f
  | .li f => .scalar 0x1A f
  | .lih f => .scalar 0x1B f
  | .addI f => .scalar 0x21 f
  | .subI f => .scalar 0x22 f
  | .mulI f => .scalar 0x23 f
  | .mulhSI f => .scalar 0x24 f
  | .mulhNI f => .scalar 0x25 f
  | .divSI f => .scalar 0x26 f
  | .divNI f => .scalar 0x27 f
  | .remSI f => .scalar 0x28 f
  | .remNI f => .scalar 0x29 f
  | .andI f => .scalar 0x2A f
  | .orI f => .scalar 0x2B f
  | .xorI f => .scalar 0x2C f
  | .andnI f => .scalar 0x2D f
  | .shlI f => .scalar 0x2E f
  | .shrI f => .scalar 0x2F f
  | .sraI f => .scalar 0x30 f
  | .minSI f => .scalar 0x31 f
  | .minNI f => .scalar 0x32 f
  | .maxSI f => .scalar 0x33 f
  | .maxNI f => .scalar 0x34 f
  | .cand f => .scalar 0x35 f
  | .cor f => .scalar 0x36 f
  | .cnot f => .scalar 0x37 f
  | .cmpEq f => .scalar 0x38 f
  | .cmpNe f => .scalar 0x39 f
  | .cmpLtS f => .scalar 0x3A f
  | .cmpLeS f => .scalar 0x3B f
  | .cmpLtN f => .scalar 0x3C f
  | .cmpLeN f => .scalar 0x3D f
  | .cmpEqI f => .scalar 0x40 f
  | .cmpNeI f => .scalar 0x41 f
  | .cmpLtSI f => .scalar 0x42 f
  | .cmpLeSI f => .scalar 0x43 f
  | .cmpLtNI f => .scalar 0x44 f
  | .cmpLeNI f => .scalar 0x45 f
  | .catm f => .scalar 0x46 f
  | .cwait f => .scalar 0x47 f
  | .ldLB8N f => .scalar 0x48 f
  | .ldLB16N f => .scalar 0x49 f
  | .ldLB32N f => .scalar 0x4A f
  | .ldLB64 f => .scalar 0x4B f
  | .ldLB8S f => .scalar 0x4C f
  | .ldLB16S f => .scalar 0x4D f
  | .ldLB32S f => .scalar 0x4E f
  | .stLB8 f => .scalar 0x50 f
  | .stLB16 f => .scalar 0x51 f
  | .stLB32 f => .scalar 0x52 f
  | .stLB64 f => .scalar 0x53 f
  | .lpset f => .scalar 0x54 f
  | .call f => .scalar 0x55 f
  | .ret f => .scalar 0x56 f
  | .jmpx f => .scalar 0x57 f
  | .ldGB8N f => .scalar 0x58 f
  | .ldGB16N f => .scalar 0x59 f
  | .ldGB32N f => .scalar 0x5A f
  | .ldGB64 f => .scalar 0x5B f
  | .ldGB8S f => .scalar 0x5C f
  | .ldGB16S f => .scalar 0x5D f
  | .ldGB32S f => .scalar 0x5E f
  | .stGB8 f => .scalar 0x60 f
  | .stGB16 f => .scalar 0x61 f
  | .stGB32 f => .scalar 0x62 f
  | .stGB64 f => .scalar 0x63 f
  | .snext f => .scalar 0x64 f
  | .spawn f => .scalar 0x65 f
  | .spawnNb f => .scalar 0x66 f
  | .sync f => .scalar 0x67 f
  | .merge f => .scalar 0x68 f
  | .tend f => .scalar 0x69 f
  | .tbar f => .scalar 0x6A f
  | .evarm f => .scalar 0x6B f
  | .evdis f => .scalar 0x6C f
  | .twany f => .scalar 0x6D f
  | .evret f => .scalar 0x6E f
  | .crd f => .scalar 0x6F f
  | .cwr f => .scalar 0x70 f
  | .phase f => .scalar 0x71 f
  | .fence f => .scalar 0x72 f
  | .fbar f => .scalar 0x73 f
  | .brk f => .scalar 0x74 f
  | .trap f => .scalar 0x75 f
  | .nop f => .scalar 0x76 f
  | .fstop f => .scalar 0x77 f
  | .fdef f => .scalar 0x78 f
  | .fring f => .scalar 0x79 f
  | .fcode f => .scalar 0x7A f
  | .fwalk f => .scalar 0x7B f
  | .fcopy f => .scalar 0x7C f
  | .fpage f => .scalar 0x7D f
  | .fwait f => .scalar 0x7E f
  | .fstat f => .scalar 0x7F f
  | .tres f => .engine 0x00 f
  | .trel f => .engine 0x01 f
  | .tcfg f => .engine 0x02 f
  | .tld f => .engine 0x03 f
  | .tldX8 f => .engine 0x04 f
  | .tldX16 f => .engine 0x05 f
  | .tst f => .engine 0x06 f
  | .tzero f => .engine 0x07 f
  | .zclr f => .engine 0x08 f
  | .zld f => .engine 0x09 f
  | .zdrain f => .engine 0x0A f
  | .fbind f => .engine 0x0B f
  | .fig f => .engine 0x0C f
  | .mmaBf16 f => .engine 0x10 f
  | .mmaF16 f => .engine 0x11 f
  | .mmaE4m3 f => .engine 0x12 f
  | .mmaE5m2 f => .engine 0x13 f
  | .mmaI8 f => .engine 0x14 f
  | .mmaMx8 f => .engine 0x15 f
  | .mmaMx6 f => .engine 0x16 f
  | .mmaMx4 f => .engine 0x17 f
  | .mmaI4 f => .engine 0x18 f
  | .mmaI4e f => .engine 0x19 f
  | .mmaF64 f => .engine 0x1A f
  | .tcvt f => .engine 0x40 f
  | .tadd f => .engine 0x41 f
  | .tmul f => .engine 0x42 f
  | .tfma f => .engine 0x43 f
  | .tscale f => .engine 0x44 f
  | .tmaxr f => .engine 0x45 f
  | .tsumr f => .engine 0x46 f
  | .texp2 f => .engine 0x47 f
  | .tmask f => .engine 0x48 f
  | .tsel f => .engine 0x49 f
  | .tquant f => .engine 0x4A f
  | .tdequant f => .engine 0x4B f
  | .ttrans f => .engine 0x4C f
  | .hardBoundFigure n f => .engine n f
  | .routineBoundFigure n f => .engine n f
  | .unboundFigureIssue n f => .engine n f
  | .retiredFigureIssue n f => .engine n f
  | .retiredOpEmulation _ _ _ => .none
  | .troupeRendezvous _ => .none
  | .engineJobStart _ _ => .none
  | .engineJobComplete _ _ => .none
  | .engineErrorStop _ _ => .none
  | .fbindComplete _ _ => .none
  | .issuePass _ _ => .none
  | .strandRotation _ _ => .none
  | .laneResultArrival _ _ _ _ => .none
  | .hangDetect _ _ _ => .none
  | .hangctlWrite _ _ _ => .none
  | .iadd f => .short 0x01 f
  | .isub f => .short 0x02 f
  | .imul f => .short 0x03 f
  | .laneAnd f => .short 0x04 f
  | .laneOr f => .short 0x05 f
  | .laneXor f => .short 0x06 f
  | .laneShl f => .short 0x07 f
  | .laneShr f => .short 0x08 f
  | .laneSra f => .short 0x09 f
  | .imin f => .short 0x0A f
  | .imax f => .short 0x0B f
  | .mov f => .short 0x0C f
  | .lanePopc f => .short 0x0D f
  | .laneClz f => .short 0x0E f
  | .not f => .short 0x0F f
  | .fadd f => .short 0x10 f
  | .fsub f => .short 0x11 f
  | .fmul f => .short 0x12 f
  | .fmin f => .short 0x13 f
  | .fmax f => .short 0x14 f
  | .fabs f => .short 0x15 f
  | .fneg f => .short 0x16 f
  | .dadd f => .short 0x17 f
  | .dsub f => .short 0x18 f
  | .dmul f => .short 0x19 f
  | .laneLdL f => .short 0x1A f
  | .laneStL f => .short 0x1B f
  | .exit f => .short 0x1C f
  | .laneNop f => .short 0x1D f
  | .yield f => .short 0x1E f
  | .iaddLong f => .long 0x01 0x00 f
  | .isubLong f => .long 0x02 0x00 f
  | .imulLong f => .long 0x03 0x00 f
  | .laneAndLong f => .long 0x04 0x00 f
  | .laneOrLong f => .long 0x05 0x00 f
  | .laneXorLong f => .long 0x06 0x00 f
  | .laneShlLong f => .long 0x07 0x00 f
  | .laneShrLong f => .long 0x08 0x00 f
  | .laneSraLong f => .long 0x09 0x00 f
  | .iminLong f => .long 0x0A 0x00 f
  | .imaxLong f => .long 0x0B 0x00 f
  | .movLong f => .long 0x0C 0x00 f
  | .lanePopcLong f => .long 0x0D 0x00 f
  | .laneClzLong f => .long 0x0E 0x00 f
  | .notLong f => .long 0x0F 0x00 f
  | .faddLong f => .long 0x10 0x00 f
  | .fsubLong f => .long 0x11 0x00 f
  | .fmulLong f => .long 0x12 0x00 f
  | .fminLong f => .long 0x13 0x00 f
  | .fmaxLong f => .long 0x14 0x00 f
  | .fabsLong f => .long 0x15 0x00 f
  | .fnegLong f => .long 0x16 0x00 f
  | .daddLong f => .long 0x17 0x00 f
  | .dsubLong f => .long 0x18 0x00 f
  | .dmulLong f => .long 0x19 0x00 f
  | .laneLdLLong f => .long 0x1A 0x00 f
  | .laneStLLong f => .long 0x1B 0x00 f
  | .exitLong f => .long 0x1C 0x00 f
  | .laneNopLong f => .long 0x1D 0x00 f
  | .yieldLong f => .long 0x1E 0x00 f
  | .imulh f => .long 0x20 0x00 f
  | .imad f => .long 0x20 0x01 f
  | .iabs f => .long 0x20 0x02 f
  | .ineg f => .long 0x20 0x03 f
  | .rot f => .long 0x20 0x04 f
  | .brev f => .long 0x20 0x05 f
  | .bfe f => .long 0x20 0x06 f
  | .bfi f => .long 0x20 0x07 f
  | .prmt f => .long 0x20 0x08 f
  | .laneSel f => .long 0x20 0x09 f
  | .setp f => .long 0x20 0x0A f
  | .laneLea f => .long 0x20 0x0B f
  | .movi f => .long 0x20 0x0C f
  | .dot4 f => .long 0x20 0x0D f
  | .ffma f => .long 0x21 0x00 f
  | .fsetp f => .long 0x21 0x01 f
  | .frcp f => .long 0x21 0x02 f
  | .frsq f => .long 0x21 0x03 f
  | .fsqrt f => .long 0x21 0x04 f
  | .fexp2 f => .long 0x21 0x05 f
  | .flog2 f => .long 0x21 0x06 f
  | .fsin f => .long 0x21 0x07 f
  | .fcos f => .long 0x21 0x08 f
  | .dfma f => .long 0x22 0x00 f
  | .dmin f => .long 0x22 0x01 f
  | .dmax f => .long 0x22 0x02 f
  | .dsetp f => .long 0x22 0x03 f
  | .drcp f => .long 0x22 0x04 f
  | .cvt f => .long 0x23 0x00 f
  | .cvtMx f => .long 0x23 0x01 f
  | .laneLdG f => .long 0x24 0x00 f
  | .laneStG f => .long 0x24 0x01 f
  | .ldC f => .long 0x24 0x02 f
  | .ldt f => .long 0x24 0x03 f
  | .stt f => .long 0x24 0x04 f
  | .ldx f => .long 0x24 0x05 f
  | .stx f => .long 0x24 0x06 f
  | .atom f => .long 0x25 0x00 f
  | .atomCas f => .long 0x25 0x01 f
  | .red f => .long 0x25 0x02 f
  | .qpush f => .long 0x25 0x03 f
  | .qpop f => .long 0x25 0x04 f
  | .qlen f => .long 0x25 0x05 f
  | .bra f => .long 0x26 0x00 f
  | .brx f => .long 0x26 0x01 f
  | .laneCall f => .long 0x26 0x02 f
  | .laneRet f => .long 0x26 0x03 f
  | .join f => .long 0x26 0x04 f
  | .joinCompletion _ _ _ _ => .none
  | .joinTimeout _ _ _ _ => .none
  | .gbar f => .long 0x27 0x00 f
  | .barv f => .long 0x27 0x01 f
  | .barw f => .long 0x27 0x02 f
  | .vote f => .long 0x27 0x03 f
  | .shfl f => .long 0x27 0x04 f
  | .matchLanes f => .long 0x27 0x05 f
  | .laneFence f => .long 0x27 0x06 f
  | .lanePhase f => .long 0x27 0x07 f
  | .laneEvarm f => .long 0x28 0x00 f
  | .laneEvdis f => .long 0x28 0x01 f
  | .wany f => .long 0x28 0x02 f
  | .laneEvret f => .long 0x28 0x03 f
  | .mbsend f => .long 0x28 0x04 f
  | .bxfer f => .long 0x29 0x00 f
  | .rget f => .long 0x29 0x01 f
  | .ratom f => .long 0x29 0x02 f
  | .rslotAlloc f => .long 0x29 0x03 f
  | .rslotPut f => .long 0x29 0x03 f
  | .rslotGet f => .long 0x29 0x03 f
  | .rslotFree f => .long 0x29 0x03 f
  | .renq f => .long 0x29 0x04 f
  | .laneFig f => .long 0x2A 0x00 f
  | .fret f => .long 0x2A 0x01 f
  | .laneCrd f => .long 0x2A 0x02 f
  | .laneCwr f => .long 0x2A 0x03 f
  | .laneTrap f => .long 0x2A 0x04 f
  | .laneBrk f => .long 0x2A 0x05 f
  | .laneFbar f => .long 0x2A 0x06 f
  | .retiredLaneOpcode w0 w1 => .words w0 w1
  | .qpushServe _ _ => .none
  | .qpopServe _ _ => .none
  | .redPerform _ _ _ _ => .none
  | .strandFinish _ _ _ => .none
  | .routineGangStart _ _ _ => .none
  | .instanceComplete _ _ => .none
  | .landingBankServe _ _ => .none
  | .writeArrival _ _ => .none
  | .transferStart _ _ => .none
  | .transferComplete _ _ _ => .none
  | .ferryPageFault _ _ => .none
  | .ferryHaltError _ _ => .none
  | .fpageComplete _ _ => .none
  | .tlbMissWalk _ _ _ => .none
  | .eventFire _ _ _ => .none
  | .timerSlotExpiry _ _ _ => .none
  | .evpostWrite _ _ _ => .none
  | .handlerEntry _ _ => .none
  | .strandHandlerEntry _ _ _ => .none
  | .savedTierDelivery _ _ => .none
  | .stepStart _ _ => .none
  | .stepEnd _ _ => .none
  | .launchRecordTake _ => .none
  | .taskDispatch _ => .none
  | .staggerExpiry _ _ => .none
  | .spawnUnpark _ => .none
  | .spawnAnswer _ _ => .none
  | .spawnDeadlockDetect _ => .none
  | .viewFill _ => .none
  | .childMerge _ => .none
  | .syncRelease _ _ => .none
  | .trapRecordWrite _ _ => .none
  | .trapringWrite _ _ _ => .none
  | .tlbinvWrite _ _ => .none
  | .tlbinvComplete => .none
  | .preemptWrite _ _ => .none
  | .preemptStop _ _ => .none
  | .graceExpiry _ _ => .none
  | .deviceSwap _ => .none
  | .taskRestore _ => .none
  | .retry _ _ => .none
  | .skip _ _ => .none
  | .replay _ _ => .none
  | .discard _ _ => .none
  | .abort _ _ => .none
  | .ferry _ _ => .none
  | .restore _ _ => .none
  | .checkpointStream _ _ _ => .none
  | .cwentWrite _ _ => .none
  | .cwswapWrite _ _ => .none
  | .cwswapSwitch => .none
  | .registerWrite _ _ _ => .none
  | .readClear _ _ => .none
  | .linkTraining _ _ _ _ => .none
  | .stopSignal _ _ _ _ => .none
  | .circuitFlitArrival _ _ _ _ _ => .none
  | .circuitFlitDepart _ _ => .none
  | .packetFlitSend _ _ => .none
  | .requestTimeout _ _ => .none
  | .replyArrival _ _ => .none
  | .refusalArrival _ _ => .none
  | .bulkPacketArrival _ => .none
  | .bulkAckArrival _ _ => .none
  | .remoteRequestServe _ => .none
  | .mailboxArrival _ => .none
  | .combineRelease _ _ => .none
  | .rslotAllocServe _ => .none
  | .rslotPutArrival _ => .none
  | .rslotTimeout _ _ => .none
  | .noticeArrival _ => .none
  | .rslotFreeArrival _ => .none
  | .enqueueArrival _ => .none
  | .enqueueRetry _ _ => .none
  | .bar0AccessError _ _ _ _ => .none
  | .hostBar2Read _ _ _ => .none
  | .hostBar2Write _ _ _ => .none
  | .hostAtomicop _ _ _ _ _ _ => .none
  | .qctlWrite _ _ _ => .none
  | .qctlApply _ => .none
  | .qtailWrite _ _ _ => .none
  | .deviceReset _ => .none
  | .bootStepLimitExpiry _ => .none
  | .blockHold _ _ _ => .none
  | .powerStatusUpdate => .none
  | .errorHistoryEntry _ _ _ _ => .none
  | .rowSpare _ => .none
  | .attestationPoll => .none
  | .phaseComplete _ _ => .none
  | .rslotGetTimeout _ _ => .none
  | .timedOutTagRelease _ _ => .none
  | .singleStep _ _ _ _ => .none
  | .softError _ => .none
  | .pcieLinkDown _ _ => .none

/-- A bundle that holds one operation: a scalar one in S0, a Ferry command in S1 (02 R42), an engine one in E. -/
def oneBundle (e : EncForm) : Bundle :=
  match e with
  | .scalar op f =>
    let x := f.x.getD 0
    let own (k : Nat) : BitVec 2 := if f.x.isSome then BitVec.ofNat 2 k else 0
    if isFerryCode op then { (default : Bundle) with s1p := true, s1 := encodeSlot op f, xown := own 2, x := x }
    else { (default : Bundle) with s0p := true, s0 := encodeSlot op f, xown := own 1, x := x }
  | .engine n f => { (default : Bundle) with ep := true, e := encodeEngineSlot n f }
  | _ => default

/-- The 32-bit words of a 256-bit bundle, lowest address first. -/
def wordsOf (w : W256) : List W32 := (List.range 8).map (fun i => w.extractLsb' (32 * i) 32)

/-- The words of an instruction, the first at the lowest address; none for a happening. -/
def encode (i : Instr) : List W32 :=
  match encForm i with
  | .short op f => [encodeShort op f]
  | .long op sub f => [encodeLong0 op f, encodeLong1 sub f]
  | .words w0 w1 => if w0.getLsbD 25 then [w0, w1] else [w0]
  | .none => []
  | e => wordsOf (encodeBundle (oneBundle e))

/-- The instruction of a list of words: lane words one or two, a bundle eight. -/
noncomputable def decode (ws : List W32) : Except DecodeError Instr :=
  match ws with
  | [w0] => if w0.getLsbD 25 then .error (.noWords 32) else decodeLane w0 0
  | [w0, w1] => if w0.getLsbD 25 then decodeLane w0 w1 else .error (.noWords 64)
  | [a, b, c, d, e, f, g, h] => decodeOne (h ++ g ++ f ++ e ++ d ++ c ++ b ++ a : BitVec 256)
  | ws => .error (.noWords (32 * ws.length))

end Sys2Proof
end

