-- ==== Sys2Proof/Machine/Scalar.lean ====
section
/-! DEFINITION. The scalar integer, compare and condition operations (spec 05 R97 to R101): the meaning of each in a
slot of a bundle, and its issue alone. -/
namespace Sys2Proof.Machine

/-- The high 64 bits of a signed product. -/
def mulhS (a b : Word) : Word := BitVec.ofInt 64 (a.toInt * b.toInt / 2 ^ 64)
/-- The high 64 bits of an unsigned product. -/
def mulhN (a b : Word) : Word := BitVec.ofNat 64 (a.toNat * b.toNat / 2 ^ 64)
/-- The truncated signed quotient; −2^63 ÷ −1 is −2^63 (05 R99). -/
def divS (a b : Word) : Word := BitVec.ofInt 64 (a.toInt.tdiv b.toInt)
/-- The signed remainder, with the sign of a (05 R99). -/
def remS (a b : Word) : Word := BitVec.ofInt 64 (a.toInt.tmod b.toInt)
/-- The unsigned quotient (05 R99). -/
def divN (a b : Word) : Word := BitVec.ofNat 64 (a.toNat / b.toNat)
/-- The unsigned remainder (05 R99). -/
def remN (a b : Word) : Word := BitVec.ofNat 64 (a.toNat % b.toNat)
/-- The number of leading zero bits of a number below 2^w. -/
def clzNat (w n : Nat) : Nat := if n = 0 then w else w - 1 - Nat.log2 n
/-- The number of one bits among the low `w` bits of a number. -/
def popcNat (w n : Nat) : Nat := match w with | 0 => 0 | k + 1 => n % 2 + popcNat k (n / 2)
/-- Leading zeros of a word. -/
def clz64 (a : Word) : Word := BitVec.ofNat 64 (clzNat 64 a.toNat)
/-- One bits of a word. -/
def popc64 (a : Word) : Word := BitVec.ofNat 64 (popcNat 64 a.toNat)

/-- add (05 R98) -/
def slotAdd (f : SFields) (env : SEnv) (s : State) : SlotRes := aluRR (fun a b => a + b) f env s

/-- add (05 R98), issued alone. -/
def execAdd (f : SFields) (s : State) : Out := issueOne 0 (slotAdd f) s

/-- sub (05 R98) -/
def slotSub (f : SFields) (env : SEnv) (s : State) : SlotRes := aluRR (fun a b => a - b) f env s

/-- sub (05 R98), issued alone. -/
def execSub (f : SFields) (s : State) : Out := issueOne 0 (slotSub f) s

/-- mul (05 R98) -/
def slotMul (f : SFields) (env : SEnv) (s : State) : SlotRes := aluRR (fun a b => a * b) f env s

/-- mul (05 R98), issued alone. -/
def execMul (f : SFields) (s : State) : Out := issueOne 0 (slotMul f) s

/-- mulh.s (05 R98) -/
def slotMulhS (f : SFields) (env : SEnv) (s : State) : SlotRes := aluRR (fun a b => mulhS a b) f env s

/-- mulh.s (05 R98), issued alone. -/
def execMulhS (f : SFields) (s : State) : Out := issueOne 0 (slotMulhS f) s

/-- mulh.n (05 R98) -/
def slotMulhN (f : SFields) (env : SEnv) (s : State) : SlotRes := aluRR (fun a b => mulhN a b) f env s

/-- mulh.n (05 R98), issued alone. -/
def execMulhN (f : SFields) (s : State) : Out := issueOne 0 (slotMulhN f) s

/-- and (05 R98) -/
def slotAnd (f : SFields) (env : SEnv) (s : State) : SlotRes := aluRR (fun a b => a &&& b) f env s

/-- and (05 R98), issued alone. -/
def execAnd (f : SFields) (s : State) : Out := issueOne 0 (slotAnd f) s

/-- or (05 R98) -/
def slotOr (f : SFields) (env : SEnv) (s : State) : SlotRes := aluRR (fun a b => a ||| b) f env s

/-- or (05 R98), issued alone. -/
def execOr (f : SFields) (s : State) : Out := issueOne 0 (slotOr f) s

/-- xor (05 R98) -/
def slotXor (f : SFields) (env : SEnv) (s : State) : SlotRes := aluRR (fun a b => a ^^^ b) f env s

/-- xor (05 R98), issued alone. -/
def execXor (f : SFields) (s : State) : Out := issueOne 0 (slotXor f) s

/-- andn (05 R98) -/
def slotAndn (f : SFields) (env : SEnv) (s : State) : SlotRes := aluRR (fun a b => a &&& ~~~b) f env s

/-- andn (05 R98), issued alone. -/
def execAndn (f : SFields) (s : State) : Out := issueOne 0 (slotAndn f) s

/-- shl (05 R98) -/
def slotShl (f : SFields) (env : SEnv) (s : State) : SlotRes := aluRR (fun a b => a <<< (b.toNat % 64)) f env s

/-- shl (05 R98), issued alone. -/
def execShl (f : SFields) (s : State) : Out := issueOne 0 (slotShl f) s

/-- shr (05 R98) -/
def slotShr (f : SFields) (env : SEnv) (s : State) : SlotRes := aluRR (fun a b => a >>> (b.toNat % 64)) f env s

/-- shr (05 R98), issued alone. -/
def execShr (f : SFields) (s : State) : Out := issueOne 0 (slotShr f) s

/-- sra (05 R98) -/
def slotSra (f : SFields) (env : SEnv) (s : State) : SlotRes := aluRR (fun a b => a.sshiftRight (b.toNat % 64)) f env s

/-- sra (05 R98), issued alone. -/
def execSra (f : SFields) (s : State) : Out := issueOne 0 (slotSra f) s

/-- min.s (05 R98) -/
def slotMinS (f : SFields) (env : SEnv) (s : State) : SlotRes := aluRR (fun a b => if a.slt b then a else b) f env s

/-- min.s (05 R98), issued alone. -/
def execMinS (f : SFields) (s : State) : Out := issueOne 0 (slotMinS f) s

/-- min.n (05 R98) -/
def slotMinN (f : SFields) (env : SEnv) (s : State) : SlotRes := aluRR (fun a b => if a.ult b then a else b) f env s

/-- min.n (05 R98), issued alone. -/
def execMinN (f : SFields) (s : State) : Out := issueOne 0 (slotMinN f) s

/-- max.s (05 R98) -/
def slotMaxS (f : SFields) (env : SEnv) (s : State) : SlotRes := aluRR (fun a b => if a.slt b then b else a) f env s

/-- max.s (05 R98), issued alone. -/
def execMaxS (f : SFields) (s : State) : Out := issueOne 0 (slotMaxS f) s

/-- max.n (05 R98) -/
def slotMaxN (f : SFields) (env : SEnv) (s : State) : SlotRes := aluRR (fun a b => if a.ult b then b else a) f env s

/-- max.n (05 R98), issued alone. -/
def execMaxN (f : SFields) (s : State) : Out := issueOne 0 (slotMaxN f) s

/-- div.s (05 R99) -/
def slotDivS (f : SFields) (env : SEnv) (s : State) : SlotRes := divRR (fun a b => divS a b) f env s

/-- div.s (05 R99), issued alone. -/
def execDivS (f : SFields) (s : State) : Out := issueOne 0 (slotDivS f) s

/-- div.n (05 R99) -/
def slotDivN (f : SFields) (env : SEnv) (s : State) : SlotRes := divRR (fun a b => divN a b) f env s

/-- div.n (05 R99), issued alone. -/
def execDivN (f : SFields) (s : State) : Out := issueOne 0 (slotDivN f) s

/-- rem.s (05 R99) -/
def slotRemS (f : SFields) (env : SEnv) (s : State) : SlotRes := divRR (fun a b => remS a b) f env s

/-- rem.s (05 R99), issued alone. -/
def execRemS (f : SFields) (s : State) : Out := issueOne 0 (slotRemS f) s

/-- rem.n (05 R99) -/
def slotRemN (f : SFields) (env : SEnv) (s : State) : SlotRes := divRR (fun a b => remN a b) f env s

/-- rem.n (05 R99), issued alone. -/
def execRemN (f : SFields) (s : State) : Out := issueOne 0 (slotRemN f) s

/-- clz (05 R98) -/
def slotClz (f : SFields) (env : SEnv) (s : State) : SlotRes := scalarOp .x .x .none true false f env s (fun a _ => .done (env.writeX s f.dst.toNat (clz64 a)))

/-- clz (05 R98), issued alone. -/
def execClz (f : SFields) (s : State) : Out := issueOne 0 (slotClz f) s

/-- popc (05 R98) -/
def slotPopc (f : SFields) (env : SEnv) (s : State) : SlotRes := scalarOp .x .x .none true false f env s (fun a _ => .done (env.writeX s f.dst.toNat (popc64 a)))

/-- popc (05 R98), issued alone. -/
def execPopc (f : SFields) (s : State) : Out := issueOne 0 (slotPopc f) s

/-- sel (05 R98): x[dst] := c[imm[3:0]] ? a : x[sb]. An X word that its slot owns is not looked at (DEDUCED, log 103). -/
def slotSel (f : SFields) (env : SEnv) (s : State) : SlotRes := 
  scalarOp .x .x .x (f.imm.toNat < 16) false f env s (fun a b =>
    if env.pre.cAwaited f.imm.toNat then .hold s
    else .done (env.writeX s f.dst.toNat (if env.pre.getC f.imm.toNat then a else b)))

/-- sel (05 R98), issued alone. -/
def execSel (f : SFields) (s : State) : Out := issueOne 0 (slotSel f) s

/-- madd (05 R98): x[dst] + a × x[sb] -/
def slotMadd (f : SFields) (env : SEnv) (s : State) : SlotRes := 
  scalarOp .xr .x .x true false f env s (fun a b =>
    .done (env.writeX s f.dst.toNat (env.pre.getX f.dst.toNat + a * b)))

/-- madd (05 R98), issued alone. -/
def execMadd (f : SFields) (s : State) : Out := issueOne 0 (slotMadd f) s

/-- lea (05 R98): a + (x[sb] << imm[2:0]). An X word that its slot owns is not looked at (DEDUCED, log 103). -/
def slotLea (f : SFields) (env : SEnv) (s : State) : SlotRes := 
  scalarOp .x .x .x (f.imm.toNat < 8) false f env s (fun a b =>
    .done (env.writeX s f.dst.toNat (a + b <<< f.imm.toNat)))

/-- lea (05 R98), issued alone. -/
def execLea (f : SFields) (s : State) : Out := issueOne 0 (slotLea f) s

/-- li (05 R98): the immediate under R45 -/
def slotLi (f : SFields) (env : SEnv) (s : State) : SlotRes := 
  scalarOp .x .none .none true false f env s (fun _ _ => .done (env.writeX s f.dst.toNat (sImmS f)))

/-- li (05 R98), issued alone. -/
def execLi (f : SFields) (s : State) : Out := issueOne 0 (slotLi f) s

/-- lih (05 R98): x[dst] with bits [63:48] replaced by imm -/
def slotLih (f : SFields) (env : SEnv) (s : State) : SlotRes := 
  scalarOp .xr .none .none f.x.isNone false f env s (fun _ _ =>
    .done (env.writeX s f.dst.toNat (f.imm ++ (env.pre.getX f.dst.toNat).extractLsb' 0 48)))

/-- lih (05 R98), issued alone. -/
def execLih (f : SFields) (s : State) : Out := issueOne 0 (slotLih f) s

/-- add, immediate form (05 R98, 04 R86) -/
def slotAddI (f : SFields) (env : SEnv) (s : State) : SlotRes := aluRI (fun a b => a + b) f env s

/-- add, immediate form (05 R98, 04 R86), issued alone. -/
def execAddI (f : SFields) (s : State) : Out := issueOne 0 (slotAddI f) s

/-- sub, immediate form (05 R98, 04 R86) -/
def slotSubI (f : SFields) (env : SEnv) (s : State) : SlotRes := aluRI (fun a b => a - b) f env s

/-- sub, immediate form (05 R98, 04 R86), issued alone. -/
def execSubI (f : SFields) (s : State) : Out := issueOne 0 (slotSubI f) s

/-- mul, immediate form (05 R98, 04 R86) -/
def slotMulI (f : SFields) (env : SEnv) (s : State) : SlotRes := aluRI (fun a b => a * b) f env s

/-- mul, immediate form (05 R98, 04 R86), issued alone. -/
def execMulI (f : SFields) (s : State) : Out := issueOne 0 (slotMulI f) s

/-- mulh.s, immediate form (05 R98, 04 R86) -/
def slotMulhSI (f : SFields) (env : SEnv) (s : State) : SlotRes := aluRI (fun a b => mulhS a b) f env s

/-- mulh.s, immediate form (05 R98, 04 R86), issued alone. -/
def execMulhSI (f : SFields) (s : State) : Out := issueOne 0 (slotMulhSI f) s

/-- mulh.n, immediate form (05 R98, 04 R86) -/
def slotMulhNI (f : SFields) (env : SEnv) (s : State) : SlotRes := aluRI (fun a b => mulhN a b) f env s

/-- mulh.n, immediate form (05 R98, 04 R86), issued alone. -/
def execMulhNI (f : SFields) (s : State) : Out := issueOne 0 (slotMulhNI f) s

/-- and, immediate form (05 R98, 04 R86) -/
def slotAndI (f : SFields) (env : SEnv) (s : State) : SlotRes := aluRU (fun a b => a &&& b) f env s

/-- and, immediate form (05 R98, 04 R86), issued alone. -/
def execAndI (f : SFields) (s : State) : Out := issueOne 0 (slotAndI f) s

/-- or, immediate form (05 R98, 04 R86) -/
def slotOrI (f : SFields) (env : SEnv) (s : State) : SlotRes := aluRU (fun a b => a ||| b) f env s

/-- or, immediate form (05 R98, 04 R86), issued alone. -/
def execOrI (f : SFields) (s : State) : Out := issueOne 0 (slotOrI f) s

/-- xor, immediate form (05 R98, 04 R86) -/
def slotXorI (f : SFields) (env : SEnv) (s : State) : SlotRes := aluRU (fun a b => a ^^^ b) f env s

/-- xor, immediate form (05 R98, 04 R86), issued alone. -/
def execXorI (f : SFields) (s : State) : Out := issueOne 0 (slotXorI f) s

/-- andn, immediate form (05 R98, 04 R86) -/
def slotAndnI (f : SFields) (env : SEnv) (s : State) : SlotRes := aluRU (fun a b => a &&& ~~~b) f env s

/-- andn, immediate form (05 R98, 04 R86), issued alone. -/
def execAndnI (f : SFields) (s : State) : Out := issueOne 0 (slotAndnI f) s

/-- shl, immediate form (05 R98, 04 R86) -/
def slotShlI (f : SFields) (env : SEnv) (s : State) : SlotRes := aluRI (fun a b => a <<< (b.toNat % 64)) f env s

/-- shl, immediate form (05 R98, 04 R86), issued alone. -/
def execShlI (f : SFields) (s : State) : Out := issueOne 0 (slotShlI f) s

/-- shr, immediate form (05 R98, 04 R86) -/
def slotShrI (f : SFields) (env : SEnv) (s : State) : SlotRes := aluRI (fun a b => a >>> (b.toNat % 64)) f env s

/-- shr, immediate form (05 R98, 04 R86), issued alone. -/
def execShrI (f : SFields) (s : State) : Out := issueOne 0 (slotShrI f) s

/-- sra, immediate form (05 R98, 04 R86) -/
def slotSraI (f : SFields) (env : SEnv) (s : State) : SlotRes := aluRI (fun a b => a.sshiftRight (b.toNat % 64)) f env s

/-- sra, immediate form (05 R98, 04 R86), issued alone. -/
def execSraI (f : SFields) (s : State) : Out := issueOne 0 (slotSraI f) s

/-- min.s, immediate form (05 R98, 04 R86) -/
def slotMinSI (f : SFields) (env : SEnv) (s : State) : SlotRes := aluRI (fun a b => if a.slt b then a else b) f env s

/-- min.s, immediate form (05 R98, 04 R86), issued alone. -/
def execMinSI (f : SFields) (s : State) : Out := issueOne 0 (slotMinSI f) s

/-- min.n, immediate form (05 R98, 04 R86) -/
def slotMinNI (f : SFields) (env : SEnv) (s : State) : SlotRes := aluRI (fun a b => if a.ult b then a else b) f env s

/-- min.n, immediate form (05 R98, 04 R86), issued alone. -/
def execMinNI (f : SFields) (s : State) : Out := issueOne 0 (slotMinNI f) s

/-- max.s, immediate form (05 R98, 04 R86) -/
def slotMaxSI (f : SFields) (env : SEnv) (s : State) : SlotRes := aluRI (fun a b => if a.slt b then b else a) f env s

/-- max.s, immediate form (05 R98, 04 R86), issued alone. -/
def execMaxSI (f : SFields) (s : State) : Out := issueOne 0 (slotMaxSI f) s

/-- max.n, immediate form (05 R98, 04 R86) -/
def slotMaxNI (f : SFields) (env : SEnv) (s : State) : SlotRes := aluRI (fun a b => if a.ult b then b else a) f env s

/-- max.n, immediate form (05 R98, 04 R86), issued alone. -/
def execMaxNI (f : SFields) (s : State) : Out := issueOne 0 (slotMaxNI f) s

/-- div.s, immediate form (05 R99) -/
def slotDivSI (f : SFields) (env : SEnv) (s : State) : SlotRes := divRI (fun a b => divS a b) f env s

/-- div.s, immediate form (05 R99), issued alone. -/
def execDivSI (f : SFields) (s : State) : Out := issueOne 0 (slotDivSI f) s

/-- div.n, immediate form (05 R99) -/
def slotDivNI (f : SFields) (env : SEnv) (s : State) : SlotRes := divRI (fun a b => divN a b) f env s

/-- div.n, immediate form (05 R99), issued alone. -/
def execDivNI (f : SFields) (s : State) : Out := issueOne 0 (slotDivNI f) s

/-- rem.s, immediate form (05 R99) -/
def slotRemSI (f : SFields) (env : SEnv) (s : State) : SlotRes := divRI (fun a b => remS a b) f env s

/-- rem.s, immediate form (05 R99), issued alone. -/
def execRemSI (f : SFields) (s : State) : Out := issueOne 0 (slotRemSI f) s

/-- rem.n, immediate form (05 R99) -/
def slotRemNI (f : SFields) (env : SEnv) (s : State) : SlotRes := divRI (fun a b => remN a b) f env s

/-- rem.n, immediate form (05 R99), issued alone. -/
def execRemNI (f : SFields) (s : State) : Out := issueOne 0 (slotRemNI f) s

/-- cand (05 R101) -/
def slotCand (f : SFields) (env : SEnv) (s : State) : SlotRes := 
  scalarOp .c .c .c true false f env s (fun _ _ =>
    .done (env.writeC s f.dst.toNat (env.pre.getC f.sa.toNat && env.pre.getC f.sb.toNat)))

/-- cand (05 R101), issued alone. -/
def execCand (f : SFields) (s : State) : Out := issueOne 0 (slotCand f) s

/-- cor (05 R101) -/
def slotCor (f : SFields) (env : SEnv) (s : State) : SlotRes := 
  scalarOp .c .c .c true false f env s (fun _ _ =>
    .done (env.writeC s f.dst.toNat (env.pre.getC f.sa.toNat || env.pre.getC f.sb.toNat)))

/-- cor (05 R101), issued alone. -/
def execCor (f : SFields) (s : State) : Out := issueOne 0 (slotCor f) s

/-- cnot (05 R101) -/
def slotCnot (f : SFields) (env : SEnv) (s : State) : SlotRes := 
  scalarOp .c .c .none true false f env s (fun _ _ =>
    .done (env.writeC s f.dst.toNat (!env.pre.getC f.sa.toNat)))

/-- cnot (05 R101), issued alone. -/
def execCnot (f : SFields) (s : State) : Out := issueOne 0 (slotCnot f) s

/-- cmp.eq (05 R100) -/
def slotCmpEq (f : SFields) (env : SEnv) (s : State) : SlotRes := cmpRR (fun a b => a == b) f env s

/-- cmp.eq (05 R100), issued alone. -/
def execCmpEq (f : SFields) (s : State) : Out := issueOne 0 (slotCmpEq f) s

/-- cmp.ne (05 R100) -/
def slotCmpNe (f : SFields) (env : SEnv) (s : State) : SlotRes := cmpRR (fun a b => a != b) f env s

/-- cmp.ne (05 R100), issued alone. -/
def execCmpNe (f : SFields) (s : State) : Out := issueOne 0 (slotCmpNe f) s

/-- cmp.lt.s (05 R100) -/
def slotCmpLtS (f : SFields) (env : SEnv) (s : State) : SlotRes := cmpRR (fun a b => a.slt b) f env s

/-- cmp.lt.s (05 R100), issued alone. -/
def execCmpLtS (f : SFields) (s : State) : Out := issueOne 0 (slotCmpLtS f) s

/-- cmp.le.s (05 R100) -/
def slotCmpLeS (f : SFields) (env : SEnv) (s : State) : SlotRes := cmpRR (fun a b => a.sle b) f env s

/-- cmp.le.s (05 R100), issued alone. -/
def execCmpLeS (f : SFields) (s : State) : Out := issueOne 0 (slotCmpLeS f) s

/-- cmp.lt.n (05 R100) -/
def slotCmpLtN (f : SFields) (env : SEnv) (s : State) : SlotRes := cmpRR (fun a b => a.ult b) f env s

/-- cmp.lt.n (05 R100), issued alone. -/
def execCmpLtN (f : SFields) (s : State) : Out := issueOne 0 (slotCmpLtN f) s

/-- cmp.le.n (05 R100) -/
def slotCmpLeN (f : SFields) (env : SEnv) (s : State) : SlotRes := cmpRR (fun a b => a.ule b) f env s

/-- cmp.le.n (05 R100), issued alone. -/
def execCmpLeN (f : SFields) (s : State) : Out := issueOne 0 (slotCmpLeN f) s

/-- cmp.eq, immediate form (05 R100) -/
def slotCmpEqI (f : SFields) (env : SEnv) (s : State) : SlotRes := cmpRI (fun a b => a == b) f env s

/-- cmp.eq, immediate form (05 R100), issued alone. -/
def execCmpEqI (f : SFields) (s : State) : Out := issueOne 0 (slotCmpEqI f) s

/-- cmp.ne, immediate form (05 R100) -/
def slotCmpNeI (f : SFields) (env : SEnv) (s : State) : SlotRes := cmpRI (fun a b => a != b) f env s

/-- cmp.ne, immediate form (05 R100), issued alone. -/
def execCmpNeI (f : SFields) (s : State) : Out := issueOne 0 (slotCmpNeI f) s

/-- cmp.lt.s, immediate form (05 R100) -/
def slotCmpLtSI (f : SFields) (env : SEnv) (s : State) : SlotRes := cmpRI (fun a b => a.slt b) f env s

/-- cmp.lt.s, immediate form (05 R100), issued alone. -/
def execCmpLtSI (f : SFields) (s : State) : Out := issueOne 0 (slotCmpLtSI f) s

/-- cmp.le.s, immediate form (05 R100) -/
def slotCmpLeSI (f : SFields) (env : SEnv) (s : State) : SlotRes := cmpRI (fun a b => a.sle b) f env s

/-- cmp.le.s, immediate form (05 R100), issued alone. -/
def execCmpLeSI (f : SFields) (s : State) : Out := issueOne 0 (slotCmpLeSI f) s

/-- cmp.lt.n, immediate form (05 R100) -/
def slotCmpLtNI (f : SFields) (env : SEnv) (s : State) : SlotRes := cmpRI (fun a b => a.ult b) f env s

/-- cmp.lt.n, immediate form (05 R100), issued alone. -/
def execCmpLtNI (f : SFields) (s : State) : Out := issueOne 0 (slotCmpLtNI f) s

/-- cmp.le.n, immediate form (05 R100) -/
def slotCmpLeNI (f : SFields) (env : SEnv) (s : State) : SlotRes := cmpRI (fun a b => a.ule b) f env s

/-- cmp.le.n, immediate form (05 R100), issued alone. -/
def execCmpLeNI (f : SFields) (s : State) : Out := issueOne 0 (slotCmpLeNI f) s

end Sys2Proof.Machine
end

