-- ==== Sys2Proof/Machine/LaneArith.lean ====
section
/-! DEFINITION. The lane arithmetic and conversion instructions (spec 07 R152 to R170): the meaning of each in a pass,
and its issue by the pass whose turn it is. -/
namespace Sys2Proof.Machine

/-- The count of one bits (07 R156). -/
def lanePopcount (ty _mod a : Nat) : Nat × NFlags := (popcNat (tyW ty) a, 0)
/-- The count of leading zeros (07 R156). -/
def laneLeading (ty _mod a : Nat) : Nat × NFlags := (clzNat (tyW ty) a, 0)

/-- mov: B, with field a zero (07 R156). -/
def laneMov (f : LLong) (size : Nat) : LMean :=
  let ty := f.ty.toNat
  let w := tyWide ty
  laneMean f size (tysBits.contains ty && modIn f 8 && bOk f true && f.a.toNat == 0)
    ((f.d.toNat, w) :: bRegs f true w) [] (fun e s => e.results s w f.d.toNat (fun r => (e.srcB f true ty r, 0)))

/-- movi (07 R159). -/
def laneMovi (f : LLong) : LMean :=
  let ty := f.ty.toNat
  let hi := f.mod.toNat % 2 == 1
  let v : Nat := if ty = tyF32 then f.imm.toNat * 65536
    else if ty = tyS32 ∨ ty = tyS64 then ofSigned (tyW ty) f.imm.toInt else f.imm.toNat
  laneMean f 8 ((tysInt.contains ty || ty == tyF32) && modIn f 1 && (!hi || ty == tyN32) && f.a.toNat == 0 &&
      f.b.toNat == 0 && !f.u) [(f.d.toNat, tyWide ty)] []
    (fun e s => e.results s (tyWide ty) f.d.toNat (fun r =>
      (if hi then (e.lane r).getV f.d.toNat % 65536 + 65536 * f.imm.toNat else v, 0)))

/-- bfe (07 R158). -/
def laneBfe (f : LLong) : LMean :=
  let ty := f.ty.toNat
  let w := tyWide ty
  let pos := f.imm.toNat % 64
  let len := f.imm.toNat / 64 % 128
  laneMean f 8 (tysInt.contains ty && f.mod.toNat == 0 && f.b.toNat == 0 && !f.u && f.imm.toNat < 8192 &&
      pos < tyW ty && len ≤ tyW ty) [(f.d.toNat, w), (f.a.toNat, w)] []
    (fun e s => e.results s w f.d.toNat (fun r => liBfe ty pos len ((e.lane r).getW w f.a.toNat)))

/-- prmt (07 R158). -/
def lanePrmt (f : LLong) : LMean :=
  laneMean f 8 (f.ty.toNat == tyB32 && f.mod.toNat == 0 && (!f.u || f.b.toNat < 32) && f.imm.toNat / 4096 % 2 == 0)
    ((f.d.toNat, false) :: (f.a.toNat, false) :: bRegs f false false) []
    (fun e s => e.results s false f.d.toNat (fun r =>
      (liPrmt f.imm.toNat ((e.lane r).getV f.a.toNat) (e.srcB f false tyB32 r), 0)))

/-- sel (07 R160). -/
def laneSelMean (f : LLong) : LMean :=
  let ty := f.ty.toNat
  let w := tyWide ty
  laneMean f 8 (tysBits.contains ty && f.mod.toNat == 0 && f.ext < 16 && f.c == 0 && (!f.u || f.b.toNat < 32))
    ((f.d.toNat, w) :: (f.a.toNat, w) :: bRegs f false w) [f.ext % 8]
    (fun e s => e.results s w f.d.toNat (fun r =>
      (if ((e.lane r).getP (f.ext % 8)) != (f.ext / 8 % 2 == 1) then (e.lane r).getW w f.a.toNat
       else e.srcB f false ty r, 0)))

/-- lea (07 R161). -/
def laneLeaMean (f : LLong) : LMean :=
  let ty := f.ty.toNat
  let w := tyWide ty
  let x32 := f.mod.toNat % 2 == 1
  laneMean f 8 (tysBits.contains ty && modIn f 1 && (!x32 || w) && f.imm.toNat < 8 && (!f.u || f.b.toNat < 32))
    ((f.d.toNat, w) :: (f.a.toNat, w) :: bRegs f false (w && !x32)) []
    (fun e s => e.results s w f.d.toNat (fun r =>
      let b : Int := if x32 then toSigned 32 (e.srcB f false tyB32 r) else (e.srcB f false ty r : Nat)
      (ofSigned (tyW ty) (((e.lane r).getW w f.a.toNat : Nat) + b * (2 ^ f.imm.toNat : Nat)), 0)))

/-- A function instruction (07 R166, R167). -/
def laneFun (f : LLong) (ty : Nat) (fm : FFmt) (g : FVal → FVal × NFlags) : LMean :=
  laneUn f 8 [ty] 0 false (fun _ _ a => lfFun fm g a)

/-- The register field written or read by a conversion (07 R168): position in range, and the parts it needs. -/
def cvtPosOk (w q : Nat) : Bool := if 32 ≤ w then q == 0 else q < 32 / w

/-- cvt (07 R168, R169): the field checks, FORMAT, then the conversion of each lane. A position is checked where its format
code names a format, allowed here or not. -/
def laneCvt (f : LLong) : LMean :=
  let im := f.imm.toNat
  let dfc := im % 32
  let sfc := im / 32 % 32
  let dp := im / 2048 % 16
  let pk := im / 32768 == 1
  let df := (fmtOf dfc).getD default
  let sf := (fmtOf sfc).getD default
  let fmtBad := 0x0D ≤ dfc || 0x0E ≤ sfc
  let dw := (fmtOf dfc).isSome && df.bits == 64
  let sw := (fmtOf sfc).isSome && sf.bits == 64
  laneMean f 8 (f.ty.toNat == 0 && f.b.toNat == 0 && !f.u && (pk || dp == 0) &&
      ((fmtOf dfc).isNone || cvtPosOk df.bits dp) && ((fmtOf sfc).isNone || cvtPosOk sf.bits f.mod.toNat) && !(pk && dw))
    [(f.d.toNat, dw), (f.a.toNat, sw)] []
    (fun e s =>
      if fmtBad then .trap e.first ⟨.format, 0, 0⟩
      else e.results s dw f.d.toNat (fun r =>
        let raw := (e.lane r).getW sw f.a.toNat
        let x := cvtSource sf raw f.mod.toNat
        let y := cvtOne df sf (im / 1024 % 2 == 1) x.1 (raw / 2 ^ (sf.bits * f.mod.toNat) % 2 ^ sf.bits)
        (if pk then setElem df.bits dp ((e.lane r).getV f.d.toNat) y.1 else cvtExtend df y.1, x.2 ||| y.2)))

/-- cvt.mx (07 R170): one block for each strand of the pass. -/
def laneCvtMx (f : LLong) : LMean :=
  let im := f.imm.toNat
  let dfc := im % 32
  let sfc := im / 32 % 32
  let dp := im / 2048 % 16
  let pk := im / 32768 == 1
  let df := (fmtOf dfc).getD default
  let sf := (fmtOf sfc).getD default
  let fmtBad := !([0x13, 0x14, 0x15, 0x16, 0x17, 0x19].contains dfc) || 3 ≤ sfc
  laneMean f 8 (f.ty.toNat == 0 && f.u && f.b.toNat < 32 && im / 1024 % 2 == 0 && (pk || dp == 0) &&
      ((fmtOf dfc).isNone || cvtPosOk df.bits dp) && ((fmtOf sfc).isNone || cvtPosOk sf.bits f.mod.toNat))
    [(f.d.toNat, false), (f.a.toNat, false)] []
    (fun e s =>
      if fmtBad then .trap e.first ⟨.format, 0, 0⟩
      else
        let z := (slotsOf e.act).foldl (fun (x : State × NFlags) sl =>
          let val (k : Nat) : FVal :=
            if e.act.contains ⟨sl, k⟩ then (cvtSource sf ((e.lane ⟨sl, k⟩).getV f.a.toNat) f.mod.toNat).1 else .fin false 0 0
          let bs := blockEncode df.elem ((List.range 32).map val)
          let x1 := (e.act.filter (fun r => r.slot == sl)).foldl (fun (y : State) r =>
            let q := bs.2.1.getD r.lane 0
            e.writeV y r false f.d.toNat (if pk then setElem df.bits dp ((e.lane r).getV f.d.toNat) q else q)) x.1
          (e.modStrand x1 sl (fun st => st.setS f.b.toNat (BitVec.ofNat 64 bs.1)), x.2 ||| bs.2.2)) (s, (0 : NFlags))
        .ok (if z.2 = 0 then z.1 else e.flags z.1 z.2) none)

/-- iadd (07 R156), short form -/
def passIadd (f : LShort) : LMean :=
  laneBin (longOf f tyS32) 4 tysInt 9 true liAdd

/-- iadd (07 R156), short form: issued by the pass whose turn it is. -/
def execIadd (f : LShort) (s : State) : Out := runPass (passIadd f) s

/-- iadd (07 R156), long form -/
def passIaddLong (f : LLong) : LMean :=
  laneBin f 8 tysInt 9 true liAdd

/-- iadd (07 R156), long form: issued by the pass whose turn it is. -/
def execIaddLong (f : LLong) (s : State) : Out := runPass (passIaddLong f) s

/-- isub (07 R156), short form -/
def passIsub (f : LShort) : LMean :=
  laneBin (longOf f tyS32) 4 tysInt 9 true liSub

/-- isub (07 R156), short form: issued by the pass whose turn it is. -/
def execIsub (f : LShort) (s : State) : Out := runPass (passIsub f) s

/-- isub (07 R156), long form -/
def passIsubLong (f : LLong) : LMean :=
  laneBin f 8 tysInt 9 true liSub

/-- isub (07 R156), long form: issued by the pass whose turn it is. -/
def execIsubLong (f : LLong) (s : State) : Out := runPass (passIsubLong f) s

/-- imul (07 R156), short form -/
def passImul (f : LShort) : LMean :=
  laneBin (longOf f tyS32) 4 tysInt 8 true liMul

/-- imul (07 R156), short form: issued by the pass whose turn it is. -/
def execImul (f : LShort) (s : State) : Out := runPass (passImul f) s

/-- imul (07 R156), long form -/
def passImulLong (f : LLong) : LMean :=
  laneBin f 8 tysInt 8 true liMul

/-- imul (07 R156), long form: issued by the pass whose turn it is. -/
def execImulLong (f : LLong) (s : State) : Out := runPass (passImulLong f) s

/-- and (07 R156), short form -/
def passLaneAnd (f : LShort) : LMean :=
  laneBin (longOf f tyB32) 4 tysBits 8 true liAnd

/-- and (07 R156), short form: issued by the pass whose turn it is. -/
def execLaneAnd (f : LShort) (s : State) : Out := runPass (passLaneAnd f) s

/-- and (07 R156), long form -/
def passLaneAndLong (f : LLong) : LMean :=
  laneBin f 8 tysBits 8 true liAnd

/-- and (07 R156), long form: issued by the pass whose turn it is. -/
def execLaneAndLong (f : LLong) (s : State) : Out := runPass (passLaneAndLong f) s

/-- or (07 R156), short form -/
def passLaneOr (f : LShort) : LMean :=
  laneBin (longOf f tyB32) 4 tysBits 8 true liOr

/-- or (07 R156), short form: issued by the pass whose turn it is. -/
def execLaneOr (f : LShort) (s : State) : Out := runPass (passLaneOr f) s

/-- or (07 R156), long form -/
def passLaneOrLong (f : LLong) : LMean :=
  laneBin f 8 tysBits 8 true liOr

/-- or (07 R156), long form: issued by the pass whose turn it is. -/
def execLaneOrLong (f : LLong) (s : State) : Out := runPass (passLaneOrLong f) s

/-- xor (07 R156), short form -/
def passLaneXor (f : LShort) : LMean :=
  laneBin (longOf f tyB32) 4 tysBits 8 true liXor

/-- xor (07 R156), short form: issued by the pass whose turn it is. -/
def execLaneXor (f : LShort) (s : State) : Out := runPass (passLaneXor f) s

/-- xor (07 R156), long form -/
def passLaneXorLong (f : LLong) : LMean :=
  laneBin f 8 tysBits 8 true liXor

/-- xor (07 R156), long form: issued by the pass whose turn it is. -/
def execLaneXorLong (f : LLong) (s : State) : Out := runPass (passLaneXorLong f) s

/-- shl (07 R156), short form -/
def passLaneShl (f : LShort) : LMean :=
  laneBin (longOf f tyB32) 4 tysBits 8 true liShl

/-- shl (07 R156), short form: issued by the pass whose turn it is. -/
def execLaneShl (f : LShort) (s : State) : Out := runPass (passLaneShl f) s

/-- shl (07 R156), long form -/
def passLaneShlLong (f : LLong) : LMean :=
  laneBin f 8 tysBits 8 true liShl

/-- shl (07 R156), long form: issued by the pass whose turn it is. -/
def execLaneShlLong (f : LLong) (s : State) : Out := runPass (passLaneShlLong f) s

/-- shr (07 R156), short form -/
def passLaneShr (f : LShort) : LMean :=
  laneBin (longOf f tyB32) 4 tysBits 8 true liShr

/-- shr (07 R156), short form: issued by the pass whose turn it is. -/
def execLaneShr (f : LShort) (s : State) : Out := runPass (passLaneShr f) s

/-- shr (07 R156), long form -/
def passLaneShrLong (f : LLong) : LMean :=
  laneBin f 8 tysBits 8 true liShr

/-- shr (07 R156), long form: issued by the pass whose turn it is. -/
def execLaneShrLong (f : LLong) (s : State) : Out := runPass (passLaneShrLong f) s

/-- sra (07 R156), short form -/
def passLaneSra (f : LShort) : LMean :=
  laneBin (longOf f tyS32) 4 tysSigned 8 true liSra

/-- sra (07 R156), short form: issued by the pass whose turn it is. -/
def execLaneSra (f : LShort) (s : State) : Out := runPass (passLaneSra f) s

/-- sra (07 R156), long form -/
def passLaneSraLong (f : LLong) : LMean :=
  laneBin f 8 tysSigned 8 true liSra

/-- sra (07 R156), long form: issued by the pass whose turn it is. -/
def execLaneSraLong (f : LLong) (s : State) : Out := runPass (passLaneSraLong f) s

/-- imin (07 R156), short form -/
def passImin (f : LShort) : LMean :=
  laneBin (longOf f tyS32) 4 tysInt 8 true liMin

/-- imin (07 R156), short form: issued by the pass whose turn it is. -/
def execImin (f : LShort) (s : State) : Out := runPass (passImin f) s

/-- imin (07 R156), long form -/
def passIminLong (f : LLong) : LMean :=
  laneBin f 8 tysInt 8 true liMin

/-- imin (07 R156), long form: issued by the pass whose turn it is. -/
def execIminLong (f : LLong) (s : State) : Out := runPass (passIminLong f) s

/-- imax (07 R156), short form -/
def passImax (f : LShort) : LMean :=
  laneBin (longOf f tyS32) 4 tysInt 8 true liMax

/-- imax (07 R156), short form: issued by the pass whose turn it is. -/
def execImax (f : LShort) (s : State) : Out := runPass (passImax f) s

/-- imax (07 R156), long form -/
def passImaxLong (f : LLong) : LMean :=
  laneBin f 8 tysInt 8 true liMax

/-- imax (07 R156), long form: issued by the pass whose turn it is. -/
def execImaxLong (f : LLong) (s : State) : Out := runPass (passImaxLong f) s

/-- mov (07 R156), short form -/
def passMov (f : LShort) : LMean :=
  laneMov (longOf f tyB32) 4

/-- mov (07 R156), short form: issued by the pass whose turn it is. -/
def execMov (f : LShort) (s : State) : Out := runPass (passMov f) s

/-- mov (07 R156), long form -/
def passMovLong (f : LLong) : LMean :=
  laneMov f 8

/-- mov (07 R156), long form: issued by the pass whose turn it is. -/
def execMovLong (f : LLong) (s : State) : Out := runPass (passMovLong f) s

/-- popc (07 R156), short form -/
def passLanePopc (f : LShort) : LMean :=
  laneUn (longOf f tyB32) 4 tysBits 0 true lanePopcount

/-- popc (07 R156), short form: issued by the pass whose turn it is. -/
def execLanePopc (f : LShort) (s : State) : Out := runPass (passLanePopc f) s

/-- popc (07 R156), long form -/
def passLanePopcLong (f : LLong) : LMean :=
  laneUn f 8 tysBits 0 true lanePopcount

/-- popc (07 R156), long form: issued by the pass whose turn it is. -/
def execLanePopcLong (f : LLong) (s : State) : Out := runPass (passLanePopcLong f) s

/-- clz (07 R156), short form -/
def passLaneClz (f : LShort) : LMean :=
  laneUn (longOf f tyB32) 4 tysBits 0 true laneLeading

/-- clz (07 R156), short form: issued by the pass whose turn it is. -/
def execLaneClz (f : LShort) (s : State) : Out := runPass (passLaneClz f) s

/-- clz (07 R156), long form -/
def passLaneClzLong (f : LLong) : LMean :=
  laneUn f 8 tysBits 0 true laneLeading

/-- clz (07 R156), long form: issued by the pass whose turn it is. -/
def execLaneClzLong (f : LLong) (s : State) : Out := runPass (passLaneClzLong f) s

/-- not (07 R156), short form -/
def passNot (f : LShort) : LMean :=
  laneUn (longOf f tyB32) 4 tysBits 0 false liNot

/-- not (07 R156), short form: issued by the pass whose turn it is. -/
def execNot (f : LShort) (s : State) : Out := runPass (passNot f) s

/-- not (07 R156), long form -/
def passNotLong (f : LLong) : LMean :=
  laneUn f 8 tysBits 0 false liNot

/-- not (07 R156), long form: issued by the pass whose turn it is. -/
def execNotLong (f : LLong) (s : State) : Out := runPass (passNotLong f) s

/-- fadd (07 R163, R164), short form -/
def passFadd (f : LShort) : LMean :=
  laneBin (longOf f tyF32) 4 tysFloat 8 true lfAdd

/-- fadd (07 R163, R164), short form: issued by the pass whose turn it is. -/
def execFadd (f : LShort) (s : State) : Out := runPass (passFadd f) s

/-- fadd (07 R163, R164), long form -/
def passFaddLong (f : LLong) : LMean :=
  laneBin f 8 tysFloat 8 true lfAdd

/-- fadd (07 R163, R164), long form: issued by the pass whose turn it is. -/
def execFaddLong (f : LLong) (s : State) : Out := runPass (passFaddLong f) s

/-- fsub (07 R163, R164), short form -/
def passFsub (f : LShort) : LMean :=
  laneBin (longOf f tyF32) 4 tysFloat 8 true lfSub

/-- fsub (07 R163, R164), short form: issued by the pass whose turn it is. -/
def execFsub (f : LShort) (s : State) : Out := runPass (passFsub f) s

/-- fsub (07 R163, R164), long form -/
def passFsubLong (f : LLong) : LMean :=
  laneBin f 8 tysFloat 8 true lfSub

/-- fsub (07 R163, R164), long form: issued by the pass whose turn it is. -/
def execFsubLong (f : LLong) (s : State) : Out := runPass (passFsubLong f) s

/-- fmul (07 R163, R164), short form -/
def passFmul (f : LShort) : LMean :=
  laneBin (longOf f tyF32) 4 tysFloat 8 true lfMul

/-- fmul (07 R163, R164), short form: issued by the pass whose turn it is. -/
def execFmul (f : LShort) (s : State) : Out := runPass (passFmul f) s

/-- fmul (07 R163, R164), long form -/
def passFmulLong (f : LLong) : LMean :=
  laneBin f 8 tysFloat 8 true lfMul

/-- fmul (07 R163, R164), long form: issued by the pass whose turn it is. -/
def execFmulLong (f : LLong) (s : State) : Out := runPass (passFmulLong f) s

/-- fmin (07 R163, R164), short form -/
def passFmin (f : LShort) : LMean :=
  laneBin (longOf f tyF32) 4 tysFloat 8 true lfMin

/-- fmin (07 R163, R164), short form: issued by the pass whose turn it is. -/
def execFmin (f : LShort) (s : State) : Out := runPass (passFmin f) s

/-- fmin (07 R163, R164), long form -/
def passFminLong (f : LLong) : LMean :=
  laneBin f 8 tysFloat 8 true lfMin

/-- fmin (07 R163, R164), long form: issued by the pass whose turn it is. -/
def execFminLong (f : LLong) (s : State) : Out := runPass (passFminLong f) s

/-- fmax (07 R163, R164), short form -/
def passFmax (f : LShort) : LMean :=
  laneBin (longOf f tyF32) 4 tysFloat 8 true lfMax

/-- fmax (07 R163, R164), short form: issued by the pass whose turn it is. -/
def execFmax (f : LShort) (s : State) : Out := runPass (passFmax f) s

/-- fmax (07 R163, R164), long form -/
def passFmaxLong (f : LLong) : LMean :=
  laneBin f 8 tysFloat 8 true lfMax

/-- fmax (07 R163, R164), long form: issued by the pass whose turn it is. -/
def execFmaxLong (f : LLong) (s : State) : Out := runPass (passFmaxLong f) s

/-- fabs (07 R163), short form -/
def passFabs (f : LShort) : LMean :=
  laneUn (longOf f tyF32) 4 tysFloat 0 false lfAbs

/-- fabs (07 R163), short form: issued by the pass whose turn it is. -/
def execFabs (f : LShort) (s : State) : Out := runPass (passFabs f) s

/-- fabs (07 R163), long form -/
def passFabsLong (f : LLong) : LMean :=
  laneUn f 8 tysFloat 0 false lfAbs

/-- fabs (07 R163), long form: issued by the pass whose turn it is. -/
def execFabsLong (f : LLong) (s : State) : Out := runPass (passFabsLong f) s

/-- fneg (07 R163), short form -/
def passFneg (f : LShort) : LMean :=
  laneUn (longOf f tyF32) 4 tysFloat 0 false lfNeg

/-- fneg (07 R163), short form: issued by the pass whose turn it is. -/
def execFneg (f : LShort) (s : State) : Out := runPass (passFneg f) s

/-- fneg (07 R163), long form -/
def passFnegLong (f : LLong) : LMean :=
  laneUn f 8 tysFloat 0 false lfNeg

/-- fneg (07 R163), long form: issued by the pass whose turn it is. -/
def execFnegLong (f : LLong) (s : State) : Out := runPass (passFnegLong f) s

/-- dadd (07 R167), short form -/
def passDadd (f : LShort) : LMean :=
  laneBin (longOf f tyF64) 4 [tyF64] 8 true lfAdd

/-- dadd (07 R167), short form: issued by the pass whose turn it is. -/
def execDadd (f : LShort) (s : State) : Out := runPass (passDadd f) s

/-- dadd (07 R167), long form -/
def passDaddLong (f : LLong) : LMean :=
  laneBin f 8 [tyF64] 8 true lfAdd

/-- dadd (07 R167), long form: issued by the pass whose turn it is. -/
def execDaddLong (f : LLong) (s : State) : Out := runPass (passDaddLong f) s

/-- dsub (07 R167), short form -/
def passDsub (f : LShort) : LMean :=
  laneBin (longOf f tyF64) 4 [tyF64] 8 true lfSub

/-- dsub (07 R167), short form: issued by the pass whose turn it is. -/
def execDsub (f : LShort) (s : State) : Out := runPass (passDsub f) s

/-- dsub (07 R167), long form -/
def passDsubLong (f : LLong) : LMean :=
  laneBin f 8 [tyF64] 8 true lfSub

/-- dsub (07 R167), long form: issued by the pass whose turn it is. -/
def execDsubLong (f : LLong) (s : State) : Out := runPass (passDsubLong f) s

/-- dmul (07 R167), short form -/
def passDmul (f : LShort) : LMean :=
  laneBin (longOf f tyF64) 4 [tyF64] 8 true lfMul

/-- dmul (07 R167), short form: issued by the pass whose turn it is. -/
def execDmul (f : LShort) (s : State) : Out := runPass (passDmul f) s

/-- dmul (07 R167), long form -/
def passDmulLong (f : LLong) : LMean :=
  laneBin f 8 [tyF64] 8 true lfMul

/-- dmul (07 R167), long form: issued by the pass whose turn it is. -/
def execDmulLong (f : LLong) (s : State) : Out := runPass (passDmulLong f) s

/-- imulh (07 R156) -/
def passImulh (f : LLong) : LMean :=
  laneBin f 8 tysInt 8 true liMulh

/-- imulh (07 R156): issued by the pass whose turn it is. -/
def execImulh (f : LLong) (s : State) : Out := runPass (passImulh f) s

/-- imad (07 R156) -/
def passImad (f : LLong) : LMean :=
  laneTern f 8 tysInt 0 0 liMad

/-- imad (07 R156): issued by the pass whose turn it is. -/
def execImad (f : LLong) (s : State) : Out := runPass (passImad f) s

/-- iabs (07 R156) -/
def passIabs (f : LLong) : LMean :=
  laneUn f 8 tysSigned 1 false liAbs

/-- iabs (07 R156): issued by the pass whose turn it is. -/
def execIabs (f : LLong) (s : State) : Out := runPass (passIabs f) s

/-- ineg (07 R156) -/
def passIneg (f : LLong) : LMean :=
  laneUn f 8 tysSigned 1 false liNeg

/-- ineg (07 R156): issued by the pass whose turn it is. -/
def execIneg (f : LLong) (s : State) : Out := runPass (passIneg f) s

/-- rot (07 R156) -/
def passRot (f : LLong) : LMean :=
  laneBin f 8 tysBits 9 true liRot

/-- rot (07 R156): issued by the pass whose turn it is. -/
def execRot (f : LLong) (s : State) : Out := runPass (passRot f) s

/-- brev (07 R156) -/
def passBrev (f : LLong) : LMean :=
  laneUn f 8 tysBits 0 false liBrev

/-- brev (07 R156): issued by the pass whose turn it is. -/
def execBrev (f : LLong) (s : State) : Out := runPass (passBrev f) s

/-- bfe (07 R158) -/
def passBfe (f : LLong) : LMean :=
  laneBfe f

/-- bfe (07 R158): issued by the pass whose turn it is. -/
def execBfe (f : LLong) (s : State) : Out := runPass (passBfe f) s

/-- bfi (07 R158) -/
def passBfi (f : LLong) : LMean :=
  laneTern f 8 tysBits 0 0 liBfi

/-- bfi (07 R158): issued by the pass whose turn it is. -/
def execBfi (f : LLong) (s : State) : Out := runPass (passBfi f) s

/-- prmt (07 R158) -/
def passPrmt (f : LLong) : LMean :=
  lanePrmt f

/-- prmt (07 R158): issued by the pass whose turn it is. -/
def execPrmt (f : LLong) (s : State) : Out := runPass (passPrmt f) s

/-- sel (07 R160) -/
def passLaneSel (f : LLong) : LMean :=
  laneSelMean f

/-- sel (07 R160): issued by the pass whose turn it is. -/
def execLaneSel (f : LLong) (s : State) : Out := runPass (passLaneSel f) s

/-- setp (07 R160) -/
def passSetp (f : LLong) : LMean :=
  laneCmp f 8 tysInt 5 (fun ty cc a b => (ccHolds cc (decide (tyInt ty a < tyInt ty b)) (a == b), 0))

/-- setp (07 R160): issued by the pass whose turn it is. -/
def execSetp (f : LLong) (s : State) : Out := runPass (passSetp f) s

/-- lea (07 R161) -/
def passLaneLea (f : LLong) : LMean :=
  laneLeaMean f

/-- lea (07 R161): issued by the pass whose turn it is. -/
def execLaneLea (f : LLong) (s : State) : Out := runPass (passLaneLea f) s

/-- movi (07 R159) -/
def passMovi (f : LLong) : LMean :=
  laneMovi f

/-- movi (07 R159): issued by the pass whose turn it is. -/
def execMovi (f : LLong) (s : State) : Out := runPass (passMovi f) s

/-- dot4 (07 R162) -/
def passDot4 (f : LLong) : LMean :=
  laneTern f 8 [tyS32] 1 3 (fun _ mod a b c => liDot4 f.ext (modBit0 mod) a b c)

/-- dot4 (07 R162): issued by the pass whose turn it is. -/
def execDot4 (f : LLong) (s : State) : Out := runPass (passDot4 f) s

/-- ffma (07 R163) -/
def passFfma (f : LLong) : LMean :=
  laneTern f 8 tysFloat 0 0 lfFma

/-- ffma (07 R163): issued by the pass whose turn it is. -/
def execFfma (f : LLong) (s : State) : Out := runPass (passFfma f) s

/-- fsetp (07 R165) -/
def passFsetp (f : LLong) : LMean :=
  laneCmp f 8 [tyF32] 7 (fun _ cc a b => lfCmp fp32 cc a b)

/-- fsetp (07 R165): issued by the pass whose turn it is. -/
def execFsetp (f : LLong) (s : State) : Out := runPass (passFsetp f) s

/-- frcp (07 R166) -/
def passFrcp (f : LLong) : LMean :=
  laneFun f tyF32 fp32 FVal.rcp

/-- frcp (07 R166): issued by the pass whose turn it is. -/
def execFrcp (f : LLong) (s : State) : Out := runPass (passFrcp f) s

/-- frsq (07 R166) -/
def passFrsq (f : LLong) : LMean :=
  laneFun f tyF32 fp32 FVal.rsqrt

/-- frsq (07 R166): issued by the pass whose turn it is. -/
def execFrsq (f : LLong) (s : State) : Out := runPass (passFrsq f) s

/-- fsqrt (07 R166) -/
def passFsqrt (f : LLong) : LMean :=
  laneFun f tyF32 fp32 FVal.sqrt

/-- fsqrt (07 R166): issued by the pass whose turn it is. -/
def execFsqrt (f : LLong) (s : State) : Out := runPass (passFsqrt f) s

/-- fexp2 (07 R166) -/
def passFexp2 (f : LLong) : LMean :=
  laneFun f tyF32 fp32 (FVal.exp2 fp32)

/-- fexp2 (07 R166): issued by the pass whose turn it is. -/
def execFexp2 (f : LLong) (s : State) : Out := runPass (passFexp2 f) s

/-- flog2 (07 R166) -/
def passFlog2 (f : LLong) : LMean :=
  laneFun f tyF32 fp32 (FVal.log2 fp32)

/-- flog2 (07 R166): issued by the pass whose turn it is. -/
def execFlog2 (f : LLong) (s : State) : Out := runPass (passFlog2 f) s

/-- fsin (07 R166) -/
def passFsin (f : LLong) : LMean :=
  laneFun f tyF32 fp32 (FVal.sinCos fp32 false)

/-- fsin (07 R166): issued by the pass whose turn it is. -/
def execFsin (f : LLong) (s : State) : Out := runPass (passFsin f) s

/-- fcos (07 R166) -/
def passFcos (f : LLong) : LMean :=
  laneFun f tyF32 fp32 (FVal.sinCos fp32 true)

/-- fcos (07 R166): issued by the pass whose turn it is. -/
def execFcos (f : LLong) (s : State) : Out := runPass (passFcos f) s

/-- dfma (07 R167) -/
def passDfma (f : LLong) : LMean :=
  laneTern f 8 [tyF64] 0 0 lfFma

/-- dfma (07 R167): issued by the pass whose turn it is. -/
def execDfma (f : LLong) (s : State) : Out := runPass (passDfma f) s

/-- dmin (07 R167) -/
def passDmin (f : LLong) : LMean :=
  laneBin f 8 [tyF64] 8 true lfMin

/-- dmin (07 R167): issued by the pass whose turn it is. -/
def execDmin (f : LLong) (s : State) : Out := runPass (passDmin f) s

/-- dmax (07 R167) -/
def passDmax (f : LLong) : LMean :=
  laneBin f 8 [tyF64] 8 true lfMax

/-- dmax (07 R167): issued by the pass whose turn it is. -/
def execDmax (f : LLong) (s : State) : Out := runPass (passDmax f) s

/-- dsetp (07 R167) -/
def passDsetp (f : LLong) : LMean :=
  laneCmp f 8 [tyF64] 7 (fun _ cc a b => lfCmp fp64 cc a b)

/-- dsetp (07 R167): issued by the pass whose turn it is. -/
def execDsetp (f : LLong) (s : State) : Out := runPass (passDsetp f) s

/-- drcp (07 R167) -/
def passDrcp (f : LLong) : LMean :=
  laneFun f tyF64 fp64 FVal.rcp

/-- drcp (07 R167): issued by the pass whose turn it is. -/
def execDrcp (f : LLong) (s : State) : Out := runPass (passDrcp f) s

/-- cvt (07 R168, R169) -/
def passCvt (f : LLong) : LMean :=
  laneCvt f

/-- cvt (07 R168, R169): issued by the pass whose turn it is. -/
def execCvt (f : LLong) (s : State) : Out := runPass (passCvt f) s

/-- cvt.mx (07 R170) -/
def passCvtMx (f : LLong) : LMean :=
  laneCvtMx f

/-- cvt.mx (07 R170): issued by the pass whose turn it is. -/
def execCvtMx (f : LLong) (s : State) : Out := runPass (passCvtMx f) s

end Sys2Proof.Machine
end

