-- ==== Sys2Proof/Machine/LaneCtl.lean ====
section
/-! DEFINITION. The lane instructions of control flow, reconvergence, barriers, cross-lane exchange, fences, events,
figures and breaks (spec 08 R181 to R191, R198 to R201, R208 to R212). -/
namespace Sys2Proof.Machine

/-- Every field but `imm` and `mod` is zero. -/
def noFields (f : LLong) : Bool := f.ty.toNat == 0 && f.d.toNat == 0 && f.a.toNat == 0 && f.b.toNat == 0 && !f.u

/-- The core, partition and gang of a pass, its strands' slots. -/
def gangSlots (pt : Part) (gang : Nat) : List Nat := (pt.strands.filter (fun e => e.2.gang == gang)).map Prod.fst

/-! ### Barriers (08 R186, R187) -/

/-- A barrier of a gang. -/
def Part.barrier (p : Part) (gang n : Nat) : Barrier :=
  match p.barriers.find? (fun b => b.1 == gang && b.2.1 == n) with | some b => b.2.2 | none => ⟨0, 0, 0⟩

/-- Write a barrier of a gang. -/
def State.setBarrier (s : State) (k p gang n : Nat) (b : Barrier) : State :=
  s.modPart k p (fun x => { x with barriers := (gang, n, b) :: x.barriers.filter (fun c => !(c.1 == gang && c.2.1 == n)) })

/-- Whether a lane waits at the gang barrier. -/
def Lane.atGbar (l : Lane) : Bool := match l.wait with | .gbar _ => true | _ => false

/-- Release the lanes of a gang that a test selects. -/
def State.releaseLanes (s : State) (k p gang : Nat) (sel : Lane → Bool) : State :=
  s.modPart k p (fun x => { x with strands := x.strands.map (fun e =>
    if e.2.gang == gang then (e.1, { e.2 with lanes := e.2.lanes.map (fun l =>
      if sel l.2 then (l.1, { l.2 with wait := .none }) else l) }) else e) })

/-- The gang barrier completes when every strand that has not finished has arrived (08 R186): the accesses of the gang
are performed, and its waiting lanes are ready. -/
def State.tryGangBarrier (s : State) (k p gang : Nat) : State :=
  let sts := (s.part k p).strands.filter (fun e => e.2.gang == gang && !e.2.finished)
  if sts.all (fun e => e.2.lanes.all (fun l => l.2.exited || l.2.atGbar)) &&
      sts.any (fun e => e.2.lanes.any (fun l => !l.2.exited && l.2.atGbar)) then
    let s1 := sts.foldl (fun (x : State) e => x.drainStrand k p e.1) s
    let b := (s1.part k p).barrier gang 0
    (s1.releaseLanes k p gang Lane.atGbar).setBarrier k p gang 0 { b with count := b.count + 1 }
  else s

/-- One arrival at a named barrier (08 R187): the generation it belongs to, and the state after. -/
def State.arrive (s : State) (k p gang n expect : Nat) : Nat × State :=
  let b := (s.part k p).barrier gang n
  if b.arrived + 1 < expect then (b.count, s.setBarrier k p gang n ⟨b.arrived + 1, expect, b.count⟩)
  else
    let s1 := (gangSlots (s.part k p) gang).foldl (fun (x : State) sl => x.drainStrand k p sl) s
    let s2 := s1.setBarrier k p gang n ⟨0, 0, b.count + 1⟩
    (b.count, s2.releaseLanes k p gang (fun l => match l.wait with | .barw m g => m == n && g == b.count | _ => false))

/-- The common part of barv and barw. -/
def laneNamedBar (f : LLong) (wait : Bool) : LMean :=
  let n := f.imm.toNat / 4096
  let k := f.imm.toNat % 1024
  (laneMean f 8 (noFields f && f.mod.toNat == 0 && f.imm.toNat / 1024 % 4 == 0 && n != 0 && k != 0) [] []
    (fun e s =>
      let gang := e.gang
      let b := (s.part e.core e.part).barrier gang n
      if 32 * (gangSlots e.pre gang).length < k || (b.arrived != 0 && b.expect != k) then .trap e.first trapIllegal
      else .ok (e.act.foldl (fun (x : State) r =>
        -- a waiting lane waits before it arrives, so that the arrival that completes its generation releases it
        let g := ((x.part e.core e.part).barrier gang n).count
        let x1 := if wait then e.modLane x r (fun l => { l with wait := .barw n g }) else x
        (x1.arrive e.core e.part gang n k).2) s) none)).unfused

/-- gbar (08 R186) -/
def passGbar (f : LLong) : LMean :=
  (laneMean f 8 (noFields f && f.mod.toNat == 0 && f.imm.toNat == 0) [] []
    (fun e s =>
      let s1 := e.act.foldl (fun (x : State) r => e.modLane x r (fun l => { l with wait := .gbar 0 })) s
      .ok (s1.tryGangBarrier e.core e.part e.gang) none)).unfused
/-- gbar: issued by the pass whose turn it is. -/
def execGbar (f : LLong) (s : State) : Out := runPass (passGbar f) s

/-- barv (08 R187) -/
def passBarv (f : LLong) : LMean := laneNamedBar f false
/-- barv: issued by the pass whose turn it is. -/
def execBarv (f : LLong) (s : State) : Out := runPass (passBarv f) s

/-- barw (08 R187) -/
def passBarw (f : LLong) : LMean := laneNamedBar f true
/-- barw: issued by the pass whose turn it is. -/
def execBarw (f : LLong) (s : State) : Out := runPass (passBarw f) s

/-! ### Control flow (08 R181 to R184) -/

/-- exit in either form (08 R183): the gang barrier no longer counts the lane. -/
def laneExit (f : LLong) (size : Nat) : LMean :=
  laneMean f size (noFields f && f.mod.toNat == 0 && f.imm.toNat == 0) [] []
    (fun e s =>
      let s1 := e.act.foldl (fun (x : State) r => e.modLane x r (fun l => { l with exited := true })) s
      .ok (s1.tryGangBarrier e.core e.part e.gang) none)

/-- nop in either form. -/
def laneNopMean (f : LLong) (size : Nat) : LMean :=
  laneMean f size (noFields f && f.mod.toNat == 0 && f.imm.toNat == 0) [] [] (fun _ s => .ok s none)

/-- yield in either form (08 R184): the strand leaves the active set, and its wait begins. -/
def laneYield (f : LLong) (size : Nat) : LMean :=
  (laneMean f size (noFields f && f.mod.toNat == 0 && f.imm.toNat == 0) [] []
    (fun e s => .ok (e.modStrand s e.first.slot (fun st => { st with active := false, entered := s.cycle })) none)).unfused

/-- exit, short form (08 R181) -/
def passExit (f : LShort) : LMean := laneExit (longOf f 0) 4
/-- exit, short form: issued by the pass whose turn it is. -/
def execExit (f : LShort) (s : State) : Out := runPass (passExit f) s
/-- exit, long form (08 R181) -/
def passExitLong (f : LLong) : LMean := laneExit f 8
/-- exit, long form: issued by the pass whose turn it is. -/
def execExitLong (f : LLong) (s : State) : Out := runPass (passExitLong f) s
/-- nop, short form (08 R181) -/
def passLaneNop (f : LShort) : LMean := laneNopMean (longOf f 0) 4
/-- nop, short form: issued by the pass whose turn it is. -/
def execLaneNop (f : LShort) (s : State) : Out := runPass (passLaneNop f) s
/-- nop, long form (08 R181) -/
def passLaneNopLong (f : LLong) : LMean := laneNopMean f 8
/-- nop, long form: issued by the pass whose turn it is. -/
def execLaneNopLong (f : LLong) (s : State) : Out := runPass (passLaneNopLong f) s
/-- yield, short form (08 R184) -/
def passYield (f : LShort) : LMean := laneYield (longOf f 0) 4
/-- yield, short form: issued by the pass whose turn it is. -/
def execYield (f : LShort) (s : State) : Out := runPass (passYield f) s
/-- yield, long form (08 R184) -/
def passYieldLong (f : LLong) : LMean := laneYield f 8
/-- yield, long form: issued by the pass whose turn it is. -/
def execYieldLong (f : LLong) (s : State) : Out := runPass (passYieldLong f) s

/-- A target: a base plus a signed count of words (08 R182). -/
def laneTarget (base : Word) (f : LLong) : Word := base + BitVec.ofInt 64 (4 * f.imm.toInt)

/-- The pair of a lane as an address. -/
def LEnv.pair (e : LEnv) (r : LaneRef) (n : Nat) : Word := BitVec.ofNat 64 ((e.lane r).getW true n)

/-- bra (08 R181) -/
def passBra (f : LLong) : LMean :=
  laneMean f 8 (noFields f && f.mod.toNat == 0) [] []
    (fun e s => .ok (e.act.foldl (fun (x : State) r => e.modLane x r (fun l => { l with pc := laneTarget e.pc f })) s) none)
/-- bra: issued by the pass whose turn it is. -/
def execBra (f : LLong) (s : State) : Out := runPass (passBra f) s

/-- brx (08 R181) -/
def passBrx (f : LLong) : LMean :=
  laneMean f 8 (f.ty.toNat == 0 && f.mod.toNat == 0 && f.d.toNat == 0 &&
      (if f.u then f.a.toNat == 0 && f.b.toNat < 32 else f.b.toNat == 0)) (if f.u then [] else [(f.a.toNat, true)]) []
    (fun e s => .ok (e.act.foldl (fun (x : State) r =>
      let base := if f.u then (e.strand r).getS f.b.toNat else e.pair r f.a.toNat
      e.modLane x r (fun l => { l with pc := laneTarget base f })) s) none)
/-- brx: issued by the pass whose turn it is. -/
def execBrx (f : LLong) (s : State) : Out := runPass (passBrx f) s

/-- call (08 R181) -/
def passLaneCall (f : LLong) : LMean :=
  let ind := f.mod.toNat % 2 == 1
  laneMean f 8 (f.ty.toNat == 0 && f.mod.toNat < 2 && f.b.toNat == 0 && !f.u && (ind || f.a.toNat == 0))
    ((f.d.toNat, true) :: (if ind then [(f.a.toNat, true)] else [])) []
    (fun e s => .ok (e.act.foldl (fun (x : State) r =>
      let base := if ind then e.pair r f.a.toNat else e.pc
      e.modLane x r (fun l => { l.setW true f.d.toNat (e.pc + 8).toNat with pc := laneTarget base f })) s) none)
/-- call: issued by the pass whose turn it is. -/
def execLaneCall (f : LLong) (s : State) : Out := runPass (passLaneCall f) s

/-- ret (08 R181) -/
def passLaneRet (f : LLong) : LMean :=
  laneMean f 8 (f.ty.toNat == 0 && f.mod.toNat == 0 && f.d.toNat == 0 && f.b.toNat == 0 && !f.u && f.imm.toNat == 0)
    [(f.a.toNat, true)] []
    (fun e s => .ok (e.act.foldl (fun (x : State) r => e.modLane x r (fun l => { l with pc := e.pair r f.a.toNat })) s) none)
/-- ret: issued by the pass whose turn it is. -/
def execLaneRet (f : LLong) (s : State) : Out := runPass (passLaneRet f) s

/-- The lanes of a list as a mask. -/
def laneMask (rs : List LaneRef) : Nat := rs.foldl (fun m r => m + 2 ^ r.lane) 0

/-- join (08 R185): the active lanes wait in the open join of this address. -/
def passJoin (f : LLong) : LMean :=
  (laneMean f 8 (f.ty.toNat == 0 && f.d.toNat < 8 && f.u && f.b.toNat < 32 && f.a.toNat == 0 && f.mod.toNat < 4) [] [f.d.toNat]
    (fun e s =>
      let sl := e.first.slot
      let st := e.pre.strand sl
      let lanes := e.act.map (fun r => r.lane)
      let js := match st.joins.find? (fun j => j.addr == e.pc) with
        | some _ => st.joins.map (fun j => if j.addr == e.pc then { j with waiting := j.waiting ++ lanes } else j)
        | none => st.joins ++ [⟨e.pc, (st.getS f.b.toNat).setWidth 32 ||| BitVec.ofNat 32 (laneMask e.act),
            some (s.cycle + f.imm.toNat * 2 ^ (4 * f.mod.toNat)), lanes, f.d.toNat⟩]
      let s1 := e.modStrand s sl (fun st => { st with joins := js })
      .ok (e.act.foldl (fun (x : State) r => e.modLane x r (fun l => { l with wait := .join e.pc })) s1) none)).unfused
/-- join: issued by the pass whose turn it is. -/
def execJoin (f : LLong) (s : State) : Out := runPass (passJoin f) s

/-! ### Vote, shuffle and match (08 R188 to R190) -/

/-- vote (08 R188) -/
def passVote (f : LLong) : LMean :=
  let mode := f.mod.toNat % 4
  let q := f.a.toNat
  (laneMean f 8 (f.ty.toNat == 0 && f.b.toNat == 0 && !f.u && q < 8 && f.mod.toNat < 8 &&
      (if mode = 3 then f.imm.toNat < 4 && f.d.toNat < 8 else f.imm.toNat == 0))
    (if mode = 3 then [] else [(f.d.toNat, false)]) (if mode = 3 then [q, f.d.toNat] else [q])
    (fun e s =>
      let sel := e.act.filter (fun r => (e.lane r).getP q != (f.mod.toNat / 4 % 2 == 1))
      let m := laneMask sel
      let all := laneMask e.act
      let t : Bool := match f.imm.toNat % 4 with
        | 0 => m == all | 1 => m != 0 | 2 => m == 0 || m == all | _ => sel.length % 2 == 1
      .ok (e.act.foldl (fun (x : State) r =>
        if mode = 3 then e.writeP x r f.d.toNat t
        else e.writeV x r false f.d.toNat (if mode = 0 then m else if mode = 1 then sel.length
          else (sel.filter (fun z => decide (z.lane < r.lane))).length)) s) none)).unfused
/-- vote: issued by the pass whose turn it is. -/
def execVote (f : LLong) (s : State) : Out := runPass (passVote f) s

/-- The lane that a shuffle reads, and whether it lies in the segment (08 R189). -/
def shflLane (mode w l : Nat) (n : Int) : Nat × Bool :=
  let base := l / w * w
  let u : Nat := (n % (w : Nat)).toNat
  match mode with
  | 0 => (base + u, true)
  | 1 => (base + (l - base + u) % w, true)
  | 2 =>
    let j : Int := (l : Int) + n
    (j.toNat, decide ((base : Int) ≤ j) && decide (j < (base + w : Nat)))
  | _ => (Nat.xor l u, true)

/-- shfl (08 R189) -/
def passShfl (f : LLong) : LMean :=
  let w64 := tyWide f.ty.toNat
  let im := f.imm.toNat
  let mode := f.mod.toNat % 4
  let k := im / 4096 % 8
  let hasP := im / 2048 % 2 == 1
  let pr := im / 256 % 8
  let i := useImm f
  (laneMean f 8 (tysBits.contains f.ty.toNat && f.mod.toNat / 4 % 2 == 0 && im / 32768 == 0 && im / 32 % 8 == 0 && k ≤ 5 &&
      (hasP || pr == 0) && (if i then f.b.toNat == 0 && !f.u else im % 32 == 0 && (!f.u || f.b.toNat < 32)))
    ((f.d.toNat, w64) :: (f.a.toNat, w64) :: (if i then [] else bRegs f false false)) (if hasP then [pr] else [])
    (fun e s =>
      let w := 32 / 2 ^ k
      .ok (e.act.foldl (fun (x : State) r =>
        let n : Int := if i then (if mode = 2 then toSigned 5 im else (im % 32 : Nat))
          else (let v := e.srcB f false tyB32 r; if mode = 2 then toSigned 32 v else (v : Nat))
        let j := shflLane mode w r.lane n
        let ok := j.2 && e.act.contains ⟨r.slot, j.1⟩
        let v := (e.lane (if ok then ⟨r.slot, j.1⟩ else r)).getW w64 f.a.toNat
        let x1 := e.writeV x r w64 f.d.toNat v
        if hasP then e.writeP x1 r pr ok else x1) s) none)).unfused
/-- shfl: issued by the pass whose turn it is. -/
def execShfl (f : LLong) (s : State) : Out := runPass (passShfl f) s

/-- match (08 R190) -/
def passMatchLanes (f : LLong) : LMean :=
  let w := tyWide f.ty.toNat
  let mode := f.mod.toNat
  (laneMean f 8 (tysBits.contains f.ty.toNat && mode < 4 && f.b.toNat == 0 && !f.u && f.imm.toNat == 0 &&
      (mode < 2 || f.d.toNat < 8)) ((f.a.toNat, w) :: (if mode < 2 then [(f.d.toNat, false)] else []))
    (if mode < 2 then [] else [f.d.toNat])
    (fun e s =>
      let group (r : LaneRef) : List LaneRef := e.act.filter (fun z => (e.lane z).getW w f.a.toNat == (e.lane r).getW w f.a.toNat)
      .ok (e.act.foldl (fun (x : State) r =>
        let g := group r
        let low := (g.headD r).lane
        match mode with
        | 0 => e.writeV x r false f.d.toNat (laneMask g)
        | 1 => e.writeV x r false f.d.toNat low
        | 2 => e.writeP x r f.d.toNat (low == r.lane)
        | _ => e.writeP x r f.d.toNat (g.length == e.act.length)) s) none)).unfused
/-- match: issued by the pass whose turn it is. -/
def execMatchLanes (f : LLong) (s : State) : Out := runPass (passMatchLanes f) s

/-! ### Fences and phases (08 R191) -/

/-- Whether requests of the pass's active lanes still await a peer's acknowledgement (11 R261, system scope). -/
def LEnv.remotePending (e : LEnv) (s : State) : Bool :=
  (s.core e.core).requests.any (fun q => q.job == e.gang && e.act.any (fun r => q.who == .strand e.part r.slot && q.lane == r.lane))

/-- Whether a store of the pass's active lanes to host memory or tier C has not arrived (11 R261, system scope). -/
def LEnv.farPending (e : LEnv) (s : State) : Bool :=
  (s.core e.core).writes.any (fun w => !w.arrived && (match s.phys w.addr with | .tierC => true | .host _ => true | _ => false) &&
    e.act.any (fun r => (w.who, w.lane) == e.issuer r))

/-- Whether a pop of one of the pass's active lanes has not been served (08 R191, 11 R261). -/
def LEnv.popPending (e : LEnv) (s : State) : Bool :=
  e.act.any (fun r => !((s.core e.core).popRegs e.part r.slot r.lane).isEmpty)

/-- fence (08 R191, 11 R261): the earlier accesses of the active lanes' strands are performed; the lanes are held while a
pop of theirs has not been served and, at system scope, until peers, the host and expanders have acknowledged. -/
def passLaneFence (f : LLong) : LMean :=
  laneMean f 8 (noFields f && f.mod.toNat == 0 && f.imm.toNat < 6) [] []
    (fun e s =>
      if e.popPending s || (f.imm.toNat = 5 && (e.remotePending s || e.farPending s)) then .hold
      else .ok ((slotsOf e.act).foldl (fun (x : State) sl => x.drainStrand e.core e.part sl) s) none)
/-- fence: issued by the pass whose turn it is. -/
def execLaneFence (f : LLong) (s : State) : Out := runPass (passLaneFence f) s

/-- phase (08 R191): the lanes of the pass are held until it completes. -/
def passLanePhase (f : LLong) : LMean :=
  (laneMean f 8 (noFields f && f.mod.toNat == 0 && f.imm.toNat != 0 && f.imm.toNat < 4) [] []
    (fun e s =>
      let s1 := e.pass.foldl (fun (x : State) r => e.modLane x r (fun l => { l with wait := .phase })) s
      .ok (s1.beginPhase e.core (f.imm.toNat % 2 == 1) (decide (2 ≤ f.imm.toNat)) (.strand e.part e.first.slot)
        (e.pass.map (fun r => r.lane))) none)).unfused
/-- phase: issued by the pass whose turn it is. -/
def execLanePhase (f : LLong) (s : State) : Out := runPass (passLanePhase f) s

/-! ### Events (08 R198 to R200) -/

/-- evarm (08 R198) -/
def passLaneEvarm (f : LLong) : LMean :=
  (laneMean f 8 (f.ty.toNat == 0 && f.mod.toNat == 0 && f.d.toNat < 16 && f.a.toNat < 32 && f.u && f.b.toNat < 32) [] []
    (fun e s =>
      let st := e.pre.strand e.first.slot
      if !evDescOk true (st.getS f.a.toNat) (st.getS f.b.toNat) then .trap e.first trapIllegal
      else .ok (e.modStrand s e.first.slot (fun x =>
        { x with ev := x.ev.arm f.d.toNat (st.getS f.a.toNat) (st.getS f.b.toNat) (laneTarget e.pc f) })) none)).unfused
/-- evarm: issued by the pass whose turn it is. -/
def execLaneEvarm (f : LLong) (s : State) : Out := runPass (passLaneEvarm f) s

/-- evdis (08 R198) -/
def passLaneEvdis (f : LLong) : LMean :=
  (laneMean f 8 (f.ty.toNat == 0 && f.mod.toNat == 0 && f.d.toNat < 16 && f.a.toNat == 0 && f.b.toNat == 0 && !f.u &&
      f.imm.toNat == 0) [] []
    (fun e s => .ok (e.modStrand { s with fresh := s.fresh + 1 } e.first.slot (fun x =>
      { x with ev := x.ev.disarm f.d.toNat (Config.freeWord s.fresh) })) none)).unfused
/-- evdis: issued by the pass whose turn it is. -/
def execLaneEvdis (f : LLong) (s : State) : Out := runPass (passLaneEvdis f) s

/-- wany (08 R199) -/
def passWany (f : LLong) : LMean :=
  (laneMean f 8 (noFields f && f.mod.toNat == 0) [] []
    (fun e s =>
      let sl := e.first.slot
      let ev := (e.pre.strand sl).ev
      let l := f.imm &&& ev.armedMask
      if l = 0 || ev.inh then .trap e.first trapIllegal
      else if ev.ready l ≠ 0 then
        .ok (e.modStrand s sl (fun st => st.enterHandler (lowestBit (ev.ready l)) (e.pc + 8))) none
      else
        .ok (e.modStrand s sl (fun st => { st with
          listW := l, lanes := st.lanes.map (fun x => if x.2.exited then x else (x.1, { x.2 with wait := .wany })) })) none)).converged
/-- wany: issued by the pass whose turn it is. -/
def execWany (f : LLong) (s : State) : Out := runPass (passWany f) s

/-- evret (08 R200) -/
def passLaneEvret (f : LLong) : LMean :=
  (laneMean f 8 (noFields f && f.mod.toNat == 0 && f.imm.toNat == 0) [] []
    (fun e s =>
      let sl := e.first.slot
      let st := e.pre.strand sl
      if !st.ev.inh then .trap e.first trapIllegal
      else .ok (e.modStrand s sl (fun x =>
        ({ x.swapBank with ev := { x.ev with inh := false } } : Strand).sendAll st.ev.pc)) none)).converged
/-- evret: issued by the pass whose turn it is. -/
def execLaneEvret (f : LLong) (s : State) : Out := runPass (passLaneEvret f) s

/-! ### Figures from routines (08 R208 to R210) -/

/-- The target of a command word: the architected figure and its modifiers, or the trap of the first check (08 R208). -/
def figTarget (s : State) (asid fig fmod : Nat) : Except Trap (Nat × Nat) :=
  if fig ≤ 0x02 ∨ fig = 0x0B ∨ fig = 0x0C then .error trapIllegal
  else if (figKinds fig).isSome then .ok (fig, fmod)
  else if fig = 0x21 ∨ fig = 0x22 then .error ⟨.nesting, 0, 0⟩
  else
    let en := s.figEntry asid fig
    match entryKind en with
    | 0 => .error ⟨.unboundFigure, 0, 0⟩
    | 1 => if fmod ≠ 0 then .error trapIllegal else .ok (natField en 7 0, natField en 19 8)
    | _ => .error ⟨.nesting, 0, 0⟩

/-- An operand of the target, from its selector: kind and index, with the value of an x operand; `none` for a reserved
selector, a register above s31, and a position of the routine's figure that names no tile register or accumulator. -/
def figOperand (j : Job) (st : Strand) (b pos sel : Nat) : Option (Nat × Nat × Word) :=
  if sel = 0 then some (3, 0, 0)
  else if sel = 1 then (if b + 1 + pos < 32 then some (2, 0, st.getS (b + 1 + pos)) else none)
  else if 4 ≤ sel then
    match j.ops.getD (sel - 4) .none with
    | .tile t => some (0, t, 0)
    | .acc z => some (1, z, 0)
    | _ => none
  else none

/-- The operand positions that a figure writes (06 R131). -/
def figOutputs (fig mod : Nat) : List Nat :=
  if fig = 0x06 then [] else if fig = 0x0A ∧ mod / 512 % 2 = 1 then [0, 1] else [0]

/-- fig (08 R208). Non-zero bits [63:32] of the command word raise ILLEGAL_OP before FIGNO is looked up, where R208 lists them
in no step (DESIGN CHOICE, log 101). -/
def passLaneFig (f : LLong) : LMean :=
  (laneMean f 8 (f.ty.toNat == 0 && f.a.toNat == 0 && f.imm.toNat == 0 && f.mod.toNat == 0 && f.u && f.b.toNat < 32)
    [(f.d.toNat, false)] []
    (fun e s =>
      let sl := e.first.slot
      let st := e.pre.strand sl
      let j := e.job s
      let w := (st.getS f.b.toNat).toNat
      let sels := [natField w 22 20, natField w 25 23, natField w 28 26, natField w 31 29]
      let os := (List.range 4).map (fun p => figOperand j st f.b.toNat p (sels.getD p 0))
      let ctx := s.ctx e.core j.ctx
      if 2 ^ 32 ≤ w then .trap e.first trapIllegal
      else match figTarget s ctx.asid (w % 256) (natField w 19 8) with
        | .error t => .trap e.first t
        | .ok (fig, mod) =>
          let ops := os.map (fun o => o.getD (3, 0, 0))
          let kinds := ops.map (fun o => o.1)
          let ixs := ops.map (fun o => o.2.1)
          let xs := ops.map (fun o => o.2.2)
          let want := (figKinds fig).getD []
          let plan := figPlan fig mod e.part ctx e.part ixs kinds xs
          let roUsed := (figOutputs fig mod).any (fun p => decide (4 ≤ sels.getD p 0) &&
            natField (entryRole j.entry (sels.getD p 0 - 4)) 5 4 == 0)
          if os.any Option.isNone || !(List.range 4).all (fun p => (want.getD p []).contains (kinds.getD p 4)) then .trap e.first trapIllegal
          else if roUsed then .trap e.first ⟨.tileState, 0, 0⟩
          else match firstTrap [plan.checks] with
            | some t => .trap e.first t
            | none =>
              if 64 ≤ ((s.core e.core).jobs.filter (fun q => q.ctx == j.ctx)).length then .hold
              else
                let s0 := s.drainStrand e.core e.part sl
                let co := s0.core e.core
                let mk (id : Nat) : Job :=
                  { id := id, ctx := j.ctx, task := j.task, kind := .figure fig mod, parts := [e.part],
                    ops := ops.map (fun o => match o.1 with | 0 => .tile o.2.1 | 1 => .acc o.2.1 | 2 => .x 0 o.2.2 | _ => .none),
                    reads := plan.reads.map (fun r => (e.part, r.1, r.2)), writes := plan.writes.map (fun r => (e.part, r.1, r.2)),
                    tcrs := (List.range 4).filterMap (fun p =>
                      if kinds.getD p 3 = 0 then some (e.part, ixs.getD p 0, ctx.tile e.part (ixs.getD p 0)) else none),
                    atys := if fig = 0x0A then [(8 * e.part + ixs.getD 1 0, ctx.acc e.part (ixs.getD 1 0))] else [],
                    foot := plan.foot.flatMap (fun q => co.declare (some j.task) true q.1 q.2.1 q.2.2),
                    started := false, readDone := false, err := false, scope := e.part, restarts := 0, copied := [],
                    spoiled := [], scratch := 0, gangs := [], done := [], xout := [], slotNo := j.slotNo, pc := j.pc,
                    cmd := j.cmd, parent := some j.id, byStrand := sl, rdv := false, rdvNo := 0, kstart := 0, killed := false, redo := false }
                let s1 := (s0.modCtx e.core j.ctx (fun c => plan.writes.foldl (fun (c : Ctx) r =>
                  c.dropLatch (if r.1 then 1 else 0) r.2) (plan.upd c))).addJob e.core mk
                .ok (e.act.foldl (fun (x : State) r => e.produce x r false f.d.toNat (.figure co.nextJob) 0 0 []) s1) none)).converged
/-- fig: issued by the pass whose turn it is. -/
def execLaneFig (f : LLong) (s : State) : Out := runPass (passLaneFig f) s

/-- fret (08 R210, 10 R251) -/
def passFret (f : LLong) : LMean :=
  (laneMean f 8 (noFields f && f.mod.toNat == 0 && f.imm.toNat == 0) [] []
    (fun e s =>
      let sl := e.first.slot
      if (e.pre.strand sl).ev.inh then .trap e.first trapIllegal
      else .ok (e.modStrand s sl (fun st => { st with
        fret := true, lanes := st.lanes.map (fun x => if x.2.exited then x else (x.1, { x.2 with wait := .fret })) })) none)).converged
/-- fret: issued by the pass whose turn it is. -/
def execFret (f : LLong) (s : State) : Out := runPass (passFret f) s

/-! ### Breaks and the fetch barrier (08 R212) -/

/-- trap and brk (08 R212): BREAK for the gang; the lanes of the pass stand at their next PC. -/
def laneBreak (f : LLong) (kind : Nat) : LMean :=
  laneMean f 8 (noFields f && f.mod.toNat == 0) [] []
    (fun e s => .ok s (some (e.first, ⟨.break_, 0, kind * 65536 + f.imm.toNat⟩)))

/-- trap (08 R212) -/
def passLaneTrap (f : LLong) : LMean := laneBreak f 1
/-- trap: issued by the pass whose turn it is. -/
def execLaneTrap (f : LLong) (s : State) : Out := runPass (passLaneTrap f) s
/-- brk (08 R212) -/
def passLaneBrk (f : LLong) : LMean := laneBreak f 0
/-- brk: issued by the pass whose turn it is. -/
def execLaneBrk (f : LLong) (s : State) : Out := runPass (passLaneBrk f) s
/-- fbar (08 R212) -/
def passLaneFbar (f : LLong) : LMean :=
  (laneMean f 8 (noFields f && f.mod.toNat == 0 && f.imm.toNat == 0) [] []
    (fun e s => .ok (s.fetchBarrier e.core) none)).unfused
/-- fbar: issued by the pass whose turn it is. -/
def execLaneFbar (f : LLong) (s : State) : Out := runPass (passLaneFbar f) s

/-- A retired lane opcode (04 R90, R92): RETIRED_OP for its pass, whatever its guards; its lanes are ready once the registers
that its fields name are (03 R61, R74). `size` is that of its form. -/
def passRetiredLaneOpcode (w0 w1 : W32) : LMean :=
  { gn := fieldNat w0 24 24 == 1, gp := fieldNat w0 23 21, size := if fieldNat w0 25 25 = 1 then 8 else 4, valid := false,
    bad := .retiredOp,
    vs := [(fieldNat w0 20 14, false), (fieldNat w0 13 7, false)] ++
      (if fieldNat w0 25 25 = 1 ∧ fieldNat w1 20 20 = 1 then [] else [(fieldNat w0 6 0, false)]), ps := [], conv := false, split := true, eff := fun _ s => .ok s none }
/-- A retired lane opcode: issued by the pass whose turn it is. -/
def execRetiredLaneOpcode (w0 w1 : W32) (s : State) : Out := runPass (passRetiredLaneOpcode w0 w1) s

end Sys2Proof.Machine
end

