-- ==== Sys2Proof/Machine/Traps.lean ====
section
/-! DEFINITION. Trap records, their rings and their answers (spec 16 R340 to R345, R440; 04 R92; 14 R299, R315). -/
namespace Sys2Proof.Machine

/-! ### The record and its ring (16 R340, R342) -/

/-- The eight words of a record. -/
def TrapRec.words (r : TrapRec) : List Nat :=
  [r.asid * 2 ^ 32 + bit r.last * 2 ^ 25 + r.nrec * 2 ^ 22 + bit r.replay * 2 ^ 21 + bit r.inh * 2 ^ 20 + r.privl * 2 ^ 18 +
      r.eidx * 2 ^ 12 + r.engine * 2 ^ 8 + r.cls.code,
   (r.seq.getD 0) % 2 ^ 32 * 2 ^ 32 + r.ctxid, r.slot * 2 ^ 48 + r.cmd % 2 ^ 48, r.pc.toNat, r.addr.toNat, r.status.toNat,
   r.topb.toNat % 2 ^ 54, r.time % 2 ^ 64]

/-- The 64 bytes of a record. -/
def TrapRec.bytes (r : TrapRec) : List Byte := r.words.flatMap (bytesOf 8)

/-- Whether a record is a `brk` (05 R124, 08 R212). -/
def TrapRec.isBrk (r : TrapRec) : Bool := r.cls == .break_ && r.status.toNat / 65536 % 2 == 0

/-- Whether a record goes to DBGRING. -/
def State.toDebug (s : State) (r : TrapRec) : Bool := r.isBrk && (s.space r.asid).asctl.toNat / 2 % 2 == 1

/-- The ring register and the SEQ counter of a record. -/
def State.ringOf (s : State) (r : TrapRec) : Word × Nat :=
  let sp := s.space r.asid
  if s.toDebug r then (sp.dbgring, sp.seqD) else (sp.trapring, sp.seqT)

/-- Write a record at its home and raise the ring's interrupt; `none` while its slot is occupied. The record is given
its SEQ (16 R342, 22 R419). -/
def State.deliver (s : State) (r : TrapRec) : Option (TrapRec × State) :=
  let (ring, seq) := s.ringOf r
  let a := fieldNat ring 47 12 * 4096 + seq % 2 ^ fieldNat ring 63 59 * 64
  if s.mem.read a 8 ≠ 0 then none
  else
    let r1 := { r with seq := some seq }
    let s1 := s.homeWrite a r1.bytes
    let s2 := s1.modSpace r.asid (fun sp =>
      if s.toDebug r then { sp with seqD := (sp.seqD + 1) % 2 ^ 32 } else { sp with seqT := (sp.seqT + 1) % 2 ^ 32 })
    let v := fieldNat ring 55 48
    some (r1, if fieldNat ring 0 0 = 1 then (s2.raiseMsi 0 v).raiseMsi 1 v else s2)

/-- Whether a record's address space has a ring for it. -/
def State.hasRing (s : State) (r : TrapRec) : Bool := fieldNat (s.ringOf r).1 63 59 != 0

/-! ### When a record is written (16 R343) -/

/-- The place of a command in issue order. -/
def placeBefore (a b : Nat × Nat) : Bool := a.1 < b.1 || (a.1 == b.1 && a.2 < b.2)

/-- The commands of a context that have neither completed nor trapped: jobs that may still run, and long-latency
results on their way. -/
def Core.pendingCmds (c : Core) (x : Nat) : List (Nat × Nat) :=
  ((c.jobs.filter (fun j => j.ctx == x && j.parent.isNone && !j.err &&
      (match j.kind with
       | .ferry ch .. => !(c.chan ch).halt
       | _ => j.started || c.jobFree j (fun _ => true)))).map (fun j => (j.cmd, j.slotNo))) ++
    ((c.ctx x).results.filter (fun r => r.inst.isNone)).map (fun r => (r.cmd, r.slot))

/-- The unwritten record of a stop that comes first in issue order. -/
def firstUnwritten (rs : List TrapRec) : Option TrapRec :=
  (rs.filter (fun r => r.seq.isNone)).foldl (fun (a : Option TrapRec) r =>
    match a with
    | none => some r
    | some b => if placeBefore (r.cmd, r.slot) (b.cmd, b.slot) then some r else some b) none

/-- The number of records written since the last record marked LAST. -/
def writtenInStop (rs : List TrapRec) : Nat :=
  (rs.filter (fun r => r.seq.isSome)).foldl (fun n r => if r.last then 0 else n + 1) 0

/-- Replace the first unwritten record equal to `r` by `r1`, moved behind the written ones. -/
def placeWritten (rs : List TrapRec) (r r1 : TrapRec) : List TrapRec :=
  rs.filter (fun x => x.seq.isSome) ++ [r1] ++ (rs.filter (fun x => x.seq.isNone)).erase r

/-- Write the next record of a context's stop. -/
def State.writeStopRecord (s : State) (k c : Nat) : Option State :=
  let x := s.ctx k c
  match firstUnwritten x.recs with
  | none => none
  | some r =>
    let pend := (s.core k).pendingCmds c
    let others := (x.recs.filter (fun q => q.seq.isNone)).length
    if pend.any (fun p => placeBefore p (r.cmd, r.slot)) then none
    else if others = 1 ∧ pend ≠ [] then none
    else if r.cls = .retiredOp ∧ r.passed = false then none
    else if !s.hasRing r then some (match x.task with | some t => s.failTask t 4 | none => s)
    else
      match s.deliver { r with nrec := writtenInStop x.recs, last := others == 1 } with
      | none => none
      | some (r1, s1) => some (s1.modCtx k c (fun y => { y with recs := placeWritten y.recs r r1 }))

/-- The task of a channel's halted transfer. -/
def Chan.haltedTask (x : Chan) : Option Nat := (x.active.find? (fun t => some t.num == x.halted)).bind (fun t => t.cmd.task)

/-- A replayable Ferry fault ends the task that issued the transfer, if it has not ended (16 R342, R344). -/
def State.failHalted (s : State) (k ch cause : Nat) : State :=
  let s1 := s.modChan k ch (fun x => { x with frec := none })
  match (s.chan k ch).haltedTask with
  | some t => if (s.task t).complete then s1 else s1.failTask t cause
  | none => s1

/-- The task of a record that stops no context: the one saved in the area that a SAVED notice names, or the one that the context
of an ENGINE 6 record still runs. -/
def State.noticeTask (s : State) (r : TrapRec) : Option Nat :=
  if r.cls = .savedNotice then
    (s.tasks.find? (fun t => t.2.asid == r.asid && t.2.area == some (r.status.toNat % 65536) && !t.2.saved.isEmpty)).map Prod.fst
  else
    let kc := ctxOfId r.ctxid
    match (s.ctx kc.1 kc.2).task with
    | some t => if (s.task t).topb = r.topb then some t else none
    | none => none

/-- A record of an address space with no ring goes to the Purser, which ends the task as failed (16 R342). -/
def State.noRing (s : State) (r : TrapRec) : State := match s.noticeTask r with | some t => s.failTask t 4 | none => s

/-- Write a record that stops no context: a replayable Ferry fault of the context, or a notice that names it. -/
def State.writeNotice (s : State) (k c : Nat) : Option State :=
  match [0, 1, 2, 3].find? (fun ch => match (s.chan k ch).frec with
      | some r => r.seq.isNone && r.ctxid == ctxId k c | none => false) with
  | some ch =>
    (match (s.chan k ch).frec with
     | none => none
     | some r =>
       if !s.hasRing r then some (s.failHalted k ch 4)
       else match s.deliver r with
         | none => none
         | some (r1, s1) => some (s1.modChan k ch (fun x => { x with frec := some r1 })))
  | none =>
    match s.spaces.findSome? (fun e => (e.2.notices.find? (fun r => r.seq.isNone && r.ctxid == ctxId k c)).map (fun r => (e.1, r))) with
    | none => none
    | some (a, r) =>
      if !s.hasRing r then some ((s.modSpace a (fun sp => { sp with notices := sp.notices.erase r })).noRing r)
      else match s.deliver r with
        | none => none
        | some (r1, s1) => some (s1.modSpace a (fun sp => { sp with notices := sp.notices.map (fun q => if q = r then r1 else q) }))

/-- TRAP_RECORD_WRITE (16 R342, R343): the next record that names a context goes to its ring. -/
def execTrapRecordWrite (core ctx : Nat) (s : State) : Out :=
  if 8 ≤ ctx then .fault .notEnabled
  else match (s.writeStopRecord core ctx).orElse (fun _ => s.writeNotice core ctx) with
  | some s1 => .next s1
  | none => .fault .notEnabled

/-! ### Answers (16 R344) -/

/-- Where an outstanding record stands. -/
inductive RecAt where
  | ctx (k c : Nat)
  | chan (k ch : Nat)
  | saved (t ix : Nat)
  | notice (asid : Nat)
deriving DecidableEq, Repr, Inhabited

/-- Whether a record is outstanding under a SEQ and a target. -/
def TrapRec.named (r : TrapRec) (seq target : Nat) : Bool := r.seq == some seq && r.ctxid == target && r.answer.isNone

/-- The outstanding record of a SEQ and a target. -/
def State.findRec (s : State) (seq target : Nat) : Option (RecAt × TrapRec) :=
  let kc := ctxOfId target
  let hit (r : TrapRec) : Bool := r.named seq target
  ((s.ctx kc.1 kc.2).recs.find? hit).map (fun r => (.ctx kc.1 kc.2, r))
  |>.orElse (fun _ => [0, 1, 2, 3].findSome? (fun ch => match (s.chan kc.1 ch).frec with
      | some r => if hit r then some (.chan kc.1 ch, r) else none | none => none))
  |>.orElse (fun _ => s.tasks.findSome? (fun t => (List.range t.2.saved.length).findSome? (fun i =>
      ((t.2.saved.getD i default).ctx.recs.find? hit).map (fun r => (.saved t.1 i, r)))))
  |>.orElse (fun _ => s.spaces.findSome? (fun e => (e.2.notices.find? hit).map (fun r => (.notice e.1, r))))

/-- Whether an action is allowed for a record (the table of R344). -/
def actionOk (a : Nat) (r : TrapRec) : Bool :=
  if r.cls == .savedNotice then false
  else if r.engine == 6 then false
  else match a with
    | 0 => r.engine == 0 || (r.engine == 3 && !r.replay)
    | 1 => r.engine == 0 || r.cls == .break_
    | 2 => ((r.engine == 1 || r.engine == 2 || r.engine == 7) && r.status.toNat / 2 ^ 48 % 2 == 1) || r.engine == 4 || r.engine == 5
    | 3 => r.engine != 5
    | 4 => true
    | 5 => r.replay
    | _ => false

/-- Whether strands of an instance lie on the core; a save leaves none of them (12 R282). -/
def Core.hasGang (c : Core) (id : Nat) : Bool := c.parts.any (fun e => e.2.strands.any (fun st => st.2.gang == id))

/-- Take the trap of an instance away: its strands go on (05 R124, 08 R212). -/
def State.resumeGang (s : State) (k id : Nat) : State :=
  (s.modJob k id (fun j => { j with err := false })).modCore k (fun c => { c with
    parts := c.parts.map (fun e => (e.1, { e.2 with
      strands := e.2.strands.map (fun st => if st.2.gang == id then (st.1, { st.2 with stopped := false }) else st) })) })

/-- The abandoned operations of a context: jobs that trapped, and instances with their gangs (14 R299). -/
def State.dropFaulted (s : State) (k c : Nat) : State :=
  let ids := ((s.core k).jobs.filter (fun j => j.ctx == c && j.err && j.parent.isNone)).map (fun j => j.id)
  ids.foldl (fun (x : State) id => (x.removeGangs k id).dropJob k id) s

/-- The effect of an answer on a record of a context. RETRY of a non-replayable Ferry record reissues the bundle the
context stands at (DEDUCED, log 50). -/
def State.applyAnswer (s : State) (k c : Nat) (r : TrapRec) (a : Nat) : State :=
  match a with
  | 0 => if r.engine = 3 then s else s.modCtx k c (fun x => { x with pc := r.pc })
  | 1 =>
    if r.engine = 4 then (match r.inst with
      | some id => if (s.core k).hasGang id then s.resumeGang k id else s.restartInst k id
      | none => s)
    else s.modCtx k c (fun x => { x with pc := r.pc, skip := r.slot :: x.skip.filter (· != r.slot) })
  | 2 =>
    (match r.inst with
     | none => s
     | some id =>
       if r.engine = 5 then s.modTask id (fun t => { t with mstop := false })
       else s.restartInst k id)
  | 3 => (s.dropFaulted k c).restartStep k c
  | _ => s

/-- Faults that a full stop has held back are raised again once it has been answered: the operations that found them run
again (16 R343). -/
def State.reraise (s : State) (k c : Nat) : State :=
  let ids := ((s.core k).jobs.filter (fun j => j.ctx == c && j.err && j.parent.isNone)).map (fun j => j.id)
  ids.foldl (fun (x : State) id => x.restartInst k id) s

/-- Apply the held answers of a context in NREC order; the record marked LAST ends its stop (16 R344). `fuel` bounds
the records. -/
def State.applyAnswers (s : State) (k c fuel : Nat) : State :=
  match fuel with
  | 0 => s
  | n + 1 =>
    match (s.ctx k c).recs with
    | [] => s.modCtx k c (fun x => { x with stopped := false })
    | r :: rest =>
      match r.answer with
      | none => s
      | some a =>
        if a = 4 then (match (s.ctx k c).task with | some t => s.failTask t 3 | none => s)
        else if a = 3 then
          (s.applyAnswer k c r a).modCtx k c (fun x => { x with recs := [], stopped := false })
        else
          let s1 := (s.applyAnswer k c r a).modCtx k c (fun x => { x with
            recs := rest, stopped := !(r.last && rest.isEmpty) })
          if r.last && rest.isEmpty then s1.reraise k c else s1.applyAnswers k c n

/-- The number of records of the stop before a record that have no answer yet. -/
def unansweredBefore (rs : List TrapRec) (r : TrapRec) : Bool :=
  (rs.takeWhile (fun q => !(q.seq == r.seq && q.ctxid == r.ctxid))).any (fun q => q.answer.isNone)

/-- An answer in the layout of TRESUME (16 R348). -/
def answerWord (r : TrapRec) (a : Nat) : Nat := a * 2 ^ 60 + (r.seq.getD 0) % 2 ^ 32 * 2 ^ 28 + r.ctxid % 2 ^ 18

/-- Note an answer on its record. -/
def answerIn (rs : List TrapRec) (r : TrapRec) (a : Nat) : List TrapRec :=
  rs.map (fun q => if q = r then { q with answer := some a } else q)

/-- Set TRESUME.RESULT of an issuer: 0 accepted, 1 refused, 2 held. -/
def State.setResult (s : State) (i : Issuer) (v : Nat) : State :=
  match i with
  | .host p => s.modPort p (fun x => { x with result := v })
  | _ => { s with resumeRes := (i, v) :: s.resumeRes.filter (fun e => e.1 != i) }

/-- Resume a halted Ferry channel at its faulting element (09 R234, 16 R345). -/
def State.resumeChannel (s : State) (k ch : Nat) : State :=
  s.modChan k ch (fun x => { x with halt := false, halted := none, frec := none })

/-- RESTORE's target: the save area of an address space becomes a head of its own (16 R347). -/
def State.restoreSaved (s : State) (asid ix target : Nat) : Option State :=
  let core := natField target 12 7
  match s.tasks.find? (fun t => t.2.asid == asid && t.2.area == some ix && !t.2.saved.isEmpty && !t.2.swapped && t.2.restore.isNone) with
  | none => none
  | some (t, tk) =>
    let die := natField target 15 13
    -- PARKED and ORIGIN as the parts of the area hold them
    let refused (i : Nat) : Bool :=
      let home := (ctxOfId (natField (s.mem.read (s.partBase t i + 8) 8) 17 0)).1
      natField (s.mem.read (s.partBase t i) 8) 1 1 == 1 &&
        !(core < 36 && (if tk.troupe then [0, 1, 2, 3].any (fun q => memberCore home q == die * 36 + core) else die * 36 + core == home))
    if 36 ≤ core ∧ core ≠ 0x3F then none
    else if (List.range tk.places.length).any refused then none
    else
      let s1 := s.modTask t (fun x => { x with restore := some (die, core) })
      some (s1.modSpace asid (fun sp => { sp with notices := sp.notices.filter (fun r =>
        !(r.cls == .savedNotice && r.status.toNat % 65536 == ix)) }))

/-- A write of TRESUME with an action (16 R344). -/
def State.resumeWrite (s0 : State) (i : Issuer) (action : Nat) (v : Word) : State :=
  let s : State := { s0 with tresume := BitVec.ofNat 64 (action % 16 * 2 ^ 60 + fieldNat v 59 28 * 2 ^ 28 + fieldNat v 19 0) }
  let target := fieldNat v 17 0
  let seq := fieldNat v 59 28
  if action = 6 then
    -- a SAVED notice names its save area; the notice tells the address space
    match s.spaces.findSome? (fun e => (e.2.notices.find? (fun r => r.cls == .savedNotice && r.seq.isSome &&
        r.status.toNat % 65536 == seq % 65536)).map (fun _ => e.1)) with
    | none => s.setResult i 1
    | some asid =>
      if seq / 65536 ≠ 0 then s.setResult i 1
      else match s.restoreSaved asid (seq % 65536) target with
        | none => s.setResult i 1
        | some s1 => s1.setResult i 0
  else
    match s.findRec seq target with
    | none => s.setResult i 1
    | some (.ctx k c, r) =>
      if !actionOk action r then s.setResult i 1
      else
        -- an answer to a later record of the stop is held, whatever its action
        let held := unansweredBefore (s.ctx k c).recs r
        let s1 := s.modCtx k c (fun x => { x with recs := answerIn x.recs r action })
        (s1.applyAnswers k c 9).setResult i (if held then 2 else 0)
    | some (.chan k ch, r) =>
      let kc := ctxOfId target
      if action = 5 then (s.resumeChannel k ch).setResult i 0
      else if action = 4 then (s.failHalted k ch 3).setResult i 0
      else if action = 3 ∧ actionOk 3 r then
        let s1 := s.modChan k ch (fun x => { x with frec := none })
        (if (s.ctx k kc.2).task = (s.chan k ch).haltedTask then s1.restartStep k kc.2 else s1).setResult i 0
      else s.setResult i 1
    | some (.saved t ix, r) =>
      -- answers to a saved context are kept in its save area (16 R346)
      if !actionOk action r then s.setResult i 1
      else
        let n := (((s.task t).saved.getD ix default).ctx.recs.findIdx? (fun q => q == r)).getD 0
        ((s.homeWrite (s.partBase t ix + 0x1F00 + 8 * n) (bytesOf 8 (answerWord r action))).modTask t (fun x => { x with
          saved := (List.range x.saved.length).map (fun n =>
            let sv := x.saved.getD n default
            if n = ix then { sv with ctx := { sv.ctx with recs := answerIn sv.ctx.recs r action } } else sv) })).setResult i 2
    | some (.notice _, _) => s.setResult i 1

/-- RETRY (16 R344): reissue the command's bundle whole. -/
def execRetry (issuer : Issuer) (value : Word) (s : State) : Out := .next (s.resumeWrite issuer 0 value)
/-- SKIP (16 R344): reissue the bundle with the trapping slot disabled. -/
def execSkip (issuer : Issuer) (value : Word) (s : State) : Out := .next (s.resumeWrite issuer 1 value)
/-- REPLAY (16 R344): replay the engine operation, or resume the merge. -/
def execReplay (issuer : Issuer) (value : Word) (s : State) : Out := .next (s.resumeWrite issuer 2 value)
/-- DISCARD (16 R344): restart the step. -/
def execDiscard (issuer : Issuer) (value : Word) (s : State) : Out := .next (s.resumeWrite issuer 3 value)
/-- ABORT (16 R344): end the task as failed. -/
def execAbort (issuer : Issuer) (value : Word) (s : State) : Out := .next (s.resumeWrite issuer 4 value)
/-- FERRY (16 R344): resume the halted channel at its faulting element. -/
def execFerry (issuer : Issuer) (value : Word) (s : State) : Out := .next (s.resumeWrite issuer 5 value)
/-- RESTORE (16 R344, R347): a saved task becomes a head of its own. -/
def execRestore (issuer : Issuer) (value : Word) (s : State) : Out := .next (s.resumeWrite issuer 6 value)

end Sys2Proof.Machine
end

