-- ==== Sys2Proof/Machine/SysRegs.lean ====
section
/-! DEFINITION. The control registers of contexts, strands, system software and the Causeway (spec 05 R119, 08 R211, 16
R335 to R338, R342, R344, R346, 19 R379). -/
namespace Sys2Proof.Machine

/-- The ASSEL of an issuer: each PCIe port has its own (22 R412); contexts and lanes share one (log 18). -/
def State.asselOf (s : State) (i : Issuer) : Nat := match i with | .host p => (s.port p).assel | _ => s.assel

/-- Whether a number is a listed register of R337 or R379. -/
def isSysReg (n : Nat) : Bool :=
  (0x200 ≤ n && n ≤ 0x20C) || n == 0x210 || (0x220 ≤ n && n ≤ 0x22C)

/-- Whether every bit set in `v` lies in `mask`. -/
def bitsIn (v mask : Nat) : Bool := Nat.lor v mask == mask

/-- The bits of a system register that are not reserved, for a register that is written (16 R337, R338, R342, R344, R346, 19
R379). -/
def sysMask (n : Nat) : Nat :=
  match n with
  | 0x200 => 0xFFFF
  | 0x201 => 0xFFFFFFFF0001
  | 0x202 => 3
  | 0x203 => 0xFFFFFFFFFFF00FFF
  | 0x204 => 0xF8FFFFFFFFFFF001
  | 0x205 => 0xF8FFFFFFFFFFF001
  | 0x206 => 0xFFFFFFFFFE01
  | 0x207 => 0xFFFF
  | 0x208 => 0x803FFFFFFFFF8007
  | 0x209 => 0xFFFFFFFFF00FFFFF
  | 0x20A => 0x7FFFF
  | 0x20B => 0xFFFFFFFF
  | 0x20C => 1
  | 0x220 => 0x1F0F
  | 0x221 => 0xFF1F80FF
  | 0x224 => 0xFFFF
  | 0x225 => 0xFF
  | 0x228 => 0xFFFFFFFFE001
  | _ => 2 ^ 64 - 1

/-- Whether every field of a system register's value is in its range (16 R337, R338, R342, 19 R379). -/
def sysFieldsOk (n v : Nat) : Bool :=
  let ring : Bool := natField v 63 59 == 0 || (4 ≤ natField v 63 59 && natField v 63 59 ≤ 16)
  match n with
  | 0x203 => natField v 11 0 != 0
  | 0x204 => ring
  | 0x205 => ring
  | 0x208 => natField v 2 1 != 3
  | 0x220 => natField v 3 0 ≤ 9
  | 0x224 => natField v 15 0 != 0
  | _ => true

/-- Whether a value may be written to a system register: no reserved bit set, every field in range (16 R337, 19 R379).
Writes to read-only registers are ignored, so any value may be written. -/
def sysValueOk (n : Nat) (w : Word) : Bool := bitsIn w.toNat (sysMask n) && sysFieldsOk n w.toNat

/-- Set a ring register: its SEQ counter becomes 0 (16 R342). -/
def State.setRing (s : State) (asid : Nat) (dbg : Bool) (v : Word) : State :=
  s.modSpace asid (fun sp => if dbg then { sp with dbgring := v, seqD := 0 } else { sp with trapring := v, seqT := 0 })

/-- Begin an invalidation, when GO is written (16 R338). -/
def State.setTlbinv (s : State) (i : Issuer) (v : Word) : State :=
  { s with tlbinv := BitVec.ofNat 64 (bit (v.toNat % 2 == 1) * 2 ^ 63 + fieldNat v 53 15 * 2 ^ 15 + fieldNat v 2 1 * 2),
           tlbinvAsid := s.asselOf i }

/-- Whether an invalidation is in progress (16 R338). -/
def State.tlbBusy (s : State) : Bool := s.tlbinv.toNat / 2 ^ 63 == 1

/-- Whether a request for pre-emption is visible: from the cycle after it was raised on (02 R53, 16 R346). -/
def Ctx.preSeen (c : Ctx) : Bool := c.preReq && !c.preNew

/-- Request the pre-emption of a context: nothing where it holds no task, or where a request is outstanding (16 R346). The
request reaches every context of its task, which is saved whole (log 30). -/
def State.requestPre (s : State) (k c : Nat) : State :=
  match (s.ctx k c).task with
  | none => s
  | some t =>
    (s.task t).places.foldl (fun (x : State) e => x.modCtx e.1 e.2 (fun y =>
      if y.task = some t ∧ !y.preReq then { y with preReq := true, preNew := true } else y)) s

/-- A write of PREEMPT (16 R346). -/
def State.writePreempt (s : State) (v : Word) : State :=
  let kc := ctxOfId (fieldNat v 17 0)
  if fieldNat v 18 18 = 1 then (List.range 8).foldl (fun x c => x.requestPre kc.1 c) s else s.requestPre kc.1 kc.2

/-- The key of the selected output in the slot tables (19 R375, R379). -/
def Fabric.selKey (f : Fabric) : Nat := (f.cwsel % 16 * 32 + f.cwsel / 256 % 32) * 256

/-- The shadow entry that a write of CWENT sets (19 R379): V, IN and CIRC as one word. -/
def State.writeCwent (s : State) (v : Word) : State :=
  let f := s.fabric
  { s with fabric := { f with
      cwent := fieldNat v 31 24, bankS := f.bankS.set 0 (f.selKey + fieldNat v 31 24) (BitVec.ofNat 32 (fieldNat v 20 0)) } }

/-- A write of CWSWAP (19 R378, R379). -/
def State.writeCwswap (s : State) (v : Word) : State :=
  { s with fabric := { s.fabric with period := v.toNat / 2, arm := v.toNat % 2 == 1 } }

/-- LINKDLY of the selected output: outputs 0 to 8 of the port routers 8 and 9 are the links of Causeway ports 0 to 17
(19 R370, R371); the others lie inside the package (log 22). -/
def State.linkDly (s : State) : Nat :=
  let r := s.fabric.cwsel % 16
  let out := s.fabric.cwsel / 256 % 32
  if 8 ≤ r ∧ out < 9 then Tab.get s.fabric.links 0xFFFF ((r - 8) * 9 + out) else Config.linkDelay r out % 2 ^ 16

/-- The value of a system register for an issuer in an address space, and the state after (an RC register clears). -/
def State.sysRead (s : State) (i : Issuer) (asid n : Nat) : Word × State :=
  let sp := s.space (s.asselOf i)
  let f := s.fabric
  let nat (v : Nat) : Word × State := (BitVec.ofNat 64 v, s)
  match n with
  | 0x200 => nat (s.asselOf i)
  | 0x201 => (sp.ptbase, s)
  | 0x202 => (sp.asctl, s)
  | 0x203 => (sp.savepool, s)
  | 0x204 => (sp.trapring, s)
  | 0x205 => (sp.dbgring, s)
  | 0x206 => (sp.peermap, s)
  | 0x207 => (sp.tenant, s)
  | 0x208 => (s.tlbinv, s)
  | 0x209 =>
    let res := match i with
      | .host p => (s.port p).result
      | _ => (match s.resumeRes.find? (fun e => e.1 == i) with | some e => e.2 | none => 0)
    nat (s.tresume.toNat / 4 * 4 + res)
  | 0x20B => nat s.pregrace
  | 0x20C => nat (bit s.ckptEn)
  | 0x210 => nat asid
  | 0x220 => nat f.cwsel
  | 0x221 => nat (f.cwent * 2 ^ 24 + (Tab.get f.bankA 0 (f.selKey + f.cwent)).toNat)
  | 0x222 => nat (f.period * 2 + bit f.arm)
  | 0x223 => nat s.cwcyc
  | 0x224 => nat f.cwtmo
  | 0x225 => nat f.cwcomb
  | 0x226 => nat f.cwdim
  | 0x227 => nat s.linkDly
  | 0x228 => (f.rqbase, s)
  | 0x229 => (BitVec.ofNat 64 f.laterep, { s with fabric := { f with laterep := 0 } })
  | 0x22A => (BitVec.ofNat 64 f.circdrop, { s with fabric := { f with circdrop := 0 } })
  | 0x22B => (BitVec.ofNat 64 f.rsldrop, { s with fabric := { f with rsldrop := 0 } })
  | 0x22C => (f.peerlive, s)
  | _ => nat 0

/-- The effect of a legal write of a system register by an issuer. -/
def State.sysWrite (s : State) (i : Issuer) (n : Nat) (w : Word) : State :=
  let a := s.asselOf i
  let v := w.toNat
  match n with
  | 0x200 => (match i with
    | .host p => s.modPort p (fun x => { x with assel := v % 2 ^ 16 })
    | _ => { s with assel := v % 2 ^ 16 })
  | 0x201 => s.modSpace a (fun sp => { sp with ptbase := w })
  | 0x202 => s.modSpace a (fun sp => { sp with asctl := w })
  | 0x203 => s.modSpace a (fun sp => { sp with savepool := w })
  | 0x204 => s.setRing a false w
  | 0x205 => s.setRing a true w
  | 0x206 => s.modSpace a (fun sp => { sp with peermap := w })
  | 0x207 => s.modSpace a (fun sp => { sp with tenant := w })
  | 0x208 => s.setTlbinv i w
  | 0x209 => s.resumeWrite i (v / 2 ^ 60) w
  | 0x20A => s.writePreempt w
  | 0x20B => { s with pregrace := v % 2 ^ 32 }
  | 0x20C => { s with ckptEn := v % 2 == 1 }
  | 0x220 => { s with fabric := { s.fabric with cwsel := v } }
  | 0x221 => s.writeCwent w
  | 0x222 => s.writeCwswap w
  | 0x224 => { s with fabric := { s.fabric with cwtmo := v % 2 ^ 16 } }
  | 0x225 => { s with fabric := { s.fabric with cwcomb := v % 256 } }
  | 0x228 => { s with fabric := { s.fabric with rqbase := w } }
  | _ => s

/-- A write of a system register that reaches it: hardware ignores what a host writes to a reserved field (00 R9), and a field
out of its range leaves the register as it is, where a context's write traps at issue (16 R337, log 62). -/
def State.regWrite (s : State) (i : Issuer) (n : Nat) (w : Word) : State :=
  let v := match i with | .host _ => w &&& BitVec.ofNat 64 (sysMask n) | _ => w
  if sysValueOk n v then s.sysWrite i n v else s

/-- DEVID (22 R412), as a port shows it. -/
def State.devid (s : State) (port : Nat) : Nat := 0x5659 * 2 ^ 48 + 3 * 2 ^ 40 + s.fabric.peer * 2 ^ 24 + port

/-- Whether `crd` of a system register raises PRIV at a privilege level (16 R335). -/
def sysReadPriv (priv n : Nat) : Bool := priv == 0 && isSysReg n && n != 0x210 && n != 0x223 && n != 0x226
/-- Whether `cwr` of a system register, or of HANGCTL, raises PRIV (16 R335, 19 R379). -/
def sysWritePriv (priv n : Nat) : Bool := priv == 0 && ((isSysReg n && n != 0x210) || (0x40 ≤ n && n ≤ 0x43))

/-- A write of HANGCTL.LIMIT of a partition: it takes effect in the next cycle (03 R71). -/
def State.setHang (s : State) (k p : Nat) (v : Word) : State :=
  s.modPart k p (fun x => { x with hangNew := some (v.toNat % 2 ^ 32) })

/-- A write of NUMFLAGS: ones clear flags (01 R21). -/
def Ctx.clearFlags (c : Ctx) (v : Word) : Ctx := { c with numflags := c.numflags &&& ~~~ (v.setWidth 32) }

/-! ### Registers of a tile context (05 R119) -/

/-- Whether a register number is listed for a tile context. -/
def ctxRegOk (n : Nat) : Bool :=
  n ≤ 3 || (8 ≤ n && n ≤ 0xD) || (0x10 ≤ n && n ≤ 0x12) || (0x18 ≤ n && n ≤ 0x1C) || n == 0x20 || n == 0x21 ||
    (0x40 ≤ n && n ≤ 0x43) || isSysReg n

/-- LPCTL (02 R51): STAGES, DRAIN, ACTIVE. -/
def Ctx.lpctl (c : Ctx) : Nat := bit c.drain * 2 ^ 10 + bit c.active * 2 ^ 9 + c.stages * 2 ^ 6

/-- The value of a register of a context as its bundle sees it. -/
def State.ctxRegRead (s : State) (k c : Nat) (x : Ctx) (n : Nat) : Word × State :=
  let nat (v : Nat) : Word × State := (BitVec.ofNat 64 v, s)
  match n with
  | 0x000 => nat x.numflags.toNat
  | 0x001 => nat x.pri
  | 0x002 => nat (ctxId k c)
  | 0x003 => nat (match x.task with | some t => (s.task t).spawnIx | none => 0)
  | 0x010 => (x.lpstart, s)
  | 0x011 => nat (x.trip * 2 ^ 32 + x.next)
  | 0x012 => nat x.lpctl
  | 0x018 => nat x.ev.pend.toNat
  | 0x019 => nat x.ev.mask.toNat
  | 0x01A => (x.ev.pc, s)
  | 0x01B => (x.ev.ctl, s)
  | 0x020 => nat s.cycle
  | 0x021 => nat s.devtime
  | _ =>
    if 8 ≤ n ∧ n ≤ 0xD then (Tab.get x.ireg 0 (n - 8), s)
    else if 0x40 ≤ n ∧ n ≤ 0x43 then nat (s.part k (n - 0x40)).hangLimit
    else if isSysReg n then s.sysRead (.ctx k c) x.asid n
    else nat 0

/-- The effect of a legal write of a register of a context. -/
def State.ctxRegWrite (s : State) (k c n : Nat) (v : Word) : State :=
  match n with
  | 0x000 => s.modCtx k c (fun x => x.clearFlags v)
  | 0x019 => s.modCtx k c (fun x => { x with ev := { x.ev with mask := v.setWidth 16 } })
  | 0x01A => s.modCtx k c (fun x => { x with ev := { x.ev with pc := v } })
  | 0x01C => s.modCtx k c (fun x => { x with ev := x.ev.postSoft v })
  | _ =>
    if 0x40 ≤ n ∧ n ≤ 0x43 then s.setHang k (n - 0x40) v
    else if isSysReg n then s.sysWrite (.ctx k c) n v
    else s

/-! ### Registers of a lane (08 R211) -/

/-- Whether a register number is listed for lanes. -/
def laneRegOk (n : Nat) : Bool :=
  n == 0 || n == 2 || (0x18 ≤ n && n ≤ 0x1C) || n == 0x20 || n == 0x21 || n == 0x30 || (0x40 ≤ n && n ≤ 0x43) ||
    (0x80 ≤ n && n ≤ 0x8F) || (0x100 ≤ n && n ≤ 0x103) || isSysReg n

end Sys2Proof.Machine
end

