-- ==== Sys2Proof/Machine/LaneRows.lean ====
section
/-! DEFINITION. What happens to strands between their passes: results that arrive, joins, queues, reds, bank service, the
hang detector and the end of a strand (spec 03 R61, R68 to R71, 08 R185 to R210, 09 R217). -/
namespace Sys2Proof.Machine

/-! ### Results -/

/-- A value arrives in a lane's register, or pair, in whichever bank it stands, and clears the pending bits (03 R61, 08
R200). A value for an exited lane is discarded (08 R183). -/
def Strand.fill (st : Strand) (lane dst : Nat) (wide shadow : Bool) (v : Nat) : Strand :=
  st.modLane lane (fun l =>
    let ds := if wide then [dst, dst + 1] else [dst]
    let here := dst < 120 || shadow == st.ev.inh
    let ns := if here then ds else ds.map (fun d => d + 1000)
    let l1 := { l with pendV := l.pendV.filter (fun r => !ns.contains r) }
    if l.exited then l1
    else if here then l1.setW wide dst v
    else
      let a := l1.shV.set 0 dst (BitVec.ofNat 32 v)
      { l1 with shV := if wide then a.set 0 (dst + 1) (BitVec.ofNat 32 (v / 2 ^ 32)) else a })

/-- A result leaves the strand's list. -/
def Strand.dropResult (st : Strand) (r : LaneResult) : Strand := { st with results := st.results.erase r }

/-- Deliver a result of a lane. -/
def State.fillLane (s : State) (k p sl : Nat) (r : LaneResult) (v : Word) : State :=
  s.modStrand k p sl (fun st => (st.dropResult r).fill r.lane r.dst r.wide r.shadow v.toNat)

/-- An entry of the notice table for a handle, its contributor index aside (19 R387). -/
def noticeKey (h : Word) : Nat := fieldNat h 63 48 * 2 ^ 32 + fieldNat h 18 0
def State.noticeOf (s : State) (h : Word) : Option Notice :=
  s.fabric.notices.find? (fun n => noticeKey n.handle == noticeKey h)

/-- The results of a pass that are on their way in a partition, with the strand slots that wait for them, lowest lane
first (07 R175). A pass is known by its cycle and its lowest strand slot. -/
def State.passResults (s : State) (k p : Nat) (r : LaneResult) : List (Nat × LaneResult) :=
  (List.range 32).flatMap (fun l => (s.part k p).strands.flatMap (fun e =>
    (e.2.results.filter (fun q => q.lane == l && q.cyc == r.cyc && q.lead == r.lead && q.src == .value)).map (fun q => (e.1, q))))

/-- The access a result's units are of. -/
def accessOf (units : List Nat) : Access := if units.contains atomMark then .atomic else .read

/-- LANE_RESULT_ARRIVAL (03 R61, 07 R175, 08 R206, R208): the `n`-th result of a strand arrives. Uncorrectable data of any
lane of its pass traps the gang, with the lowest-numbered failing lane (02 R40); no destination of the pass is written,
and the pending bits stay. -/
def execLaneResultArrival (core part slot n : Nat) (s : State) : Out :=
  let st := s.strand core part slot
  match st.results[n]? with
  | none => .fault .notEnabled
  | some r =>
    match r.src with
    | .value =>
      let mates := s.passResults core part r
      (match mates.find? (fun m => m.2.lines.any s.srcBad) with
       | some m =>
         let s1 := mates.foldl (fun (x : State) q => x.modStrand core part q.1 (fun y => y.dropResult q.2)) s
         .next (s1.gangTrap core st.gang part (s.strand core part m.1).index m.2.lane r.pc .memUncorrectable m.2.va
           (trapMem m.2.va (accessOf m.2.lines) (m.2.lines.contains poisonMark)).det)
       | none => .next (s.fillLane core part slot r r.value))
    | .figure j => if ((s.core core).job j).isSome then .fault .notEnabled else .next (s.fillLane core part slot r 0)
    | .notice h map _ =>
      match s.noticeOf h with
      | none => .fault .notEnabled
      | some e => .next (s.fillLane core part slot r (if map then BitVec.ofNat 64 e.map else e.value))
    | .fabric _ => .fault .notEnabled
    | .enqueue _ => .fault .notEnabled

/-- LONG_LATENCY_RESULT (02 R33, 05 R105): the `n`-th result of a context arrives, or its data is uncorrectable. -/
def execLongLatencyResult (core ctx n : Nat) (s : State) : Out :=
  let c := s.ctx core ctx
  match c.results[n]? with
  | none => .fault .notEnabled
  | some r =>
    -- the outputs of an emulated figure arrive once its bundle is finished (04 R92, 12 R283)
    if r.inst.isSome || r.spawn.isSome || (r.slot == 2 && c.cmd ≤ r.cmd && c.preStop.isNone) then .fault .notEnabled
    else
      let s1 := s.modCtx core ctx (fun x => { x with results := x.results.erase r })
      if r.lines.any s.srcBad then
        .next (s1.takeTrap core ctx ⟨0, 0, r.slot, r.pc, r.cmd, none⟩ .memUncorrectable r.va
          (BitVec.ofNat 64 (trapMem r.va .read (r.lines.contains poisonMark)).det))
      else .next (s1.modCtx core ctx (fun x => x.fillResult r r.value))

/-! ### Joins (03 R68, 08 R185) -/

/-- The lanes of an open join's mask that have not exited. -/
def Strand.joinLeft (st : Strand) (j : Join) : List Nat :=
  (List.range 32).filter (fun l => j.mask.getLsbD l && !(st.lane l).exited)

/-- Whether an open join is complete. -/
def Strand.joinDone (st : Strand) (j : Join) : Bool := (st.joinLeft j).all (fun l => j.waiting.contains l)

/-- Release the lanes of an open join with its timeout flag. -/
def Strand.closeJoin (st : Strand) (j : Join) (flag : Bool) : Strand :=
  j.waiting.foldl (fun (x : Strand) l =>
    if (x.lane l).exited then x else x.modLane l (fun y => { y.setP j.pred flag with wait := .none }))
    { st with joins := st.joins.filter (fun q => q.addr != j.addr) }

/-- The open join of a strand at an address. -/
def Strand.openJoin (st : Strand) (addr : Nat) : Option Join := st.joins.find? (fun j => j.addr.toNat == addr)

/-- Whether an open join's deadline has passed: it ends at the end of its cycle, after the arrivals and exits of that
cycle (03 R68, 08 R185). -/
def Join.late (j : Join) (cycle : Nat) : Bool := match j.deadline with | some d => decide (d < cycle) | none => false

/-- JOIN_COMPLETION (03 R68, 08 R185): every lane of the mask waits, no later than in the cycle of the deadline; the flag is
clear. -/
def execJoinCompletion (core part slot addr : Nat) (s : State) : Out :=
  let st := s.strand core part slot
  match st.openJoin addr with
  | none => .fault .notEnabled
  | some j =>
    if st.joinDone j && !j.late s.cycle then .next (s.setStrand core part slot (st.closeJoin j false)) else .fault .notEnabled

/-- JOIN_TIMEOUT (03 R68, 08 R185): the cycle of the deadline is over and the join has not completed; the flag is set, and
the lanes are ready in the cycle after the deadline. -/
def execJoinTimeout (core part slot addr : Nat) (s : State) : Out :=
  let st := s.strand core part slot
  match st.openJoin addr with
  | none => .fault .notEnabled
  | some j =>
    if j.late s.cycle then .next (s.setStrand core part slot (st.closeJoin j true)) else .fault .notEnabled

/-! ### Queues (08 R195, R196) -/

/-- The lanes of ACTIVE of a waiting push. -/
def pushCount (w : List QWait) : Nat := (w.filter (fun q => q.val == 1)).length

/-- QPUSH_SERVE (08 R196): the first waiting push of a queue finds room for all its lanes: they are ready, and their pass
issues next at its strand's turn. It keeps its place in the list until then. -/
def execQpushServe (core q : Nat) (s : State) : Out :=
  let qu := (s.core core).queue q
  match qu.pushes with
  | [] => .fault .notEnabled
  | req :: _ =>
    if qu.free < pushCount req || req.all (fun w => (s.lane core w.part w.slot w.lane).granted) then .fault .notEnabled
    else .next (req.foldl (fun (x : State) w => x.modLane core w.part w.slot w.lane (fun l => { l with wait := .qpush q true })) s)

/-- QPOP_SERVE (08 R196): the first waiting pop of a queue takes its entries in lane order. -/
def execQpopServe (core q : Nat) (s : State) : Out :=
  let qu := (s.core core).queue q
  match qu.pops with
  | [] => .fault .notEnabled
  | req :: rest =>
    if qu.entries < req.length then .fault .notEnabled
    else
      let s0 := s.modCQueue core q (fun x => { x with pops := rest })
      let z := req.foldl (fun (x : State × Option (QWait × Nat)) w =>
        let n := if w.wide then 8 else 4
        let y := x.1.qPopOne core q n
        if (s.core core).landBad y.2.1 n then (y.2.2, x.2.orElse (fun _ => some (w, y.2.1)))
        else (y.2.2.modStrand core w.part w.slot (fun st => st.fill w.lane w.val w.wide w.shadow y.1), x.2)) (s0, none)
      match z.2 with
      | none => .next z.1
      | some (w, a) =>
        let st := s.strand core w.part w.slot
        .next (z.1.gangTrap core st.gang w.part st.index w.lane w.pc .memUncorrectable (BitVec.ofNat 64 a)
          (trapMem 0 .read false).det)

/-! ### Reds and banks (08 R193, 09 R217) -/

/-- Whether the location of a red is uncorrectable (15 R317, 16 R332). -/
def State.redBad (s : State) (r : Red) : Bool :=
  if r.space = 0 then s.lineBad r.addr else (s.core r.core).landBad r.addr (tySize r.ty)

/-- Whether two reds act on one location. -/
def Red.meets (a b : Red) : Bool :=
  a.space == b.space && (a.space == 0 || a.core == b.core) && a.addr < b.addr + tySize b.ty && b.addr < a.addr + tySize a.ty

/-- Whether an earlier red on the location of the `n`-th of a strand comes first: one of its lane, or one of a lower lane of
its pass (07 R174, 08 R193). -/
def State.redHeld (s : State) (k p sl n : Nat) (r : Red) : Bool :=
  ((s.strand k p sl).reds.take n).any (fun q => q.meets r && (q.lane == r.lane || (q.cyc == r.cyc && q.lead == r.lead))) ||
  (s.part k p).strands.any (fun e => e.1 != sl && e.2.reds.any (fun q =>
    q.meets r && q.cyc == r.cyc && q.lead == r.lead && decide (q.lane < r.lane)))

/-- RED_PERFORM (08 R193): the `n`-th red of a strand is performed at its home. -/
def execRedPerform (core part slot n : Nat) (s : State) : Out :=
  let st := s.strand core part slot
  match st.reds[n]? with
  | none => .fault .notEnabled
  | some r =>
    let s1 := s.modStrand core part slot (fun x => { x with reds := x.reds.eraseIdx n })
    if s.redHeld core part slot n r then .fault .notEnabled
    else if s.redBad r then
      .next (s1.gangTrap core st.gang part st.index r.lane r.pc .memUncorrectable r.va (trapMem 0 .atomic false).det)
    else .next (s1.performRed core part slot st.gang r)

/-- The bound of a class of requests at a bank, in cycles (09 R218). -/
def bankBound (cls : Nat) : Nat := if cls = 1 then 4 else if cls = 2 then 8 else if cls = 3 then 16 else if cls = 4 then 32 else 64

/-- Whether a request has been the oldest of its class at its bank for the bound. -/
def BankReq.aged (q : BankReq) (cycle : Nat) : Bool := match q.since with | some c => decide (c + bankBound q.cls ≤ cycle) | none => false

/-- The request that a bank serves next (09 R218): one that has reached its bound first, then the lowest class, then the
oldest. -/
def bankNext (cycle : Nat) (qs : List BankReq) : Option BankReq :=
  let best (l : List BankReq) : Option BankReq := l.foldl (fun (a : Option BankReq) q =>
    match a with | none => some q | some b => if q.cls < b.cls then some q else some b) none
  (best (qs.filter (fun q => q.aged cycle))).orElse (fun _ => best qs)

/-- LANDING_BANK_SERVE (09 R217, R218): a bank serves one of the stores that wait there, one in a cycle, none while the
Landing holds (23 R432). -/
def execLandingBankServe (core bank : Nat) (s : State) : Out :=
  let c := s.core core
  match bankNext s.cycle (c.bankQ.filter (fun q => q.bank == bank)) with
  | none => .fault .notEnabled
  | some q =>
    if 0 < c.hold || Tab.get c.bankAt 0 bank = s.cycle + 1 then .fault .notEnabled
    else .next ((((s.setBankQ core (c.bankQ.erase q)).modCore core (fun x => { x with bankAt := x.bankAt.set 0 bank (s.cycle + 1) }))).serveBank q core)

/-! ### The hang detector (03 R70, R71) -/

/-- HANG_DETECT (03 R70): a lane's count has reached the limit; HANG is raised for its gang. -/
def execHangDetect (core part slot : Nat) (s : State) : Out :=
  let st := s.strand core part slot
  let lim := (s.part core part).hangLimit
  if lim = 0 || st.stopped then .fault .notEnabled
  else match st.lanes.find? (fun l => !l.2.exited && decide (lim ≤ l.2.idle)) with
    | none => .fault .notEnabled
    | some l => .next (s.gangTrap core st.gang part st.index l.1 l.2.pc .hang 0 l.1)

/-- HANGCTL_WRITE (03 R71): a privileged write of a partition's limit. -/
def execHangctlWrite (core part : Nat) (value : Word) (s : State) : Out := .next (s.setHang core part value)

/-! ### The end of a strand (08 R210) -/

/-- Whether an outstanding request of a strand must complete before the strand finishes (08 R210): a bulk packet's source
has been read already, and reads are no stores. -/
def Request.holdsFinish (q : Request) (part slot gang : Nat) : Bool :=
  q.who == .strand part slot && q.job == gang && (q.want == 5 || q.want == 7)

/-- Whether a strand has finished: it issued fret or all its lanes exited, and every access that counts is complete. -/
def State.strandOver (s : State) (k p sl : Nat) : Bool :=
  let st := s.strand k p sl
  (Tab.find (s.part k p).strands sl).isSome && !st.finished && !st.stopped &&
    (st.fret || st.lanes.all (fun l => l.2.exited)) && st.reds.isEmpty && st.spills.isEmpty &&
    !st.results.any (fun r => match r.src with | .figure _ => true | _ => false) &&
    !(s.core k).requests.any (fun q => q.holdsFinish p sl st.gang)

/-- STRAND_FINISH (08 R210, 12 R277): a strand is finished. Strand 0 of the lowest partition supplies the x outputs; a
gang all of whose strands have finished is done; the gang barrier no longer counts the strand. -/
def execStrandFinish (core part slot : Nat) (s : State) : Out :=
  if !s.strandOver core part slot then .fault .notEnabled
  else
    let st := s.strand core part slot
    let s1 := s.modStrand core part slot (fun x => { x with finished := true, active := false })
    let low := match (s.core core).job st.gang with | some j => j.parts.foldl min 3 | none => 0
    let ended := (s1.part core part).strands.all (fun e => e.2.gang != st.gang || e.2.finished)
    let s2 := s1.modJob core st.gang (fun j => { j with
      xout := if st.index = 0 ∧ part = low then (List.range 4).map (fun i => (i, st.getS i)) else j.xout
      done := if ended then part :: j.done else j.done })
    .next (s2.tryGangBarrier core part st.gang)

end Sys2Proof.Machine
end

