-- ==== Sys2Proof/Machine/Events.lean ====
section
/-! DEFINITION. Events: when a slot fires, and when a context takes one (spec 05 R116 to R118, 10 R244 to R252). -/
namespace Sys2Proof.Machine

/-- A waiter's event state. -/
def State.evOf (s : State) (k : Nat) (w : Waiter) : EvState :=
  match w with | .ctx c => (s.ctx k c).ev | .strand p sl => (s.strand k p sl).ev

/-- Change a waiter's event state. -/
def State.modEv (s : State) (k : Nat) (w : Waiter) (f : EvState → EvState) : State :=
  match w with
  | .ctx c => s.modCtx k c (fun x => { x with ev := f x.ev })
  | .strand p sl => s.modStrand k p sl (fun x => { x with ev := f x.ev })

/-- Whether a waiter exists: a context on which a step runs, or a resident strand. -/
def State.isWaiter (s : State) (k : Nat) (w : Waiter) : Bool :=
  match w with
  | .ctx c => (s.ctx k c).running
  | .strand p sl => (Tab.find (s.part k p).strands sl).isSome

/-- The completed generations of the troupe barrier of a context's task (05 R115). -/
def State.tbarCount (s : State) (k c : Nat) : Nat :=
  match (s.ctx k c).task with
  | none => 0
  | some t => (s.task t).places.foldl (fun m e => min m (s.ctx e.1 e.2).tbar) (s.ctx k c).tbar

/-- The condition of a level source but TIMER (10 R245). -/
def State.levelTrue (s : State) (k : Nat) (w : Waiter) (e : EvSlot) : Bool :=
  let thr := e.thr.toNat
  let co := s.core k
  match e.src with
  | 0 => (match w with
    | .ctx c => serialReached (s.tbarCount k c) thr
    | .strand p sl => serialReached ((s.part k p).barrier (s.strand k p sl).gang e.index).count thr)
  | 1 => serialReached (co.chan (e.index % 4)).wm thr
  | 2 => decide (thr ≤ (Tab.get co.counters 0 (e.index / 8)).toNat)
  | 3 => decide (thr ≤ (Tab.get co.mbox 0 e.index).toNat)
  | 6 => (match w with
    | .ctx c => (match (s.ctx k c).task with | some t => decide (thr ≤ (s.task t).mergedN) | none => false)
    | .strand .. => false)
  | 7 => (s.noticeOf e.thr).isSome
  | _ => false

/-- The condition of a TIMER slot (10 R245). -/
def State.timerTrue (s : State) (e : EvSlot) : Bool :=
  e.src == 5 && decide (e.thr.toNat ≤ if e.index = 0 then s.devtime else s.cycle)

/-- A level slot fires once: its pending bit is set in the next cycle, and it is spent (10 R246). A condition already true
when the slot is armed counts as made true in that cycle. -/
def EvState.fire (e : EvState) (j : Nat) : EvState :=
  { e with coming := setBit16 e.coming j true, slots := e.slots.put j { e.slotAt j with spent := true } }

/-- Whether a slot may fire: armed and not spent. -/
def State.mayFire (s : State) (k : Nat) (w : Waiter) (slot : Nat) : Bool :=
  let e := (s.evOf k w).slotAt slot
  decide (slot < 16) && s.isWaiter k w && e.armed && !e.spent

/-- EVENT_FIRE (10 R246): the condition of an armed level slot holds. An edge source is posted by its occurrence. -/
def execEventFire (core : Nat) (who : Waiter) (slot : Nat) (s : State) : Out :=
  if s.mayFire core who slot && s.levelTrue core who ((s.evOf core who).slotAt slot) then
    .next (s.modEv core who (fun e => e.fire slot))
  else .fault .notEnabled

/-- TIMER_SLOT_EXPIRY (10 R245): the named clock has reached the threshold. -/
def execTimerSlotExpiry (core : Nat) (who : Waiter) (slot : Nat) (s : State) : Out :=
  if s.mayFire core who slot && s.timerTrue ((s.evOf core who).slotAt slot) then
    .next (s.modEv core who (fun e => e.fire slot))
  else .fault .notEnabled

/-- EVPOST_WRITE (10 R248): each 1 is an occurrence at a slot armed with SOFT. -/
def execEvpostWrite (core : Nat) (who : Waiter) (value : Word) (s : State) : Out :=
  if s.isWaiter core who then .next (s.modEv core who (fun e => e.postSoft value)) else .fault .notEnabled

/-- The slots that a context can take where it stands, and its resume address (10 R250). -/
def Ctx.takeable (c : Ctx) : BitVec 16 × Word :=
  match c.wait with
  | .twany l resume => (c.ev.ready l, resume)
  | .none => (c.ev.ready c.ev.asyncMask, c.pc)
  | .sync => (c.ev.ready c.ev.asyncMask, c.pc)
  | .released => (c.ev.ready c.ev.asyncMask, c.pc)
  | .tbar _ => (c.ev.ready c.ev.asyncMask, c.pc)
  | _ => (0, 0)

/-- The slot that a context can take in a cycle, and the resume address (10 R250): nothing of its last bundle holds it, and
it has not issued in the cycle. -/
def Core.entry? (co : Core) (cycle ctx : Nat) : Option (Nat × Word) :=
  let c := co.ctx ctx
  let t := c.takeable
  if c.running && !c.stopped && c.preStop.isNone && c.skip.isEmpty && !c.ev.inh && c.issued != cycle + 1 && !co.bundleHeld ctx &&
      !co.jobs.any (fun j => j.ctx == ctx && j.redo) && t.1 != 0 then
    some (lowestBit t.1, t.2) else none

/-- HANDLER_ENTRY (05 R118, 10 R250): a context takes its lowest qualifying slot. -/
def execHandlerEntry (core ctx : Nat) (s : State) : Out :=
  match (s.core core).entry? s.cycle ctx with
  | none => .fault .notEnabled
  | some (j, resume) => .next (s.modCtx core ctx (fun x => { x.enterHandler j resume with issued := s.cycle + 1 }))

end Sys2Proof.Machine
end

