-- ==== Sys2Proof/Machine/Launch.lean ====
section
/-! DEFINITION. Launches, dispatch, steps, spawning, views and the merge tree (spec 14 R294 to R315). -/
namespace Sys2Proof.Machine

/-! ### Steps (14 R297, R298) -/

/-- Whether a task has a step still to start. -/
def Task.moreSteps (t : Task) : Bool := !t.stopStep && decide (t.nextStep < t.numSteps)

/-- Whether a context of a task is free for a step (14 R297). -/
def Ctx.freeFor (c : Ctx) (t : Nat) : Bool :=
  c.task == some t && !c.running && !c.stopped && !c.preSeen && c.preStop.isNone

/-- The context that takes a task's next step: of those free before this cycle the one that became free first, and of those
that became free in one cycle the lowest (14 R297). -/
def State.nextFree (s : State) (t : Nat) : Option (Nat × Nat) :=
  ((s.task t).places.filter (fun e => (s.ctx e.1 e.2).freeFor t && decide ((s.ctx e.1 e.2).freeAt < s.cycle))).foldl
    (fun (m : Option (Nat × Nat)) e => match m with
      | none => some e
      | some b =>
        let x := (s.ctx e.1 e.2).freeAt
        let y := (s.ctx b.1 b.2).freeAt
        if x < y ∨ (x = y ∧ e.2 < b.2) then some e else some b) none

/-- STEP_START (14 R297): the context that became free first takes the next step; a troupe takes it on all its members (14
R301). -/
def execStepStart (core ctx : Nat) (s : State) : Out :=
  match (s.ctx core ctx).task with
  | none => .fault .notEnabled
  | some t =>
    let tk := s.task t
    let free (e : Nat × Nat) : Bool := (s.ctx e.1 e.2).freeFor t
    let ready := tk.moreSteps && (tk.nview == 0 || tk.viewsOk) &&
      (if tk.troupe then tk.places.head? == some (core, ctx) && tk.places.all free
       else s.nextFree t == some (core, ctx))
    if !ready then .fault .notEnabled
    else
      let who := if tk.troupe then tk.places else [(core, ctx)]
      let s1 := who.foldl (fun (x : State) e => x.startStep e.1 e.2 t tk.nextStep) s
      .next (s1.modTask t (fun x => { x with nextStep := x.nextStep + 1, running := x.running + 1, ended := [] }))

/-- Whether the work that a context's step issued has completed, Ferry channels aside (05 R111). -/
def State.stepQuiet (s : State) (k c : Nat) : Bool :=
  (s.ctx k c).results.isEmpty &&
    (s.core k).jobs.all (fun j => j.ctx != c || (match j.kind with | .ferry .. => true | _ => false))

/-- A task none of whose steps runs and that starts no further step has ended: its contexts are released, and a
host-launched task is complete (14 R298, R301). -/
def State.endTask (s : State) (t : Nat) : State :=
  let tk := s.task t
  if tk.running ≠ 0 || tk.moreSteps then s
  else if tk.parent.isSome then s.releaseCtxs t
  else s.completeTask t

/-- STEP_END (05 R111, 14 R298): the waits have ended; the implicit phase.p (11 R259), and the step is counted. A
troupe's step ends when all its members have ended it. -/
def execStepEnd (core ctx : Nat) (s : State) : Out :=
  let c := s.ctx core ctx
  match c.task, c.wait with
  | some t, .stepEnd kind =>
    if !c.running || c.stopped || c.preStop.isSome || !s.stepQuiet core ctx || !s.allMerged t then .fault .notEnabled
    else
      let tk := s.task t
      let s1 := ((s.drainCtx core ctx).publish core).modCtx core ctx (fun x => { x with running := false, wait := .none, freeAt := s.cycle })
      let s2 := s1.modTask t (fun x => { x with
        ended := (core, ctx) :: x.ended, lastCore := core, mergeOk := x.mergeOk || kind == 2
        stepOf := x.stepOf.filter (fun e => !(e.1 == core && e.2.1 == ctx)) })
      if tk.troupe && !tk.places.all (fun e => ((core, ctx) :: tk.ended).contains e) then .next s2
      else .next ((s2.modTask t (fun x => { x with running := x.running - 1 })).endTask t)
  | _, _ => .fault .notEnabled

/-- SYNC_RELEASE (05 R114, 14 R310): every child has merged; each context of the task that waits in sync is released, with
the implicit phase.a, and a new epoch starts. -/
def execSyncRelease (core ctx : Nat) (s : State) : Out :=
  let c := s.ctx core ctx
  match c.task with
  | none => .fault .notEnabled
  | some t =>
    if c.wait ≠ .sync ∨ c.stopped ∨ c.preStop.isSome ∨ !s.allMerged t then .fault .notEnabled
    else
      let who := (s.task t).places.filter (fun e =>
        let y := s.ctx e.1 e.2
        y.wait == .sync && !y.stopped && y.preStop.isNone)
      let s1 := who.foldl (fun (x : State) e => x.snap e.1) (s.releaseSync core t)
      .next (who.foldl (fun (x : State) e => x.modCtx e.1 e.2 (fun y => { y with wait := .released })) s1)

/-! ### The TOPB (14 R294, R295) -/

/-- The bytes of a TOPB; `none` where it cannot be read (14 R295). -/
def State.readTopb (s : State) (asid priv va : Nat) : Option (Memory × State) :=
  match s.spaceXlate asid priv .read va with
  | .error _ => none
  | .ok (pa, s1) =>
    if (List.range 4).any (fun i => s1.lineBad (pa + 64 * i)) then none
    else some ((Memory.writeList [] 0 (s1.mem.readList pa 256)), s1)

/-- Two ranges overlap. -/
def grantsMeet (a la b lb : Nat) : Bool := la != 0 && lb != 0 && decide (a < b + lb) && decide (b < a + la)

/-- The checks of one view declaration (14 R294, R295). -/
def Task.viewBad (t : Task) (v : Nat) : Bool :=
  let land := t.viewSpace v
  let base := t.viewBase v
  let len := t.viewLen v
  let back := t.viewBack v
  t.field (16 + 4 * v) 62 54 != 0 || t.field (17 + 4 * v) 63 31 != 0 || t.field (18 + 4 * v) 63 54 != 0 ||
  (t.mop != 7 && t.field (19 + 4 * v) 63 0 != 0) ||
  base % 128 != 0 || len % 128 != 0 || len == 0 || decide (2 ^ 31 - 128 < len) || back % 128 != 0 ||
  (land && (decide (back < t.lbase) || decide (t.lbase + t.lsize < back + len)))

/-- A grant of Landing lies off the data region (14 R295). -/
def grantBad (base size : Nat) : Bool :=
  base % 128 != 0 || size % 128 != 0 || (size != 0 && (decide (base < 0x1000) || decide (0x800000 < base + size)))

/-- Whether a TOPB is malformed (14 R295). -/
def Task.malformed (t : Task) : Bool :=
  let n := t.nview
  t.field 0 63 54 != 0 || t.field 0 4 0 != 0 || t.field 1 37 0 != 0 || t.field 4 63 60 != 0 || t.field 5 63 32 != 0 ||
  t.field 5 23 20 != 0 || t.field 5 15 3 != 0 || t.field 6 63 54 != 0 || t.field 6 2 0 != 0 || t.field 7 63 0 != 0 ||
  t.nctx == 0 || decide (8 < t.nctx) || (t.troupe && t.nctx != 1) ||
  decide (1024 < t.obuf) || decide (8 < t.accs) || decide (32 < t.strands) ||
  grantBad t.lbase t.lsize || grantBad t.gbase t.gsize ||
  (if t.mop == 7 then decide (t.field 5 31 24 < 0x80) else t.field 5 31 24 != 0) || (n != 0 && t.mop == 0) ||
  decide (4 < n) || (List.range n).any t.viewBad ||
  (List.range (4 - n)).any (fun i => (List.range 4).any (fun w => t.field (16 + 4 * (n + i) + w) 63 0 != 0)) ||
  (List.range n).any (fun a => (List.range a).any (fun b => t.viewSpace a == t.viewSpace b &&
    grantsMeet (t.viewBase a) (t.viewLen a) (t.viewBase b) (t.viewLen b))) ||
  (if t.parent.isSome then t.troupe || t.field 6 53 0 != 0 else n != 0)

/-- The lowest free save area of an address space (16 R348). -/
def Space.freeArea (sp : Space) : Option Nat := (List.range sp.areaCount).find? (fun i => !sp.areas.contains i)

/-- The dies that may start a task: those of its launch's DIEMASK, or the die that has examined it (14 R300, R305). -/
def State.permitted (s : State) (t : Task) (d : Nat) : List Nat :=
  match t.launch with
  | none => [d]
  | some l =>
    let m := (Tab.get s.launches default l).diemask
    (List.range 8).filter (fun i => m == 0 || m / 2 ^ i % 2 == 1)

/-- The cores of a cluster of a die, by member. -/
def clusterCores (d cl : Nat) : List Nat := (List.range 4).map (fun q => memberCore (36 * d + 12 * (cl / 3) + 2 * (cl % 3)) q)

/-- Whether a die has a core, or for a troupe a cluster, that has not failed. -/
def State.dieAlive (s : State) (t : Task) (d : Nat) : Bool :=
  if t.troupe then (List.range 9).any (fun cl => (clusterCores d cl).all (fun k => !(s.core k).failed))
  else (List.range 36).any (fun i => !(s.core (36 * d + i)).failed)

/-- Whether no core of a permitted die could ever provide a task's grants, or its save area is too large (14 R306, 16 R348,
22 R418). -/
def State.neverFits (s : State) (t : Task) (d : Nat) : Bool :=
  decide (1024 < t.nctx * t.obuf) || decide (8 < t.nctx * t.accs) ||
  ((s.space t.asid).areaCount != 0 && decide ((s.space t.asid).areaStride < t.areaSize)) ||
  (s.permitted t d).all (fun i => !s.dieAlive t i)

/-! ### Fitting (14 R301) -/

/-- The lowest base of a free range of `n` bytes of operand buffer beside the ranges taken. -/
def freeObuf (used : List (Nat × Nat)) (n : Nat) : Option Nat :=
  if n = 0 then some 0
  else (((0 :: used.map (fun u => u.1 + u.2)).filter (fun b => decide (b + n ≤ 1048576) &&
      used.all (fun u => decide (u.2 = 0) || decide (b + n ≤ u.1) || decide (u.1 + u.2 ≤ b)))).foldl
    (fun (m : Option Nat) b => match m with | none => some b | some x => some (min x b)) none)

/-- The contexts of a core that hold a task. -/
def Core.taken (c : Core) : List (Nat × Ctx) := c.ctxs.filter (fun e => decide (e.1 < 8) && e.2.task.isSome)

/-- Grant `n` contexts of a core: each its number, operand-buffer base and accumulators. -/
def grantCtxs (n obuf accs : Nat) (free : List Nat) (used : List (Nat × Nat)) (zs : List Nat) : Option (List (Nat × Nat × List Nat)) :=
  match n, free with
  | 0, _ => some []
  | _ + 1, [] => none
  | m + 1, c :: rest =>
    match freeObuf used obuf with
    | none => none
    | some b =>
      if zs.length < accs then none
      else match grantCtxs m obuf accs rest ((b, obuf) :: used) (zs.drop accs) with
        | none => none
        | some r => some ((c, b, zs.take accs) :: r)

/-- The strand slots of a partition that no task has reserved and no gang holds beyond its task's reservation. -/
def Core.openSlots (c : Core) (p : Nat) : Nat :=
  let rs := (c.part p).reserved
  let all := rs.foldl (fun a r => a + r.2) 0
  let tasks := ((c.part p).strands.map (fun e => (c.jobTask e.2.gang).getD 0)).eraseDups
  32 - all - tasks.foldl (fun a u => a + (c.slotsOf p u - (rs.filter (fun r => r.1 == u)).foldl (fun b r => b + r.2) 0)) 0

/-- Whether a task's Landing grants meet no grant of a task that runs or merges on a core. -/
def State.landFree (s : State) (t : Task) (k : Nat) : Bool :=
  s.tasks.all (fun e => e.2.complete || !e.2.started || !e.2.cores.contains k ||
    !(grantsMeet t.lbase t.lsize e.2.lbase e.2.lsize || grantsMeet t.lbase t.lsize e.2.gbase e.2.gsize ||
      grantsMeet t.gbase t.gsize e.2.lbase e.2.lsize || grantsMeet t.gbase t.gsize e.2.gbase e.2.gsize))

/-- The contexts that a task would take on a core, if it fits there (14 R301). -/
def State.fitsCore (s : State) (t : Task) (k n : Nat) : Option (List (Nat × Nat × List Nat)) :=
  let c := s.core k
  let taken := c.taken
  let free := (List.range 8).filter (fun i => !taken.any (fun e => e.1 == i))
  -- operand buffer and accumulators stay granted until their task is complete
  let held := (s.tasks.flatMap (fun e => e.2.grants)).filter (fun g => g.1 == k)
  let used := held.map (fun g => (g.2.1, g.2.2.1))
  let zs := (List.range 8).filter (fun z => !held.any (fun g => g.2.2.2.contains z))
  if c.failed || decide (32 < c.views.length + t.nview) || !s.landFree t k ||
      !(List.range 4).all (fun p => decide (t.strands ≤ c.openSlots p)) then none
  else grantCtxs n (t.obuf * 1024) t.accs free used zs

/-- The place a task would take on a die: its cores and each core's contexts. The core is the lowest-numbered that fits,
or the members of the lowest-numbered cluster (14 R302). -/
def State.fitsDie (s : State) (t : Task) (d : Nat) (only : Option Nat) : Option (List (Nat × List (Nat × Nat × List Nat))) :=
  if (s.space t.asid).freeArea.isNone && t.area.isNone then none
  else if t.troupe then
    (List.range 9).findSome? (fun cl =>
      let ms := clusterCores d cl
      let gs := ms.filterMap (fun k => (s.fitsCore t k 1).map (fun g => (k, g)))
      let at_ : Bool := match only with | none => true | some k => ms.contains k
      if gs.length = 4 && at_ then some gs else none)
  else
    ((List.range 36).map (fun i => 36 * d + i)).findSome? (fun k =>
      if (match only with | none => true | some o => o == k) then (s.fitsCore t k t.nctx).map (fun g => [(k, g)]) else none)

/-- The address that a declared BASE names: the parent's backing where it lies inside a view of the parent (14 R308). -/
def State.sharedBase (s : State) (t : Task) (land : Bool) (a : Nat) : Nat :=
  match t.parent with
  | none => a
  | some p =>
    let q := s.task p
    match (List.range q.nview).find? (fun v => q.viewSpace v == land && decide (q.viewBase v ≤ a) &&
        decide (a < q.viewBase v + q.viewLen v)) with
    | some v => q.viewBack v + (a - q.viewBase v)
    | none => a

/-- The view entries of a task (14 R308). -/
def Task.viewEntries (t : Task) (id : Nat) : List View :=
  (List.range t.nview).map (fun v =>
    ({ task := id, landing := t.viewSpace v, base := t.viewBase v, len := t.viewLen v, back := t.viewBack v, core := t.spawnCore } : View))

/-- A task takes its grants on its cores (14 R301, R308, 16 R348). `mk` gives the state of each context taken. -/
def State.takeGrants (s : State) (id : Nat) (gs : List (Nat × List (Nat × Nat × List Nat)))
    (mk : Nat → Nat → Nat → List Nat → Ctx) : State :=
  let tk := s.task id
  let area := match tk.area with | some i => some i | none => (s.space tk.asid).freeArea
  let s1 := gs.foldl (fun (x : State) g =>
    let x1 := g.2.foldl (fun (y : State) c => y.setCtx g.1 c.1 (mk g.1 c.1 c.2.1 c.2.2)) x
    x1.modCore g.1 (fun c => { c with
      views := c.views ++ tk.viewEntries id
      parts := [0, 1, 2, 3].foldl (fun (ps : Tab Part) p =>
        if tk.strands = 0 then ps
        else ps.put p { Tab.get ps Part.init p with reserved := (id, tk.strands) :: (Tab.get ps Part.init p).reserved }) c.parts })) s
  let s2 := s1.modTask id (fun x => { x with
    grants := gs.flatMap (fun g => g.2.map (fun c => (g.1, c.2.1, x.obuf * 1024, c.2.2)))
    started := true, cores := gs.map Prod.fst, area := area
    places := gs.flatMap (fun g => g.2.map (fun c => (g.1, c.1))), lastCore := (match gs with | g :: _ => g.1 | [] => 0) })
  match tk.area, area with
  | none, some i => s2.modSpace tk.asid (fun sp => { sp with areas := i :: sp.areas })
  | _, _ => s2

/-! ### The dispatcher (14 R302, R303) -/

/-- A head of a die's sources: a saved task, or a task of the spawn pool or of a launch. -/
structure Head where
  kind : Nat                 -- 0 saved, 1 pool, 2 queue
  task : Nat
  queue : Nat
deriving DecidableEq, Repr, Inhabited

/-- Whether the wait of a context of a swapped task can end (16 R441), or a trap waits for its restore (14 R307, R314). -/
def State.swapReady (s : State) (t : Nat) : Bool :=
  let tk := s.task t
  tk.saved.any (fun e => !e.ctx.recs.isEmpty || (if !e.ctx.running then tk.moreSteps else match e.ctx.wait with
    | .spawnPark _ => s.poolRoom tk.die t
    | .sync => s.allMerged t
    | _ => true)) || (s.children t).any (fun c => (s.task c).mstat.isSome)

/-- Whether a saved task is a head of a die: RESTORE has named it, or the device swapped it out and it can go on. -/
def State.savedHead (s : State) (d t : Nat) : Bool :=
  let tk := s.task t
  !tk.saved.isEmpty && !tk.complete && (match tk.restore with
    | some (die, _) => die == d
    | none => tk.swapped && tk.lastCore / 36 == d && s.swapReady t)

/-- The core that alone may take a saved task, if one. -/
def Task.onlyCore (t : Task) : Option Nat :=
  if t.swapped then some t.lastCore
  else match t.restore with
    | some (die, core) => if core < 36 then some (36 * die + core) else none
    | none => none

/-- The oldest launch of a queue, permitted on a die, that has a task to start. -/
def State.queueLaunch (s : State) (d q : Nat) : Option (Nat × Launch) :=
  s.launches.find? (fun e => e.2.queue == q && !e.2.dead && !e.2.complete && decide (e.2.started < e.2.ntask) &&
    (e.2.diemask == 0 || e.2.diemask / 2 ^ d % 2 == 1))

/-- The task of a launch at an index, once a dispatcher has examined it. -/
def State.launchTask (s : State) (l ix : Nat) : Option Nat :=
  (s.tasks.find? (fun e => e.2.launch == some l && e.2.index == ix)).map Prod.fst

/-- The queues in turn, after the one served most recently. -/
def Die.queueOrder (d : Die) : List Nat := (List.range 64).map (fun i => (d.lastQ + 1 + i) % 64)

/-- A dispatcher examines a task: its TOPB is read the first time (14 R295). A TOPB that cannot be read leaves its words
zero, which are malformed too. -/
def State.examine (s : State) (t : Nat) : State :=
  let tk := s.task t
  if !tk.words.isEmpty then s
  else match s.readTopb tk.asid tk.priv tk.topb.toNat with
    | none => s
    | some (m, s1) => s1.modTask t (fun x => { x with words := m })

/-- The dispatcher of a die examines the heads of its queues and of its pool. -/
def State.examineHeads (s : State) (d : Nat) : State :=
  let s1 := (List.range 64).foldl (fun (x : State) q =>
    match x.queueLaunch d q with
    | none => x
    | some (l, la) =>
      match x.launchTask l la.started with
      | some _ => x
      | none =>
        let tk : Task := { Task.init with
          topb := la.topba + BitVec.ofNat 64 (256 * la.started), asid := la.asid, priv := la.priv, pri := la.pri,
          launch := some l, index := la.started, die := d }
        (({ x with tasks := x.tasks.put x.nextTask tk, nextTask := x.nextTask + 1 } : State).examine x.nextTask)) s
  (List.range 8).foldl (fun (x : State) p =>
    match (x.die d).pool.find? (fun t => (x.task t).pri == p) with
    | some t => x.examine t
    | none => x) s1

/-- The heads of a die in the order of R302: by priority; saved tasks, then the pool, then the queues in turn. -/
def State.heads (s : State) (d : Nat) : List Head :=
  (List.range 8).flatMap (fun p =>
    ((s.tasks.filter (fun e => e.2.pri == p && s.savedHead d e.1)).map (fun e => (⟨0, e.1, 0⟩ : Head))) ++
    (match (s.die d).pool.find? (fun t => (s.task t).pri == p) with | some t => [(⟨1, t, 0⟩ : Head)] | none => []) ++
    (s.die d).queueOrder.filterMap (fun q =>
      match s.queueLaunch d q with
      | some (l, la) => if la.pri = p then (s.launchTask l la.started).map (fun t => ⟨2, t, q⟩) else none
      | none => none))

/-- Whether a head is held back by its launch's stagger on a die (14 R303). -/
def State.staggered (s : State) (d : Nat) (h : Head) : Bool :=
  h.kind == 2 && (s.die d).stagger.any (fun e => some e.1 == (s.task h.task).launch)

/-- Whether a head fails as it is examined (14 R306): cause 1 malformed, cause 2 grants beyond any core. -/
def State.headCause (s : State) (d : Nat) (h : Head) : Nat :=
  let tk := s.task h.task
  if h.kind = 0 then 0 else if tk.malformed then 1 else if s.neverFits tk d then 2 else 0

/-- Where a head would start. -/
def State.headFits (s : State) (d : Nat) (h : Head) : Option (List (Nat × List (Nat × Nat × List Nat))) :=
  s.fitsDie (s.task h.task) d (if h.kind = 0 then (s.task h.task).onlyCore else none)

/-- The heads that a die may start now: all but those held by a stagger, or the one that it drains for. -/
def State.openHeads (s : State) (d : Nat) : List Head :=
  ((s.heads d).filter (fun h => !s.staggered d h)).filter (fun h =>
    match (s.die d).drain with | some (k, t) => h.kind == k && h.task == t | none => true)

/-- The head that a die starts next: the first that fits, with the heads passed over before it (14 R302). -/
def State.chooseHead (s : State) (d : Nat) (hs : List Head) : Option (Head × List Head) :=
  match hs with
  | [] => none
  | h :: r =>
    if (s.headFits d h).isSome then some (h, [])
    else match s.chooseHead d r with | none => none | some (x, ps) => some (x, h :: ps)

/-- Count the passed-over heads; the 16th pass of one puts the die into drain mode for it (14 R302). -/
def Die.passOver (d : Die) (started : Head) (ps : List Head) : Die :=
  let p1 := d.passes.filter (fun e => !(e.1 == started.kind && e.2.1 == started.task))
  let bump (l : List (Nat × Nat × Nat)) (h : Head) : List (Nat × Nat × Nat) :=
    let n := match l.find? (fun e => e.1 == h.kind && e.2.1 == h.task) with | some e => e.2.2 | none => 0
    (h.kind, h.task, n + 1) :: l.filter (fun e => !(e.1 == h.kind && e.2.1 == h.task))
  let p2 := ps.foldl bump p1
  { d with
    passes := p2
    drain := (ps.find? (fun h => p2.any (fun e => e.1 == h.kind && e.2.1 == h.task && decide (16 ≤ e.2.2)))).map
      (fun h => (h.kind, h.task)) }

/-- A task that fails before it runs (14 R306). -/
def State.failHead (s : State) (d : Nat) (h : Head) (cause : Nat) : State :=
  if h.kind = 1 then ((s.modDie d (fun x => { x with pool := x.pool.filter (· != h.task) })).leaveHead 1 h.task).failTask h.task cause
  else
    let tk := s.task h.task
    let s1 := s.modTask h.task (fun x => { x with complete := true, failure := true })
    match tk.launch with | some l => s1.failLaunch l cause tk.index | none => s1

/-- The first start of a head at its place: its contexts are taken, and it leaves its source (14 R301 to R305). -/
def State.startHead (s : State) (d : Nat) (h : Head) (gs : List (Nat × List (Nat × Nat × List Nat))) : State :=
  let tk := s.task h.task
  let s1 := ((s.takeGrants h.task gs (fun _ _ b zs => { takenCtx h.task tk b zs with freeAt := s.cycle })).leaveHead h.kind h.task).modTask h.task (fun x => { x with
    die := d, viewsOk := x.nview == 0 })
  if h.kind = 1 then s1.modDie d (fun x => { x with pool := x.pool.filter (· != h.task) })
  else match tk.launch with
    | none => s1
    | some l =>
      let la := Tab.get s1.launches default l
      -- the first task of a launch on a core: the effect of fbar there (22 R426)
      let new := (gs.map Prod.fst).filter (fun k => !la.onCores.contains k)
      let s2 := new.foldl (fun (x : State) k => x.fetchBarrier k) s1
      ({ s2 with launches := s2.launches.put l { la with started := la.started + 1, onCores := new ++ la.onCores } } : State).modDie d (fun x => { x with
        lastQ := h.queue
        stagger := if la.stagger = 0 then x.stagger else (l, s.cycle + la.stagger) :: x.stagger })

/-- TASK_DISPATCH (14 R302): the dispatcher of a die fails a bad head, or starts the first head that fits. A saved task
in that place is taken by TASK_RESTORE. -/
def execTaskDispatch (die : Nat) (s0 : State) : Out :=
  let s := s0.examineHeads die
  let hs := s.openHeads die
  match hs.find? (fun h => s.headCause die h != 0) with
  | some h => .next (s.failHead die h (s.headCause die h))
  | none =>
    match s.chooseHead die hs with
    | none => .fault .notEnabled
    | some (h, ps) =>
      if h.kind = 0 then .fault .notEnabled
      else match s.headFits die h with
        | none => .fault .notEnabled
        | some gs => .next ((s.startHead die h gs).modDie die (fun d => d.passOver h ps))

/-- STAGGER_EXPIRY (14 R303): the next task of a launch may start on a die. -/
def execStaggerExpiry (die launch : Nat) (s : State) : Out :=
  if (s.die die).stagger.any (fun e => e.1 == launch && decide (e.2 ≤ s.cycle)) then
    .next (s.modDie die (fun d => { d with stagger := d.stagger.filter (fun e => !(e.1 == launch && decide (e.2 ≤ s.cycle))) }))
  else .fault .notEnabled

/-! ### Launch records (14 R300, 22 R417) -/

/-- A field of word `w` of a launch record. -/
def launchField (n w hi lo : Nat) : Nat := natField (n / 2 ^ (64 * w)) hi lo

/-- Whether a launch record is malformed (22 R418). -/
def launchBad (n : Nat) : Bool :=
  launchField n 0 63 54 != 0 || launchField n 0 7 0 != 0 || launchField n 1 55 48 != 0 || launchField n 1 31 20 != 0 || launchField n 1 19 0 == 0 ||
  launchField n 2 63 54 != 0 || launchField n 2 2 0 != 0 || launchField n 3 63 9 != 0 ||
  [4, 5, 6, 7].any (fun w => launchField n w 63 0 != 0)

/-- LAUNCH_RECORD_TAKE (22 R417): a record is read at its home, and QHEAD moves on. -/
def execLaunchRecordTake (queue : Nat) (s : State) : Out :=
  let q := s.queue queue
  let c := q.qctl.toNat
  if c / 2 ^ 63 % 2 = 0 ∨ q.qhead = q.qtail then .fault .notEnabled
  else
    let a := natField q.qbase.toNat 47 12 * 4096 + 64 * (q.qhead % 2 ^ natField c 39 35)
    -- a record that cannot be read counts as malformed, and none of its fields acts (log 107)
    let n := if s.lineBad a then 0 else s.mem.read a 64
    let bad := launchBad n
    let la : Launch := {
      queue := queue, topba := BitVec.ofNat 64 (launchField n 0 53 0), diemask := launchField n 1 63 56,
      stagger := launchField n 1 47 32, ntask := launchField n 1 19 0, lctr := BitVec.ofNat 64 (launchField n 2 53 0),
      intr := launchField n 3 8 8 == 1, ivec := launchField n 3 7 0, port := natField c 59 59, asid := natField c 55 40,
      priv := natField c 61 60, pri := natField c 58 56, started := 0, onCores := [], doneN := 0, failed := none, dead := false,
      complete := false }
    let s1 := ({ s with launches := s.launches.put s.nextLaunch la, nextLaunch := s.nextLaunch + 1 } : State).modQueue queue
      (fun x => { x with qhead := (x.qhead + 1) % 2 ^ 32 })
    .next (if bad then s1.failLaunch s.nextLaunch 5 0 else s1)

/-! ### Spawning (14 R305 to R307, 05 R113) -/

/-- Write a condition bit under its name in an awaited answer (05 R113, R118). -/
def Ctx.setCName (c : Ctx) (n : Nat) (v : Bool) : Ctx :=
  if n = 7 ∨ n = 23 then (if c.ev.inh = decide (n = 23) then c.setC 7 v else { c with shC7 := v }) else c.setC n v

/-- SPAWN_ANSWER (05 R113): the die's answer to the context's oldest spawn.nb arrives: the spawn index and a clear condition
bit, or 0 and a set one where the pool was full. -/
def execSpawnAnswer (core ctx : Nat) (s : State) : Out :=
  let c := s.ctx core ctx
  match c.results.find? (fun r => r.spawn.isSome) with
  | none => .fault .notEnabled
  | some r =>
    .next (s.modCtx core ctx (fun x =>
      let y := (({ x with results := x.results.erase r } : Ctx).fillResult r r.value).setCName (r.cbit.getD 0) (r.value == 0)
      { y with late := (64 + r.cbit.getD 0) :: y.late }))

/-- The cores of a die. -/
def dieCores (d : Nat) : List Nat := (List.range 36).map (fun i => 36 * d + i)

/-- The contexts of a die that hold a task, lowest core and context first. -/
def State.dieCtxs (s : State) (d : Nat) : List (Nat × Nat) :=
  (dieCores d).flatMap (fun k => ((List.range 8).filter (fun c => (s.ctx k c).task.isSome)).map (fun c => (k, c)))

/-- The die as it would stand with every task of a parked context saved: contexts and grants free (14 R307). -/
def State.withParkedSaved (s : State) (d : Nat) : State :=
  (s.dieCtxs d).foldl (fun (x : State) e =>
    let c := s.ctx e.1 e.2
    match c.task with
    | some t => if c.parked then ((x.releaseCtxs t).releaseGrants t).modTask t (fun y => { y with cores := [] }) else x
    | none => x) s

/-- A context takes SPAWN_DEADLOCK at its spawn bundle (14 R307). -/
def State.takeDeadlock (s : State) (k c : Nat) : State :=
  let x := s.ctx k c
  match x.wait with
  | .spawnPark slot =>
    ((s.modCtx k c (fun y => { y with wait := .none })).modTask (x.task.getD 0) (fun y => { y with parkedAt := none })).takeTrap k c ⟨0, 0, slot, x.pc, x.cmd, none⟩ .spawnDeadlock 0 0
  | _ => s

/-- The record of SPAWN_DEADLOCK of a context that is swapped out, with which it is restored. -/
def State.savedDeadlock (s : State) (tk : Task) (e : SavedCtx) : SavedCtx :=
  match e.ctx.wait with
  | .spawnPark slot =>
    let r : TrapRec :=
      { cls := .spawnDeadlock, engine := 0, eidx := 0, slot := slot, cmd := e.ctx.cmd, pc := e.ctx.pc, addr := 0,
        status := 0, replay := false, inh := e.ctx.ev.inh, privl := e.ctx.priv, asid := e.ctx.asid,
        ctxid := ctxId tk.lastCore e.c, topb := tk.topb, time := s.devtime, nrec := 0, last := false, inst := none,
        passed := false, seq := none, answer := none, applied := false }
    { e with ctx := { e.ctx with wait := .none, stopped := true, recs := e.ctx.recs ++ [r] } }
  | _ => e

/-- SPAWN_DEADLOCK_DETECT (14 R307). -/
def execSpawnDeadlockDetect (die : Nat) (s : State) : Out :=
  let cs := s.dieCtxs die
  let swapped := s.tasks.filter (fun e => e.2.swapped && e.2.die == die && e.2.saved.any (fun x => x.ctx.parked))
  let anyParked := cs.any (fun e => (s.ctx e.1 e.2).parked) || !swapped.isEmpty
  let allWait := cs.all (fun e => (s.ctx e.1 e.2).parked || (s.ctx e.1 e.2).wait == .sync)
  let w := s.withParkedSaved die
  let fits (t : Nat) : Bool :=
    let z := w.examine t
    (z.task t).malformed || z.neverFits (z.task t) die || (z.fitsDie (z.task t) die none).isSome
  if (s.die die).pool.length < poolSize || !anyParked || !allWait || (s.die die).pool.any fits then .fault .notEnabled
  else
    let s1 := cs.foldl (fun (x : State) e => x.takeDeadlock e.1 e.2) s
    .next (swapped.foldl (fun (x : State) e =>
      x.modTask e.1 (fun t => { t with saved := t.saved.map (fun y => s.savedDeadlock e.2 y), parkedAt := none })) s1)

/-! ### Views (14 R308, R309) -/

/-- The identity of a merge operator, as 8 bytes (14 R309). -/
def identOf (mop : Nat) (ident : Nat) : Nat :=
  match mop with
  | 1 => 0x8000000080000000
  | 2 => 0x8000000000000000
  | 3 => 0xFF800000FF800000
  | 4 => 0x7F8000007F800000
  | 5 => 0xFFF0000000000000
  | 6 => 0x7FF0000000000000
  | _ => ident

/-- A 128-byte granule of a task's address: where it stands, or the cause that MERGE reports (1 PAGE,
2 MEM_UNCORRECTABLE). Landing addresses are those of core `k`. -/
inductive Granule where
  | global (pa : Nat)
  | landing (core off : Nat)
deriving DecidableEq, Repr, Inhabited

/-- Find a granule, for reading or for reading and writing. -/
def State.granule (s : State) (tk : Task) (land : Bool) (k a : Nat) (acc : Access) : Except Nat (Granule × State) :=
  if land then
    match landingPlace k a with
    | none => .error 1
    | some (m, off) => .ok (.landing m off, s)
  else match s.spaceXlate tk.asid tk.priv acc a with
    | .error 0 => .error 2
    | .error _ => .error 1
    | .ok (pa, s1) => .ok (.global pa, s1)

/-- The bytes of a granule; `none` where it is uncorrectable. -/
def State.granuleRead (s : State) (g : Granule) : Option (List Byte) :=
  match g with
  | .global pa => if s.lineBad pa || s.lineBad (pa + 64) then none else some (s.mem.readList pa 128)
  | .landing m off => if (s.core m).landBad off 128 then none else some ((s.core m).landing.readList off 128)

/-- Commit a granule in one step (14 R312): a global one arrives at its home, and enters the write set of the core that runs
the merge (11 R266). -/
def State.granuleWrite (s : State) (k : Nat) (g : Granule) (bs : List Byte) : State :=
  match g with
  | .global pa => s.homeStore k pa bs
  | .landing m off => s.modCore m (fun c => c.landWrite off bs)

/-- Fill `n` granules of a backing with an identity; `none` where one cannot be written (14 R309). -/
def State.fillView (s : State) (tk : Task) (land : Bool) (k a n : Nat) (bs : List Byte) : Option State :=
  match n with
  | 0 => some s
  | m + 1 =>
    match s.granule tk land k a .write with
    | .error _ => none
    | .ok (g, s1) => (s1.granuleWrite k g bs).fillView tk land k (a + 128) m bs

/-- VIEW_FILL (14 R309): the merge unit fills every backing of a child; a child whose backing cannot be written fails. -/
def execViewFill (task : Nat) (s : State) : Out :=
  let tk := s.task task
  if !tk.started || tk.complete || tk.viewsOk || !tk.saved.isEmpty then .fault .notEnabled
  else
    let r := (List.range tk.nview).foldl (fun (x : Option State) v =>
      match x with
      | none => none
      | some y =>
        y.fillView tk (tk.viewSpace v) tk.lastCore (tk.viewBack v) (tk.viewLen v / 128)
          ((List.range 16).flatMap (fun _ => bytesOf 8 (identOf tk.mop (tk.field (19 + 4 * v) 63 0))))) (some s)
    match r with
    | none => .next (s.failTask task 1)
    | some s1 => .next (s1.modTask task (fun x => { x with viewsOk := true }))

/-! ### The merge tree (14 R310 to R315) -/

/-- The lowest set bit of a number, as a value. -/
def lowBit (k : Nat) : Nat := ((List.range 13).find? (fun m => k / 2 ^ m % 2 == 1)).elim 0 (fun m => 2 ^ m)

/-- A child's position in its epoch (14 R310). -/
def Task.position (t : Task) : Nat := t.spawnIx + 1 - t.epochOf

/-- The child at a position of the epoch of a child. -/
def State.sibling (s : State) (tk : Task) (pos : Nat) : Option (Nat × Task) :=
  s.tasks.find? (fun e => e.2.parent == tk.parent && e.2.parent.isSome && e.2.epochOf == tk.epochOf && e.2.position == pos)

/-- Whether the epoch of a child is sealed (14 R311): it has been released, its parent has ended, or every context of the
parent that holds a step, or could take one, waits in sync or ends its step. -/
def State.epochSealed (s : State) (tk : Task) : Bool :=
  match tk.parent with
  | none => true
  | some p =>
    let q := s.task p
    let waits (c : Ctx) : Bool :=
      (match c.wait with | .sync => true | .stepEnd _ => true | _ => false) || (!c.running && !q.moreSteps)
    q.complete || q.epoch != tk.epochOf ||
      (if q.saved.isEmpty then q.places.all (fun e => (s.ctx e.1 e.2).task != some p || waits (s.ctx e.1 e.2))
       else q.saved.all (fun e => waits e.ctx))

/-- Whether every tree child of a child has merged, those not spawned being impossible (14 R311). -/
def State.treeDone (s : State) (tk : Task) : Bool :=
  let k := tk.position
  (List.range 12).all (fun m =>
    decide (lowBit k ≤ 2 ^ m) || (match s.sibling tk (k + 2 ^ m) with
      | none => s.epochSealed tk
      | some e => e.2.merged))

/-- The tree children of a position below another that have not merged hold it back. -/
def State.lowerDone (s : State) (tk : Task) (tgt pos : Nat) : Bool :=
  (List.range 12).all (fun m =>
    decide (pos ≤ tgt + 2 ^ m) || (tgt != 0 && decide (lowBit tgt ≤ 2 ^ m)) ||
    (match s.sibling tk (tgt + 2 ^ m) with | none => true | some e => e.2.merged))

/-- The target of a child: its number, or `some none` for the parent; `none` while a lower tree child of a target holds
it back. A failed target is replaced by its own target (14 R311). `fuel` bounds the chain. -/
def State.mergeTarget (s : State) (tk : Task) (pos fuel : Nat) : Option (Option Nat) :=
  match fuel with
  | 0 => none
  | f + 1 =>
    let tgt := pos - lowBit pos
    if !s.lowerDone tk tgt pos then none
    else if tgt = 0 then some none
    else match s.sibling tk tgt with
      | none => none
      | some e => if e.2.failedC then s.mergeTarget tk tgt f else some (some e.1)

/-- Whether a child has ended with merge. -/
def Task.endedMerge (t : Task) : Bool := t.mergeOk && t.running == 0 && !t.moreSteps

/-- Whether two children declare the same views (14 R311). -/
def sameViews (a b : Task) : Bool :=
  a.mop == b.mop && a.nview == b.nview && (List.range a.nview).all (fun v =>
    a.viewSpace v == b.viewSpace v && a.viewBase v == b.viewBase v && a.viewLen v == b.viewLen v)

/-- Combine two granules element by element, target first (14 R311). -/
def mergeOp (mop : Nat) (t src : List Byte) : List Byte × NFlags :=
  let wide := mop == 2 || mop == 5 || mop == 6
  let ty := if wide then 0x0F else 0x0E
  let n := if wide then 8 else 4
  let op := if mop == 1 || mop == 2 then 0 else if mop == 3 || mop == 5 then 2 else 1
  (List.range (128 / n)).foldl (fun (x : List Byte × NFlags) i =>
    let r := atomVal op ty (numOf ((t.drop (n * i)).take n)) (numOf ((src.drop (n * i)).take n))
    (x.1 ++ bytesOf n r.1, x.2 ||| r.2)) ([], 0)

/-- A merge stops (14 R314): its status word waits for the parent. -/
def State.stopMerge (s : State) (t : Nat) (tgt : Option Nat) (cause side : Nat) : State :=
  let tk := s.task t
  let status := cause * 2 ^ 60 + side * 2 ^ 59 + tk.mview * 2 ^ 57 + tk.spawnIx * 2 ^ 45 +
    (match tgt with | none => 0 | some u => (s.task u).spawnIx) * 2 ^ 33 + tk.mgran
  s.modTask t (fun x => { x with mstop := true, mstat := some (BitVec.ofNat 64 status), minst := none })

/-- The flags that a merge carries go to its target: into every context of the parent, or with the target child's views
(14 R311, log 31). -/
def State.carryFlags (s : State) (t : Nat) (tgt : Option Nat) (fl : NFlags) : State :=
  match tgt with
  | some u => s.modTask u (fun x => { x with flags := x.flags ||| fl })
  | none =>
    match (s.task t).parent with
    | none => s
    | some p =>
      let q := s.task p
      if q.saved.isEmpty then q.places.foldl (fun (x : State) e =>
        if (x.ctx e.1 e.2).task = some p then x.orFlags e.1 e.2 fl else x) s
      else s.modTask p (fun x => { x with savedFlags := x.savedFlags ||| fl })

/-- A child has merged: it is complete, and its parent counts it (14 R304, R311). -/
def State.mergeDone (s : State) (t : Nat) : State :=
  let s1 := (s.modTask t (fun x => { x with merged := true })).completeTask t
  match (s.task t).parent with
  | none => s1
  | some p => s1.modTask p (fun x => { x with mergedN := x.mergedN + 1 })

/-- A granule is committed with its flags; after the last the merge is complete (14 R311). -/
def State.commitGranule (s : State) (t : Nat) (g : Granule) (bs : List Byte) (fl : NFlags) : State :=
  let tk := s.task t
  let s1 := s.granuleWrite tk.lastCore g bs
  let next := (tk.mgran + 1) * 128 == tk.viewLen tk.mview
  s1.modTask t (fun x => { x with
    flags := x.flags ||| fl, minst := none
    mview := if next then x.mview + 1 else x.mview, mgran := if next then 0 else x.mgran + 1 })

/-- The pseudo-context for which the routine of a merge runs (14 R313): its number on the child's last core. -/
def mergeCtx (t : Nat) : Nat := 16 + t

/-- Whether the entry of MFIG can run as a merge routine (14 R313). -/
def mergeRoutineOk (e : Nat) : Bool :=
  entryKind e == 2 && entryGang e == 1 && (List.range 4).all (fun j => natField (entryRole e j) 7 6 == 3) &&
    decide (2 ≤ natField e 115 104)

/-- The routine of a merge begins on a granule: both sides go to the scratch, and its instance is issued (14 R313). -/
def State.startMergeRoutine (s : State) (t n e : Nat) (tb sb : List Byte) : State :=
  let tk := s.task t
  let k := tk.lastCore
  let u := natField e 115 104 * 128
  let s1 := s.modCore k (fun c => c.landWrite tk.gbase (tb ++ sb))
  let s2 := s1.setCtx k (mergeCtx t) { Ctx.init with task := some t, pri := tk.pri, priv := tk.priv, asid := tk.asid }
  let job (id : Nat) : Job :=
    { id := id, ctx := mergeCtx t, task := t, kind := .routine n e, parts := [0], ops := [.none, .none, .none, .none],
      reads := [], writes := [], tcrs := [], atys := [], foot := [⟨true, tk.gbase, tk.gbase + u - 1, true, 4⟩], started := false,
      readDone := false, err := false, scope := 0, restarts := 0, copied := [], spoiled := [], scratch := u, gangs := [],
      done := [], xout := [], slotNo := 7, pc := 0, cmd := 0, parent := none, byStrand := 0, rdv := false, rdvNo := 0, kstart := 0, killed := false, redo := false }
  (s2.addJob k job).modTask t (fun x => { x with minst := some (s.core k).nextJob })

/-- The pseudo-context of a merge goes. -/
def State.dropMergeCtx (s : State) (k t : Nat) : State := s.modCore k (fun c => { c with ctxs := c.ctxs.erase (mergeCtx t) })

/-- Where the save area of a task holds a granule of its Landing or scratch grant on a core, while the task is saved (16 R349,
log 112). -/
def State.savedLanding (s : State) (t k a : Nat) : Option Nat :=
  let tk := s.task t
  if tk.saved.isEmpty then none
  else match (List.range tk.places.length).find? (fun i => tk.hasLanding i && (tk.places.getD i (0, 0)).1 == k) with
    | none => none
    | some i =>
      if tk.lbase ≤ a ∧ a + 128 ≤ tk.lbase + tk.lsize then some (s.partBase t i + tk.landOff + (a - tk.lbase))
      else if tk.gbase ≤ a ∧ a + 128 ≤ tk.gbase + tk.gsize then some (s.partBase t i + tk.scratchOff + (a - tk.gbase))
      else none

/-- A granule of the target of a merge: of `owner`'s Landing where it is saved, its save area has it. -/
def State.ownedGranule (s : State) (owner : Nat) (tk : Task) (land : Bool) (k a : Nat) : Except Nat (Granule × State) :=
  match (if land then s.savedLanding owner k a else none) with
  | some pa => .ok (.global pa, s)
  | none => s.granule tk land k a .atomic

/-- Where the target granule of a merge stands: the target child's backing, or the shared range (14 R308, R311). -/
def State.targetGranule (s : State) (t : Nat) (tgt : Option Nat) : Except Nat (Granule × State) :=
  let tk := s.task t
  let land := tk.viewSpace tk.mview
  let off := 128 * tk.mgran
  match tgt with
  | some u => let q := s.task u; s.ownedGranule u q land q.lastCore (q.viewBack tk.mview + off)
  | none => s.ownedGranule (tk.parent.getD 0) tk land tk.spawnCore (s.sharedBase tk land (tk.viewBase tk.mview + off))

/-- One granule of a merge, or its stop (14 R311 to R314). -/
def State.mergeStep (s : State) (t : Nat) (tgt : Option Nat) : State :=
  let tk := s.task t
  match s.granule tk (tk.viewSpace tk.mview) tk.lastCore (tk.viewBack tk.mview + 128 * tk.mgran) .read with
  | .error c => s.stopMerge t tgt c 0
  | .ok (sg, s1) =>
    match s1.granuleRead sg with
    | none => s.stopMerge t tgt 2 0
    | some sb =>
      match s1.targetGranule t tgt with
      | .error c => s.stopMerge t tgt c 1
      | .ok (tg, s2) =>
        match s2.granuleRead tg with
        | none => s.stopMerge t tgt 2 1
        | some tb =>
          if tk.mop = 7 then
            let n := tk.field 5 31 24
            let e := s.figEntry tk.asid n
            if mergeRoutineOk e && decide (natField e 115 104 * 128 ≤ tk.gsize) then s2.startMergeRoutine t n e tb sb
            else s.stopMerge t tgt 4 0
          else
            let r := mergeOp tk.mop tb sb
            s2.commitGranule t tg r.1 r.2

/-- The routine of a merge has ended: its granule is committed, or its trap stops the merge (14 R313, R314). `none` while
it runs. -/
def State.mergeRoutineStep (s : State) (t : Nat) (tgt : Option Nat) (id : Nat) : Option State :=
  let k := (s.task t).lastCore
  match (s.core k).job id with
  | some j => if j.err then some ((((s.removeGangs k id).dropJob k id).dropMergeCtx k t).stopMerge t tgt 4 0) else none
  | none =>
    let fl := (s.ctx k (mergeCtx t)).numflags
    let bs := (s.core k).landing.readList (s.task t).gbase 128
    let s1 := s.dropMergeCtx k t
    match s1.targetGranule t tgt with
    | .error c => some (s1.stopMerge t tgt c 1)
    | .ok (g, s2) => some (s2.commitGranule t g bs fl)

/-- The intervals that a merge declares: the backing of each view, and its target there (11 R263). A Landing target on another
core is in no interval of the child's. -/
def State.mergeFoot (s : State) (t : Nat) (tgt : Option Nat) : List Interval :=
  let tk := s.task t
  (List.range tk.nview).flatMap (fun v =>
    let land := tk.viewSpace v
    let n := tk.viewLen v - 1
    let at_ := match tgt with
      | some u => ((s.task u).lastCore, (s.task u).viewBack v)
      | none => (tk.spawnCore, s.sharedBase tk land (tk.viewBase v))
    ⟨land, tk.viewBack v, tk.viewBack v + n, false, 4⟩ ::
      (if !land || at_.1 == tk.lastCore then [⟨land, at_.2, at_.2 + n, true, 4⟩] else []))

/-- Whether a job that the child issued and that is still outstanding holds its merge (11 R264). -/
def State.mergeHeld (s : State) (t : Nat) (tgt : Option Nat) : Bool :=
  (s.core (s.task t).lastCore).jobs.any (fun j => j.task == t && j.foot.any (fun g =>
    (s.mergeFoot t tgt).any (fun f => g.overlaps f && (g.wr || (f.wr && !j.readDone)))))

/-- CHILD_MERGE (14 R310 to R314): the merge unit goes on with a child's merge by one granule, or completes it. A failed
child, and one whose parent was aborted, counts as merged with no effect. -/
def execChildMerge (task : Nat) (s : State) : Out :=
  let tk := s.task task
  match tk.parent with
  | none => .fault .notEnabled
  | some p =>
    if tk.merged then .fault .notEnabled
    else if tk.failedC then
      if s.treeDone tk then
        .next ((s.modTask task (fun x => { x with merged := true })).modTask p (fun x => { x with mergedN := x.mergedN + 1 }))
      else .fault .notEnabled
    else if !tk.endedMerge || tk.mstop then .fault .notEnabled
    else if (s.task p).failure then .next ((s.modTask task (fun x => { x with merged := true })).completeTask task)
    else if !s.treeDone tk then .fault .notEnabled
    else match s.mergeTarget tk tk.position 13 with
      | none => .fault .notEnabled
      | some tgt =>
        let ready : Bool := match tgt with
          | none => true
          | some u => (s.task u).started && (s.task u).viewsOk && !(s.task u).failure
        if !ready then .fault .notEnabled
        else match tk.minst with
          | some id => (match s.mergeRoutineStep task tgt id with | some s1 => .next s1 | none => .fault .notEnabled)
          | none =>
            if s.mergeHeld task tgt then .fault .notEnabled
            else if tk.nview ≤ tk.mview then .next ((s.carryFlags task tgt tk.flags).mergeDone task)
            else if (match tgt with
                | some u => tk.mview == 0 && tk.mgran == 0 && !sameViews tk (s.task u)
                | none => false) then .next (s.stopMerge task tgt 3 1)
            else .next (s.mergeStep task tgt)

end Sys2Proof.Machine
end

