-- ==== Sys2Proof/Machine/Fabric.lean ====
section
/-! DEFINITION. The Causeway: routes, packets, tags, combining, circuits, reduction slots and remote queues (spec 19). -/
namespace Sys2Proof.Machine

/-! ### Routes (19 R370, R371) -/

/-- A torus coordinate of a peer in dimension 0, 1 or 2, and the size of the torus there. -/
def peerCoord (n d : Nat) : Nat := n / 2 ^ (4 * d) % 16
def Fabric.torusSize (f : Fabric) (d : Nat) : Nat := f.cwdim / 2 ^ (4 * d) % 16 + 1

/-- The direction a packet of this device takes to a peer: the first dimension that differs, the shorter way, + on a
tie. -/
def Fabric.direction (f : Fabric) (dst : Nat) : Option Nat :=
  ([0, 1, 2].find? (fun d => peerCoord f.peer d != peerCoord dst d)).map (fun d =>
    let n := f.torusSize d
    let up := (peerCoord dst d + n - peerCoord f.peer d) % n
    if up ≤ n - up then 2 * d else 2 * d + 1)

/-- Whether the first link in a direction crosses the dateline of its dimension (19 R371). -/
def Fabric.crossesDateline (f : Fabric) (dir : Nat) : Bool :=
  let x := peerCoord f.peer (dir / 2)
  if dir % 2 = 0 then x + 1 == f.torusSize (dir / 2) else x == 0

/-- The Causeway port that a packet leaves through: among the links of its direction that are up (19 R371, log 22). -/
def Fabric.portFor (f : Fabric) (p : Packet) : Option Nat :=
  match f.direction p.dst with
  | none => none
  | some dir =>
    let ups := ([dir, dir + 6, dir + 12]).filter (fun k => (Tab.find f.links k).isSome)
    if ups.isEmpty then none
    else
      let ix := if p.ptype = 0 then Config.bulkHash p.src p.dst p.tag else p.src + p.dst
      ups[ix % ups.length]?

/-- The data flits of a packet (19 R372). -/
def pktNdata (p : Packet) : Nat := (p.data.length + 127) / 128

/-- Whether a packet goes to a core of its destination: bulk data, mailbox sends, and what answers a core (19 R372). -/
def pktToCore (p : Packet) : Bool := [0, 1, 3, 5, 6, 7, 9, 14, 15].contains p.ptype

/-- The port router of a slot operation (19 R384). -/
def pktSlotRouter (p : Packet) : Nat := if p.ptype = 8 then fieldNat p.value 12 12 else fieldNat p.addr 12 12

/-- A packet waits at a router output (19 R374). -/
def State.queueAt (s : State) (r out dl : Nat) (p : Packet) : State :=
  { s with fabric := { s.fabric with
      transit := s.fabric.transit ++ [⟨r, out, 2 * p.vclass + dl, 1 + pktNdata p, s.fabNow, p⟩] } }

/-- A packet is delivered to an endpoint of this device. -/
def State.deliverPkt (s : State) (p : Packet) : State :=
  { s with fabric := { s.fabric with arrived := s.fabric.arrived ++ [p] } }

/-- A packet stands at a port router: it leaves through a Causeway port, crosses to the other I/O die, goes down to the
die of its core, or is delivered. A packet whose direction has no link that is up is lost. -/
def State.atPort (s : State) (r : Nat) (p : Packet) : State :=
  let f := s.fabric
  if p.dst ≠ f.peer then
    match f.portFor p with
    | none => s
    | some k =>
      if k / 9 = r - 8 then s.queueAt r (k % 9) (bit (f.crossesDateline (k % 6))) p else s.queueAt r 17 0 p
  else if pktToCore p then s.queueAt r (9 + coreDie p.dcore % 8) 0 p
  else if [8, 10, 12].contains p.ptype && (pktSlotRouter p) != r - 8 then s.queueAt r 17 0 p
  else s.deliverPkt p

/-- A packet leaves a die router for the I/O die of its route; one for the own device turns around at IOD0 (08 R203, log
33). -/
def State.upFrom (s : State) (die : Nat) (p : Packet) : State :=
  let iod := match s.fabric.portFor p with | some k => k / 9 | none => 0
  s.queueAt die (9 + iod) 0 p

/-- A packet goes on from a router. -/
def State.routeOn (s : State) (r : Nat) (p : Packet) : State := if r < 8 then s.upFrom r p else s.atPort r p

/-! ### Combining (19 R383) -/

/-- Whether a request is an integer ratom.add. -/
def pktCombinable (p : Packet) : Bool := p.ptype == 4 && p.aux / 32 == 0 && [0x06, 0x07, 0x0A, 0x0B].contains (p.aux % 32)

/-- Whether two requests may combine. -/
def pktSameTarget (p q : Packet) : Bool :=
  p.dst == q.dst && p.tenant == q.tenant && p.addr == q.addr && p.aux == q.aux

/-- A packet enters a router on its way to its destination: a request that can combine joins the one held, or is held
itself while the buffer has room. -/
def State.enterRouter (s : State) (r : Nat) (p : Packet) : State :=
  let f := s.fabric
  if !(pktCombinable p) || f.cwcomb == 0 then s.routeOn r p
  else
    let here (c : Combined) : Bool := c.router == r && (match c.members with | q :: _ => pktSameTarget q p | [] => false) &&
      decide (c.members.length < 16)
    match f.combine.findIdx? here with
    | some i =>
      { s with fabric := { f with combine := (List.range f.combine.length).map (fun j =>
          let c := f.combine.getD j ⟨0, 0, []⟩
          if j = i then { c with members := c.members ++ [p] } else c) } }
    | none =>
      if 64 ≤ (f.combine.filter (fun c => c.router == r)).length then s.routeOn r p
      else { s with fabric := { f with combine := f.combine ++ [⟨r, s.fabNow, [p]⟩] } }

/-- COMBINE_RELEASE (19 R383): the `n`-th held request of a router leaves after its window, or full, as one request under
a tag of the router's own. -/
def execCombineRelease (router n : Nat) (s : State) : Out :=
  let f := s.fabric
  let cs := f.combine.filter (fun c => c.router == router)
  match cs[n]? with
  | none => .fault .notEnabled
  | some c =>
    if s.fabNow < c.start + f.cwcomb && c.members.length < 16 then .fault .notEnabled
    else
      let s1 : State := { s with fabric := { f with combine := f.combine.erase c } }
      match c.members with
      | [] => .next s1
      | [p] => .next (s1.routeOn router p)
      | p :: r =>
        let t := 1024 + ((List.range (f.merged.length + 1)).find? (fun i => !f.merged.any (fun m => m.1 == 1024 + i))).getD 0
        let w := tyW (p.aux % 32)
        let sum := (p :: r).foldl (fun a q => a + q.value.toNat) 0 % 2 ^ w
        let one : Packet := { p with tag := t, gen := 0, value := BitVec.ofNat 64 sum }
        .next (({ s1 with fabric := { s1.fabric with merged := (t, p :: r) :: s1.fabric.merged } } : State).routeOn router one)

/-- The replies to the members of a combined request, whose members may be combined requests themselves; `fuel` bounds
the depth. -/
def Fabric.memberReplies (f : Fabric) (reply : Packet) (fuel : Nat) : List Packet :=
  match fuel with
  | 0 => []
  | n + 1 =>
    if reply.tag < 1024 then [reply]
    else match f.merged.find? (fun m => m.1 == reply.tag) with
      | none => []
      | some m =>
        (m.2.foldl (fun (x : List Packet × Nat) q =>
          let w := tyW (q.aux % 32)
          let one : Packet := { reply with tag := q.tag, gen := q.gen, dcore := q.dcore, value := BitVec.ofNat 64 (x.2 % 2 ^ w) }
          (x.1 ++ f.memberReplies one n, x.2 + q.value.toNat)) ([], reply.value.toNat)).1

/-! ### Peers and tenants (19 R380) -/

/-- A bit of a 512-byte map in memory. -/
def State.mapBit (s : State) (base n : Nat) : Bool := s.mem.read (base + n / 8) 1 / 2 ^ (n % 8) % 2 == 1

/-- Whether an address space may reach a peer. -/
def State.peerOk (s : State) (asid n : Nat) : Bool :=
  let pm := (s.space asid).peermap
  n == s.fabric.peer || (pm.toNat % 2 == 1 && s.mapBit (fieldNat pm 47 9 * 512) n &&
    s.mapBit (fieldNat s.fabric.peerlive 47 9 * 512) n)

/-- The lowest address space of a tenant. A space that nothing has set has tenant 0. -/
def State.tenantSpace (s : State) (tenant : Nat) : Option Nat :=
  let listed := (s.spaces.filter (fun e => e.2.tenant.toNat == tenant)).map Prod.fst
  let free := if tenant = 0 then ((List.range (s.spaces.length + 1)).find? (fun a => (Tab.find s.spaces a).isNone)).toList else []
  (listed ++ free).foldl (fun (m : Option Nat) a => match m with | none => some a | some b => some (min a b)) none

/-! ### Tags and requests (19 R381, R382) -/

/-- A free tag of a core: not outstanding, and not resting after a timeout. -/
def Core.freeTag (c : Core) : Option Nat :=
  (List.range 1024).find? (fun t => !c.requests.any (fun q => q.tag == t) && !c.coolTags.any (fun e => e.1 == t))

/-- The mark of a request that waits for a tag, or for its next try. -/
def noTag : Nat := 0xFFFF

/-- Give a waiting request a tag and send it. -/
def State.sendWith (s : State) (k : Nat) (q : Request) (t : Nat) : State :=
  let g := (Tab.get (s.core k).tags 0 t + 1) % 16
  let p : Packet := { q.pkt with tag := t, gen := g }
  let q1 : Request := { q with tag := t, gen := g, sent := s.devtime, pkt := p, backoff := none }
  let s1 := s.modCore k (fun c => { c with
    tags := c.tags.put t g, requests := c.requests.map (fun x => if x = q then q1 else x) })
  if p.circ = 0 then s1.enterRouter (coreDie k) p
  else
    -- circuit flits enter at the cluster port of the issuing core (19 R376)
    -- one in each fabric cycle (log 22)
    let f := s1.fabric
    let port := (f.cflits ++ f.cflight).filter (fun c => c.router == coreDie k && c.inp == coreCluster k)
    let start := port.foldl (fun m c => max m (c.at_ + 1)) s.cwcyc
    { s1 with fabric := { f with cflight := f.cflight ++ (List.range (pktNdata p + 1)).map (fun i =>
        ⟨coreDie k, coreCluster k, p.circ, start + i, i == pktNdata p, p⟩) } }

/-- Send the requests of a core that wait for a tag, oldest first, while tags are free. `fuel` bounds them. -/
def State.sendWaiting (s : State) (k fuel : Nat) : State :=
  match fuel with
  | 0 => s
  | n + 1 =>
    match (s.core k).requests.find? (fun q => q.tag == noTag && q.backoff.isNone), (s.core k).freeTag with
    | some q, some t => (s.sendWith k q t).sendWaiting k n
    | _, _ => s

/-- A new request of a core, which gets the core's next request number: it is sent as soon as a tag is free (19 R381). -/
def State.request (s : State) (k : Nat) (q : Request) : State :=
  (s.modCore k (fun c => { c with
    requests := c.requests ++ [{ q with id := c.nextReq, tag := noTag, backoff := none }]
    nextReq := c.nextReq + 1 })).sendWaiting k 1

/-- A request ends, and its tag is free. -/
def State.endRequest (s : State) (k : Nat) (q : Request) : State :=
  (s.modCore k (fun c => { c with requests := c.requests.erase q })).sendWaiting k 1

/-- TIMED_OUT_TAG_RELEASE (19 R381): a tag has rested for 2 × CWTMO. -/
def execTimedOutTagRelease (core tag : Nat) (s : State) : Out :=
  if (s.core core).coolTags.any (fun e => e.1 == tag && decide (e.2 ≤ s.devtime)) then
    .next ((s.modCore core (fun c => { c with coolTags := c.coolTags.filter (fun e => e.1 != tag) })).sendWaiting core 1)
  else .fault .notEnabled

/-! ### The requester's side (19 R382, 08 R203) -/

/-- The outstanding result of a lane that a request fills. -/
def State.requestResult (s : State) (k : Nat) (q : Request) : Option (Nat × Nat × LaneResult) :=
  match q.who with
  | .ctx _ => none
  | .strand p sl => ((s.strand k p sl).results.find? (fun r => r.src == .fabric q.id || r.src == .enqueue q.id)).map (fun r => (p, sl, r))

/-- A notice of a fabric trap whose gang has gone: a stop of its own that stops no context (19 R382). -/
def State.fabricNotice (s : State) (k : Nat) (q : Request) (cls : TrapClass) (addr : Word) (det : Nat) : State :=
  let j := (s.core k).job q.job
  let c := q.ctxid % 8
  let x := s.ctx k c
  let r : TrapRec :=
    { cls := cls, engine := 6, eidx := 0, slot := (match j with | some j => j.slotNo | none => 7),
      cmd := (match j with | some j => j.cmd | none => 0), pc := (match j with | some j => j.pc | none => 0), addr := addr,
      status := BitVec.ofNat 64 det, replay := false, inh := x.ev.inh, privl := q.priv, asid := q.asid, ctxid := q.ctxid,
      topb := (match x.task with | some t => (s.task t).topb | none => 0), time := s.devtime, nrec := 0, last := true,
      inst := none, passed := false, seq := none, answer := none, applied := false }
  s.modSpace q.asid (fun sp => { sp with notices := sp.notices ++ [r] })

/-- A fabric trap of a request: its gang takes it, its destination keeping its pending bits; a bulk packet or mailbox send
whose gang has gone leaves a notice (19 R382). -/
def State.fabricTrap (s : State) (k : Nat) (q : Request) (cls : TrapClass) (addr : Word) (det : Nat) : State :=
  match q.who with
  | .ctx _ => s
  | .strand p sl =>
    if (s.part k p).strands.any (fun e => e.2.gang == q.job) then
      let s1 := match s.requestResult k q with
        | some x => s.modStrand k p sl (fun y => y.dropResult x.2.2)
        | none => s
      s1.gangTrap k q.job p q.index q.lane q.pc cls addr det
    else if q.want = 1 ∨ q.want = 7 then s.fabricNotice k q cls addr det
    else s

/-- REQUEST_TIMEOUT (19 R382): the `n`-th outstanding request of a core has no reply CWTMO after it was sent. Its tag
rests. -/
def execRequestTimeout (core n : Nat) (s : State) : Out :=
  match (s.core core).requests[n]? with
  | none => .fault .notEnabled
  | some q =>
    let tmo := s.fabric.cwtmo * 1000
    if q.tag = noTag ∨ s.devtime < q.sent + tmo then .fault .notEnabled
    else
      let s1 := (s.fabricTrap core q .fabricTimeout q.pkt.addr q.peer).modCore core (fun c => { c with
        requests := c.requests.erase q, coolTags := (q.tag, s.devtime + 2 * tmo) :: c.coolTags })
      .next s1

/-- The request of a core that a reply answers: TAG, GEN, the peer, and the type awaited (19 R382). -/
def Core.matching (c : Core) (p : Packet) (refusal : Bool) : Option Request :=
  c.requests.find? (fun q => q.tag == p.tag && q.gen == p.gen && q.peer == p.src && (refusal || q.want == p.ptype))

/-- A reply that matches nothing is dropped and counted (19 R382). -/
def State.lateReply (s : State) : State := { s with fabric := { s.fabric with laterep := s.fabric.laterep + 1 } }

/-- The answer of a queue to an enqueue (08 R207, 19 R388). -/
def State.enqueueAnswer (s : State) (k : Nat) (q : Request) (v : Nat) : State :=
  if v = 0 then
    match s.requestResult k q with
    | some (p, sl, r) => (s.fillLane k p sl r 0).endRequest k q
    | none => s.endRequest k q
  else if v = 1 then (s.fabricTrap k q .queueStale q.pkt.addr 0).endRequest k q
  else if 8 ≤ q.tries then (s.fabricTrap k q .queueStale q.pkt.addr 1).endRequest k q
  else
    (s.modCore k (fun c => { c with requests := c.requests.map (fun x => if x = q then
      { q with tag := noTag, tries := q.tries + 1, backoff := some (s.fabNow + 256 * 2 ^ q.tries) } else x) })).sendWaiting k 1

/-- A reply reaches its core. -/
def State.acceptReply (s : State) (k : Nat) (p : Packet) : State :=
  match (s.core k).matching p false with
  | none => s.lateReply
  | some q =>
    if q.want = 14 then s.enqueueAnswer k q (p.value.toNat % 4)
    else match s.requestResult k q with
      | some (pt, sl, r) => (s.fillLane k pt sl r p.value).endRequest k q
      | none => s.endRequest k q

/-- Whether a delivered packet stands in one order with another: a packet of its circuit, or of the request class from its
sender; any other packet only with itself (19 R373). -/
def pktOrdered (p q : Packet) : Bool :=
  q == p || (if p.circ ≠ 0 then q.circ == p.circ && q.src == p.src else p.vclass == 0 && q.vclass == 0 && q.circ == 0 && q.src == p.src)

/-- A packet that a happening takes: one delivered inside the device, or one that arrives from another device. -/
def State.takePacket (s : State) (p : Packet) : Option State :=
  if p.dst ≠ s.fabric.peer then none
  else if p.src = s.fabric.peer ∨ p.circ ≠ 0 then
    if s.fabric.arrived.find? (pktOrdered p) == some p then
      some { s with fabric := { s.fabric with arrived := s.fabric.arrived.erase p } } else none
  else some s

/-- REPLY_ARRIVAL (19 R382): a read, atomic, mailbox, allocation or enqueue reply. The reply to a combined request answers
each of its members (19 R383). -/
def execReplyArrival (core : Nat) (p : Packet) (s : State) : Out :=
  if !([3, 5, 7, 9, 14].contains p.ptype) then .fault .notEnabled
  else match s.takePacket p with
    | none => .fault .notEnabled
    | some s1 =>
      if p.tag < 1024 then .next (s1.acceptReply core p)
      else
        let rs := s1.fabric.memberReplies p 16
        let s2 : State := { s1 with fabric := { s1.fabric with merged := s1.fabric.merged.filter (fun m => m.1 != p.tag) } }
        .next (rs.foldl (fun (x : State) (r : Packet) => x.acceptReply r.dcore r) s2)

/-- A refusal reaches its core: PAGE with REMOTE (19 R372). -/
def State.acceptRefusal (s : State) (k : Nat) (p : Packet) : State :=
  match (s.core k).matching p true with
  | none => s.lateReply
  | some q =>
    let acc := if q.want = 3 then 0 else if q.want = 5 then 3 else 1
    let det := if fieldNat p.value 3 0 = 2 then 6 * 2 ^ 13 + acc * 2 ^ 11 else fieldNat p.value 31 16
    (s.fabricTrap k q .page q.pkt.addr (Nat.lor det (2 ^ 10))).endRequest k q

/-- REFUSAL_ARRIVAL (19 R372). -/
def execRefusalArrival (core : Nat) (p : Packet) (s : State) : Out :=
  if p.ptype ≠ 15 then .fault .notEnabled
  else match s.takePacket p with
    | none => .fault .notEnabled
    | some s1 =>
      if p.tag < 1024 then .next (s1.acceptRefusal core p)
      else
        let rs := s1.fabric.memberReplies p 16
        let s2 : State := { s1 with fabric := { s1.fabric with merged := s1.fabric.merged.filter (fun m => m.1 != p.tag) } }
        .next (rs.foldl (fun (x : State) r => x.acceptRefusal r.dcore { r with value := p.value }) s2)

/-- BULK_ACK_ARRIVAL (08 R204): the bytes acknowledged are added to the local counter, if one is named. -/
def execBulkAckArrival (core : Nat) (p : Packet) (s : State) : Out :=
  if p.ptype ≠ 1 then .fault .notEnabled
  else match s.takePacket p with
    | none => .fault .notEnabled
    | some s1 =>
      match (s1.core core).matching p false with
      | none => .next s1.lateReply
      | some q =>
        let s2 := match q.lctr with
          | none => s1
          | some a => s1.modCore core (fun c => c.addCounter (a / 8) (BitVec.ofNat 64 q.pkt.data.length))
        .next (s2.endRequest core q)

/-- ENQUEUE_RETRY (19 R388): the wait of the `n`-th request of a core, an enqueue that was told to retry, has ended. -/
def execEnqueueRetry (core n : Nat) (s : State) : Out :=
  match (s.core core).requests[n]? with
  | none => .fault .notEnabled
  | some q =>
    match q.backoff with
    | none => .fault .notEnabled
    | some t =>
      if s.fabNow < t then .fault .notEnabled
      else .next ((s.modCore core (fun c => { c with requests := c.requests.map (fun x =>
        if x = q then { q with backoff := none } else x) })).sendWaiting core 1)

/-- RSLOT_GET_TIMEOUT (19 R387): the `n`-th overdue wait of a core's strands for a notice ends in FABRIC_TIMEOUT. -/
def execRslotGetTimeout (core n : Nat) (s : State) : Out :=
  let due := [0, 1, 2, 3].flatMap (fun p => (s.part core p).strands.flatMap (fun e => e.2.results.filterMap (fun r =>
    match r.src with
    | .notice h _ d => if d ≤ s.devtime ∧ (s.noticeOf h).isNone then some (p, e.1, r, h) else none
    | _ => none)))
  match due[n]? with
  | none => .fault .notEnabled
  | some (p, sl, r, h) =>
    let st := s.strand core p sl
    .next ((s.modStrand core p sl (fun x => x.dropResult r)).gangTrap core st.gang p st.index r.lane r.pc .fabricTimeout h
      (fieldNat h 11 0))

/-! ### The serving side (19 R380) -/

/-- The answer to a packet: to its sender, under its tag. -/
def answerTo (s : State) (p : Packet) (ptype : Nat) (v : Word) : Packet :=
  { ptype := ptype, circ := 0, src := s.fabric.peer, dst := p.src, gen := p.gen, tag := p.tag, vclass := 1, tenant := p.tenant,
    dcore := (if p.ptype = 0 ∨ p.ptype = 6 then p.addr.toNat else p.dcore), laddr := 0, addr := p.addr, value := v, dctr := 0,
    aux := p.aux, data := [] }

/-- A refusal for a failed translation (19 R372). -/
def refusalFor (s : State) (p : Packet) (asid va cause : Nat) (acc : Access) : Packet :=
  let level := if cause = 3 ∨ cause = 6 then 0 else match s.walk asid va with | .error e => e.1 | .ok w => w.level
  answerTo s p 15 (BitVec.ofNat 64 ((cause * 2 ^ 13 + acc.code * 2 ^ 11 + level * 2 ^ 8) % 2 ^ 16 * 2 ^ 16 + 1))

/-- The eight words of a packet's header flit; the rest of the flit is zero, and the data flits hold 128 bytes each (19 R372). -/
def pktHeader (p : Packet) (dateline : Bool) : List Nat :=
  [p.ptype % 16 * 2 ^ 60 + pktNdata p % 16 * 2 ^ 56 + p.circ % 256 * 2 ^ 48 + p.src % 4096 * 2 ^ 36 + p.dst % 4096 * 2 ^ 24 +
      p.gen % 16 * 2 ^ 20 + p.tag % 1024 * 2 ^ 10 + p.vclass % 4 * 2 ^ 8 + bit dateline * 2 ^ 7,
    p.tenant % 65536 * 2 ^ 48 + p.dcore % 512 * 2 ^ 39 + p.laddr % 2 ^ 32, p.addr.toNat, p.value.toNat,
    p.dctr % 65536 * 2 ^ 32 + p.aux % 2 ^ 32, 0, 0, 0]

/-- REMOTE_REQUEST_SERVE (08 R205, 19 R380): a read or an atomic at its home in the tenant's address space. -/
def execRemoteRequestServe (p : Packet) (s0 : State) : Out :=
  if p.ptype ≠ 2 ∧ p.ptype ≠ 4 then .fault .notEnabled
  else match s0.takePacket p with
    | none => .fault .notEnabled
    | some s =>
      match s.tenantSpace p.tenant with
      | none => .next (s.atPort 8 (answerTo s p 15 2))
      | some asid =>
        let ty := p.aux % 32
        let n := tySize ty
        let acc : Access := if p.ptype = 2 then .read else .atomic
        match s.spaceXlate asid 0 acc p.addr.toNat with
        | .error cause => .next (s.atPort 8 (refusalFor s p asid p.addr.toNat (if cause = 0 then 2 else cause) acc))
        | .ok (pa, s1) =>
          if s1.lineBad pa then
            -- the spec gives no answer for uncorrectable data: the value is free (log 34)
            let z := s1.freeWord 0
            .next (z.2.atPort 8 (answerTo s p (p.ptype + 1) z.1))
          else
            let old := s1.mem.read pa n
            let s2 := if p.ptype = 2 then s1 else s1.homeWrite pa (bytesOf n (atomVal (p.aux / 32) ty old p.value.toNat).1)
            .next (s2.atPort 8 (answerTo s p (p.ptype + 1) (BitVec.ofNat 64 old)))

/-- BULK_PACKET_ARRIVAL (08 R204): a bulk packet's bytes are written to Landing and counted in one step, and it is
acknowledged. -/
def execBulkPacketArrival (p : Packet) (s0 : State) : Out :=
  if p.ptype ≠ 0 ∨ numCores ≤ p.dcore ∨ p.laddr < 0x1000 ∨ 0x800000 < p.laddr + p.data.length then .fault .notEnabled
  else match s0.takePacket p with
    | none => .fault .notEnabled
    | some s =>
      if (s.tenantSpace p.tenant).isNone then .next (s.upFrom (coreDie p.dcore) (answerTo s p 15 2))
      else
        let s1 := s.modCore p.dcore (fun c =>
          (c.landWrite p.laddr p.data).addCounter (p.dctr / 8) (BitVec.ofNat 64 p.data.length))
        .next (s1.upFrom (coreDie p.dcore) (answerTo s p 1 (BitVec.ofNat 64 p.data.length)))

/-- MAILBOX_ARRIVAL (08 R202): tokens reach a core's mailbox. -/
def execMailboxArrival (p : Packet) (s0 : State) : Out :=
  if p.ptype ≠ 6 ∨ numCores ≤ p.dcore ∨ 16 ≤ p.laddr then .fault .notEnabled
  else match s0.takePacket p with
    | none => .fault .notEnabled
    | some s =>
      if (s.tenantSpace p.tenant).isNone then .next (s.upFrom (coreDie p.dcore) (answerTo s p 15 2))
      else .next ((s.addTokens p.dcore p.laddr p.value).upFrom (coreDie p.dcore) (answerTo s p 7 0))

/-! ### Packets on the way (19 R374, R377) -/

/-- The circuit flit that an output sends in the current fabric cycle: its entry's input and circuit, ready since two
cycles (19 R376). -/
def State.circuitAt (s : State) (r out : Nat) : Option CFlit :=
  if s.fabric.cwcyc.isNone then none
  else
    let e := (Tab.get s.fabric.bankA 0 ((r * 32 + out) * 256 + s.cwcyc % 256)).toNat
    if natField e 20 20 = 0 then none
    else s.fabric.cflits.find? (fun c => c.router == r && c.inp == natField e 19 15 && c.circ == natField e 7 0 &&
      decide (c.at_ + 2 ≤ s.cwcyc))

/-- Whether an output has already sent in this fabric cycle. -/
def State.outBusy (s : State) (r out : Nat) : Bool := Tab.get s.fabric.outCyc 0 (32 * r + out) == s.fabNow + 1

/-- An output sends in this fabric cycle. -/
def State.markOut (s : State) (r out : Nat) : State :=
  { s with fabric := { s.fabric with outCyc := s.fabric.outCyc.put (32 * r + out) (s.fabNow + 1) } }

/-- A packet has left a router whole. -/
def State.hop (s : State) (r out : Nat) (p : Packet) : State :=
  if r < 8 then
    (if out < 9 then s.deliverPkt p else if out = 9 ∨ out = 10 then s.enterRouter (8 + (out - 9)) p else s)
  else if out < 9 then s
  else if out < 17 then s.queueAt (out - 9) (coreCluster p.dcore) 0 p
  else s.enterRouter (17 - r) p

/-- PACKET_FLIT_SEND (19 R374, R377): an output gives a cycle that no ready circuit flit claims to a packet flit of a
channel that is not stopped, while the router does not hold (23 R432). A packet that comes to an output is ready from the next fabric cycle (log 22). -/
def execPacketFlitSend (router port : Nat) (s : State) : Out :=
  let f := s.fabric
  if (s.circuitAt router port).isSome || s.outBusy router port || decide (0 < Tab.get f.holds 0 router) then .fault .notEnabled
  else match f.transit.find? (fun t => t.router == router && t.out == port && decide (t.at_ < s.fabNow) &&
      !f.stops.contains (router, port, t.chan)) with
    | none => .fault .notEnabled
    | some t =>
      let s1 := s.markOut router port
      let f1 := s1.fabric
      if t.flits ≤ 1 then .next (({ s1 with fabric := { f1 with transit := f1.transit.erase t } } : State).hop router port t.pkt)
      else
        .next { s1 with fabric := { f1 with transit := f1.transit.replace t { t with flits := t.flits - 1 } } }

/-- STOP_SIGNAL (19 R374): a receiver raises or lowers STOP for a channel of an output. -/
def execStopSignal (router port ch : Nat) (on : Bool) (s : State) : Out :=
  if 10 ≤ router ∨ 18 ≤ port ∨ 6 ≤ ch then .fault .notEnabled
  else
    let rest := s.fabric.stops.filter (fun x => x != (router, port, ch))
    .next { s with fabric := { s.fabric with stops := if on then (router, port, ch) :: rest else rest } }

/-! ### Circuits (19 R375 to R378) -/

/-- Whether some output of a router has an active entry for an input and a circuit. -/
def Fabric.hasEntry (f : Fabric) (r inp circ : Nat) : Bool :=
  f.bankA.any (fun e => e.1 / 8192 == r && natField e.2.toNat 20 20 == 1 && natField e.2.toNat 19 15 == inp &&
    natField e.2.toNat 7 0 == circ)

/-- A circuit flit is dropped and counted; the rest of its packet can no longer be delivered. -/
def State.dropFlit (s : State) (c : CFlit) : State :=
  let cut (x : CFlit) : CFlit := if x.pkt = c.pkt then { x with last := false } else x
  { s with fabric := { s.fabric with
      circdrop := s.fabric.circdrop + 1, cflits := s.fabric.cflits.map cut, cflight := s.fabric.cflight.map cut } }

/-- A circuit flit reaches a router input: it waits for its slot, or is dropped (19 R376). -/
def State.flitIn (s : State) (c : CFlit) : State :=
  if !s.fabric.hasEntry c.router c.inp c.circ ||
      decide (64 ≤ (s.fabric.cflits.filter (fun x => x.router == c.router && x.inp == c.inp)).length) then s.dropFlit c
  else { s with fabric := { s.fabric with cflits := s.fabric.cflits ++ [c] } }

/-- CIRCUIT_FLIT_ARRIVAL (19 R376): a flit on its way inside the device arrives once its link's delay has passed; at a
Causeway port a flit comes from the neighbour. -/
def execCircuitFlitArrival (router port circ : Nat) (p : Packet) (last : Bool) (s : State) : Out :=
  match s.fabric.cflight.find? (fun c => c.router == router && c.inp == port && c.circ == circ) with
  | some c =>
    if s.cwcyc < c.at_ then .fault .notEnabled
    else .next (({ s with fabric := { s.fabric with cflight := s.fabric.cflight.erase c } } : State).flitIn c)
  | none =>
    if 8 ≤ router ∧ router < 10 ∧ port < 9 ∧ (Tab.find s.fabric.links ((router - 8) * 9 + port)).isSome ∧ circ ≠ 0 ∧ p.circ = circ then
      .next (s.flitIn ⟨router, port, circ, s.cwcyc, last, p⟩)
    else .fault .notEnabled

/-- The delay of a link inside the package (log 22). -/
def internalDelay (r out : Nat) : Nat := Config.linkDelay r out % 2 ^ 16

/-- CIRCUIT_FLIT_DEPART (19 R376, R377): the output's slot sends its ready circuit flit. -/
def execCircuitFlitDepart (router port : Nat) (s : State) : Out :=
  match s.circuitAt router port with
  | none => .fault .notEnabled
  | some c =>
    if s.outBusy router port then .fault .notEnabled
    else
      let s1 := s.markOut router port
      let s2 : State := { s1 with fabric := { s1.fabric with cflits := s1.fabric.cflits.erase c } }
      let fly (r inp : Nat) : State := { s2 with fabric := { s2.fabric with
        cflight := s2.fabric.cflight ++ [{ c with router := r, inp := inp, at_ := s.cwcyc + internalDelay router port }] } }
      if router < 8 then
        (if port < 9 then .next (if c.last then s2.deliverPkt c.pkt else s2)
         else if port = 9 ∨ port = 10 then .next (fly (8 + (port - 9)) (9 + router)) else .next s2)
      else if port < 9 then .next s2
      else if port < 17 then .next (fly (port - 9) (9 + (router - 8)))
      else .next (fly (17 - router) 17)

/-- CWENT_WRITE (19 R379): a write of a slot-table entry by an issuer. -/
def execCwentWrite (issuer : Issuer) (value : Word) (s : State) : Out :=
  .next (s.regWrite issuer 0x221 value)

/-- CWSWAP_WRITE (19 R378): a write of CWSWAP by an issuer. -/
def execCwswapWrite (issuer : Issuer) (value : Word) (s : State) : Out :=
  .next (s.regWrite issuer 0x222 value)

/-- CWSWAP_SWITCH (19 R378): at fabric cycle 256·P, or the next period boundary, every output switches banks, and ARM
clears. -/
def execCwswapSwitch (s : State) : Out :=
  let f := s.fabric
  if !f.arm || f.cwcyc.isNone || s.cwcyc < 256 * f.period || s.cwcyc % 256 != 0 then .fault .notEnabled
  else .next { s with fabric := { f with bankA := f.bankS, bankS := f.bankA, arm := false } }

/-- LINK_TRAINING (19 R370, R379, 23 R430, R435): a Causeway link trains, or goes down; one that failed at boot, or is lasting,
stays down. The first to train starts CWCYC at the
torus's count, or at 0. -/
def execLinkTraining (port : Nat) (up : Bool) (dly : Nat) (cyc : Option Nat) (s : State) : Out :=
  let bad := (Tab.get s.purser.steps default 9).units / 2 ^ port % 2 == 1 || s.purser.downLinks.contains port
  if 18 ≤ port ∨ 0xFFFF ≤ dly ∨ (up && bad) then .fault .notEnabled
  else
    let f := s.fabric
    if up then
      .next { s with fabric := { f with
        links := f.links.put port dly, cwcyc := if f.cwcyc.isNone then some (s.fabNow, cyc.getD 0) else f.cwcyc } }
    else .next { s with fabric := { f with links := f.links.erase port } }

/-! ### Reduction slots (19 R384 to R387) -/

/-- The key of a slot of a port router. -/
def slotKey (pr n : Nat) : Nat := 64 * pr + n
def Fabric.slot (f : Fabric) (key : Nat) : RSlot := Tab.get f.slots RSlot.init key
def State.modSlot (s : State) (key : Nat) (g : RSlot → RSlot) : State :=
  { s with fabric := { s.fabric with slots := s.fabric.slots.put key (g (s.fabric.slot key)) } }

/-- The lane type of a slot's TYPE. -/
def slotTy (ty : Nat) : Nat := match ty with | 0 => 0x0E | 1 => 0x0F | 2 => 0x06 | _ => 0x0A

/-- The handle of a slot with CIDX clear. -/
def RSlot.handle (r : RSlot) (pr n peer : Nat) : Word :=
  BitVec.ofNat 64 (r.sgen * 2 ^ 48 + r.tmo * 2 ^ 40 + r.ty * 2 ^ 22 + r.op * 2 ^ 19 + n * 2 ^ 13 + pr * 2 ^ 12 + peer)

/-- The identity of an operation (19 R385). -/
def slotIdentity (op ty : Nat) : Nat :=
  match op, ty with
  | 0, 0 => 0x80000000 | 0, 1 => 0x8000000000000000
  | 1, 0 => 0x7F800000 | 1, 1 => 0x7FF0000000000000 | 1, 2 => 0x7FFFFFFF | 1, 3 => 0xFFFFFFFF
  | 2, 0 => 0xFF800000 | 2, 1 => 0xFFF0000000000000 | 2, 2 => 0x80000000
  | _, _ => 0

/-- The magnitude of a floating-point value. -/
def slotAbs (ty x : Nat) : Nat := if ty = 1 then x % 2 ^ 63 else x % 2 ^ 31

/-- Combine the contributions in ascending CIDX: the value and NANSEEN (19 R385). -/
def slotCombine (op ty : Nat) (xs : List Nat) : Nat × Bool :=
  let isNan (x : Nat) : Bool := if ty = 0 then (fp32.decode x).isNan else if ty = 1 then (fp64.decode x).isNan else false
  let step (a b : Nat) : Nat := if op = 3 then max (slotAbs ty a) (slotAbs ty b) else (atomVal op (slotTy ty) a b).1
  match xs with
  | [] => (slotIdentity op ty, false)
  | x :: r =>
    if (x :: r).any isNan then ((if ty = 1 then fp64.nanCode else fp32.nanCode), true)
    else (r.foldl step (if op = 3 then slotAbs ty x else x), false)

/-- The notice of a slot for a peer (19 R387). -/
def noticePkt (s : State) (r : RSlot) (pr n peer : Nat) : Packet :=
  { ptype := 11, circ := 0, src := s.fabric.peer, dst := peer, gen := 0, tag := 0, vclass := 1, tenant := 0, dcore := 0, laddr := 0,
    addr := r.handle pr n s.fabric.peer, value := r.value, dctr := r.status, aux := r.map, data := [] }

/-- A slot completes, and its notices leave (19 R385, R387). -/
def State.completeSlot (s : State) (pr n : Nat) : State :=
  let r := s.fabric.slot (slotKey pr n)
  let map := r.contrib.foldl (fun a e => a + 2 ^ e.1) 0
  let z := slotCombine r.op r.ty (r.contrib.map (fun e => e.2.toNat))
  let r1 : RSlot := { r with
    done := true, value := BitVec.ofNat 64 z.1, map := map, status := bit (map != r.expect) * 4 + bit z.2 * 2 + 1 }
  (r.owner :: r.putters).eraseDups.foldl (fun (x : State) peer => x.atPort (8 + pr) (noticePkt s r1 pr n peer))
    (s.modSlot (slotKey pr n) (fun _ => r1))

/-- RSLOT_ALLOC_SERVE (19 R380, R384): the host router gives its lowest free slot, or the handle 0. -/
def execRslotAllocServe (p : Packet) (s0 : State) : Out :=
  if p.ptype ≠ 8 then .fault .notEnabled
  else match s0.takePacket p with
    | none => .fault .notEnabled
    | some s =>
      let d := p.value
      let pr := fieldNat d 12 12
      if (s.tenantSpace p.tenant).isNone then .next (s.atPort (8 + pr) (answerTo s p 15 2))
      else match (List.range 64).find? (fun n => !(s.fabric.slot (slotKey pr n)).used) with
      | none => .next (s.atPort (8 + pr) (answerTo s p 9 0))
      | some n =>
        let r : RSlot := { RSlot.init with
          sgen := ((s.fabric.slot (slotKey pr n)).sgen + 1) % 2 ^ 16, used := true, host := fieldNat d 11 0, op := fieldNat d 20 18,
          ty := fieldNat d 22 21, tmo := fieldNat d 31 24, expect := fieldNat d 63 32, owner := p.src, start := s.devtime }
        .next ((s.modSlot (slotKey pr n) (fun _ => r)).atPort (8 + pr) (answerTo s p 9 (r.handle pr n s.fabric.peer)))

/-- A contribution is dropped and counted (19 R386). -/
def State.dropPut (s : State) : State := { s with fabric := { s.fabric with rsldrop := s.fabric.rsldrop + 1 } }

/-- RSLOT_PUT_ARRIVAL (19 R385, R386): a contribution reaches its slot. One of a tenant without an address space here is not
served (19 R380); its sender awaits no answer, and none is sent (log 109). -/
def execRslotPutArrival (p : Packet) (s0 : State) : Out :=
  if p.ptype ≠ 10 then .fault .notEnabled
  else match s0.takePacket p with
    | none => .fault .notEnabled
    | some s =>
      let h := p.addr
      let pr := fieldNat h 12 12
      let n := fieldNat h 18 13
      let i := fieldNat h 36 32
      let r := s.fabric.slot (slotKey pr n)
      if (s.tenantSpace p.tenant).isNone then .next s
      else if !r.used || r.sgen != fieldNat h 63 48 then .next s.dropPut
      else if r.done then .next (s.dropPut.atPort (8 + pr) (noticePkt s r pr n p.src))
      else if (Tab.find r.contrib i).isSome || r.expect / 2 ^ i % 2 == 0 || p.aux != slotTy r.ty then .next s.dropPut
      else
        let s1 := s.modSlot (slotKey pr n) (fun x => { x with contrib := x.contrib.put i p.value, putters := x.putters ++ [p.src] })
        let map := (s1.fabric.slot (slotKey pr n)).contrib.foldl (fun a e => a + 2 ^ e.1) 0
        .next (if map = r.expect then s1.completeSlot pr n else s1)

/-- RSLOT_TIMEOUT (19 R385): TMO µs have passed since a slot's allocation. -/
def execRslotTimeout (pr slot : Nat) (s : State) : Out :=
  let r := s.fabric.slot (slotKey pr slot)
  if 2 ≤ pr || !r.used || r.done || s.devtime < r.start + r.tmo * 1000 then .fault .notEnabled
  else .next (s.completeSlot pr slot)

/-- NOTICE_ARRIVAL (19 R387): a notice enters the device's table; a full table loses its oldest entry. -/
def execNoticeArrival (p : Packet) (s0 : State) : Out :=
  if p.ptype ≠ 11 then .fault .notEnabled
  else match s0.takePacket p with
    | none => .fault .notEnabled
    | some s =>
      let rest := s.fabric.notices.filter (fun e => noticeKey e.handle != noticeKey p.addr)
      let rest1 := if 256 ≤ rest.length then rest.drop 1 else rest
      .next { s with fabric := { s.fabric with notices := rest1 ++ [⟨p.addr, p.value, p.aux, p.dctr⟩] } }

/-- RSLOT_FREE_ARRIVAL (19 R387): a slot is freed, complete or not, when SGEN matches. -/
def execRslotFreeArrival (p : Packet) (s0 : State) : Out :=
  if p.ptype ≠ 12 then .fault .notEnabled
  else match s0.takePacket p with
    | none => .fault .notEnabled
    | some s =>
      let key := slotKey (fieldNat p.addr 12 12) (fieldNat p.addr 18 13)
      if (s.tenantSpace p.tenant).isSome ∧ (s.fabric.slot key).sgen = fieldNat p.addr 63 48 then .next (s.modSlot key (fun r => { r with used := false })) else .next s

/-! ### Remote queues (19 R388) -/

/-- An enqueue into a memory ring of a tenant's address space: HEAD at BASE, TAIL at BASE + 8, record k at BASE + 64 +
64·(k mod SLOTS). -/
def State.enqueueRing (s : State) (p : Packet) (base slots : Nat) : Out :=
  match s.tenantSpace p.tenant with
  | none => .next (s.atPort 8 (answerTo s p 15 2))
  | some asid =>
    match s.spaceXlate asid 0 .atomic base with
    | .error c => .next (s.atPort 8 (refusalFor s p asid base (if c = 0 then 2 else c) .write))
    | .ok (pa, s1) =>
      let head := s1.mem.read pa 8
      let tail := s1.mem.read (pa + 8) 8
      if slots ≤ (tail + 2 ^ 64 - head) % 2 ^ 64 then .next (s1.atPort 8 (answerTo s p 14 2))
      else match s1.spaceXlate asid 0 .write (base + 64 + 64 * (tail % max slots 1)) with
        | .error c =>
          .next (s.atPort 8 (refusalFor s p asid (base + 64 + 64 * (tail % max slots 1)) (if c = 0 then 2 else c) .write))
        | .ok (ra, s2) =>
          .next (((s2.homeWrite ra (p.data.take 64)).homeWrite (pa + 8) (bytesOf 8 ((tail + 1) % 2 ^ 64))).atPort 8 (answerTo s p 14 0))

/-- ENQUEUE_ARRIVAL (19 R388): the peer's answer to an enqueue. -/
def execEnqueueArrival (p : Packet) (s0 : State) : Out :=
  if p.ptype ≠ 13 then .fault .notEnabled
  else match s0.takePacket p with
    | none => .fault .notEnabled
    | some s =>
      if (s.tenantSpace p.tenant).isNone then .next (s.atPort 8 (answerTo s p 15 2))
      else
      let h := p.addr
      let rq := s.fabric.rqbase
      let a := fieldNat rq 47 13 * 8192 + 32 * fieldNat h 23 16
      let w0 := s.mem.read a 8
      let w1 := s.mem.read (a + 8) 8
      let slots := s.mem.read (a + 16) 8 % 2 ^ 32
      if rq.toNat % 2 = 0 || w0 % 2 == 0 || natField w0 63 48 != fieldNat h 63 48 || natField w0 47 32 != p.tenant then
        .next (s.atPort 8 (answerTo s p 14 1))
      else if natField w0 2 2 = 1 then .next (s.atPort 8 (answerTo s p 14 2))
      else if natField w0 1 1 = 0 then s.enqueueRing p (w1 % 2 ^ 54) slots
      else
        let q := w1 % 64
        let hq := s.queue q
        let cap := 2 ^ fieldNat hq.qctl 39 35
        if cap ≤ (hq.qtail + 2 ^ 32 - hq.qhead) % 2 ^ 32 then .next (s.atPort 8 (answerTo s p 14 2))
        else
          let at_ := fieldNat hq.qbase 47 12 * 4096 + 64 * (hq.qtail % cap)
          .next (((s.homeWrite at_ (p.data.take 64)).modQueue q (fun x => { x with qtail := (x.qtail + 1) % 2 ^ 32 })).atPort 8
            (answerTo s p 14 0))

end Sys2Proof.Machine
end

