-- ==== Sys2Proof/Machine/LaneSys.lean ====
section
/-! DEFINITION. The lane instructions that reach mailboxes, the Causeway and the control registers (spec 08 R202 to R207,
R211, 19 R380 to R388). -/
namespace Sys2Proof.Machine

/-! ### Requests of lanes -/

/-- The tenant of a pass's address space (19 R380). -/
def LEnv.tenant (e : LEnv) (s : State) : Nat := (s.space (e.agent s).asid).tenant.toNat

/-- A packet of a lane, of the request class. -/
def LEnv.packet (e : LEnv) (s : State) (ptype dst : Nat) (addr value : Word) (aux : Nat) : Packet :=
  { ptype := ptype, circ := 0, src := s.fabric.peer, dst := dst, gen := 0, tag := 0, vclass := 0, tenant := e.tenant s,
    dcore := e.core, laddr := 0, addr := addr, value := value, dctr := 0, aux := aux, data := [] }

/-- A request of a lane, awaiting a packet of type `want` (19 R381, R382). -/
def LEnv.request (e : LEnv) (s : State) (r : LaneRef) (want : Nat) (p : Packet) (lctr : Option Nat) : State :=
  s.request e.core
    { id := 0, tag := noTag, gen := 0, want := want, peer := p.dst, sent := 0, who := .strand e.part r.slot, lane := r.lane,
      lctr := lctr, ctxid := ctxId e.core (e.job s).ctx, asid := (e.agent s).asid, priv := (e.agent s).priv,
      job := e.gang, index := (e.strand r).index, pc := e.pc, pkt := p, tries := 0, backoff := none }

/-- A request whose reply fills a register of the lane: its pending bits are set. -/
def LEnv.ask (e : LEnv) (s : State) (r : LaneRef) (wide : Bool) (d want : Nat) (p : Packet) : State :=
  let src : ResSrc := if want = 14 then .enqueue (s.core e.core).nextReq else .fabric (s.core e.core).nextReq
  e.request (e.produce s r wide d src 0 p.addr []) r want p none

/-- The check of a peer at issue (08 R203, 19 R380). -/
def LEnv.peerCheck (e : LEnv) (s : State) (n : Nat) : Option Trap :=
  if s.peerOk (e.agent s).asid n then none else some ⟨.fabricPeer, 0, n⟩

/-- A check that raises ILLEGAL_OP. -/
def illegalIf (b : Bool) : Option Trap := if b then some trapIllegal else none

/-- A peer register of a lane: v[b], or s[b] whole (08 R203). -/
def LEnv.peerOf (e : LEnv) (f : LLong) (r : LaneRef) : Nat :=
  if f.u then ((e.strand r).getS f.b.toNat).toNat else (e.lane r).getV f.b.toNat

/-! ### Mailboxes (08 R202) -/

/-- mbsend (08 R202) -/
def passMbsend (f : LLong) : LMean :=
  let ty := f.ty.toNat
  let kind := f.mod.toNat
  let mb := f.imm.toNat % 16
  laneMean f 8 ([tyN32, tyN64].contains ty && kind ≤ 2 && f.imm.toNat / 64 == 0 && f.d.toNat == 0 &&
      (if kind = 2 then f.a.toNat < 32 else f.a.toNat == 0) && (!f.u || f.b.toNat < 32)) (bRegs f false (tyWide ty)) []
    (fun e s =>
      let val (r : LaneRef) : Word := BitVec.ofNat 64 (e.srcB f false ty r)
      if kind = 2 then
        let target (r : LaneRef) : Nat := ((e.strand r).getS f.a.toNat).toNat
        let checks : List (LaneRef → Option Trap) :=
          [fun r => illegalIf (!bitsIn (target r) 0x01FF0FFF || decide (numCores ≤ natField (target r) 24 16)),
           fun r => e.peerCheck s (natField (target r) 11 0)]
        match firstLane e.act checks with
        | some (r, t) => .trap r t
        | none => .ok (e.act.foldl (fun (x : State) r =>
            let p := e.packet x 6 (natField (target r) 11 0) (BitVec.ofNat 64 e.core) (val r) 0
            e.request x r 7 { p with dcore := natField (target r) 24 16, laddr := mb } none) s) none
      else
        let m := if kind = 1 then memberCore e.core (f.imm.toNat / 16 % 4) else e.core
        .ok (e.act.foldl (fun (x : State) r => x.addTokens m mb (val r)) s) none)
/-- mbsend: issued by the pass whose turn it is. -/
def execMbsend (f : LLong) (s : State) : Out := runPass (passMbsend f) s

/-! ### Block transfers (08 R204) -/

/-- The descriptor of bxfer. -/
structure BxDesc where
  src   : Nat
  daddr : Nat
  dcore : Nat
  peer  : Nat
  dctr  : Nat
  len   : Nat
  lctr  : Option Nat
  circ  : Nat
  ok    : Bool
deriving DecidableEq, Repr, Inhabited

/-- The descriptor in four registers, `ok` when its fields are legal. -/
def bxDesc (w0 w1 w2 w3 : Word) (landing : Bool) : BxDesc :=
  let n2 := w2.toNat
  let n3 := w3.toNat
  let len := natField n2 24 0
  { src := (if landing then fieldNat w0 31 0 else w0.toNat), daddr := fieldNat w1 63 32, dcore := fieldNat w1 20 12,
    peer := fieldNat w1 11 0, dctr := natField n2 47 32, len := len,
    lctr := (if natField n3 48 48 = 1 then some (natField n3 47 32) else none), circ := natField n3 7 0,
    ok := fieldNat w1 31 21 == 0 && decide (fieldNat w1 20 12 < numCores) && natField n2 63 48 == 0 && natField n2 31 25 == 0 &&
      natField n2 47 32 % 8 == 0 && natField n2 47 32 ≤ 0x0FF8 && len % 16 == 0 && 16 ≤ len && len ≤ 2 ^ 24 &&
      natField n3 63 49 == 0 && natField n3 31 8 == 0 && natField n3 47 32 % 8 == 0 && natField n3 47 32 ≤ 0x0FF8 }

/-- Whether a local Landing range lies above the counter window and inside Landing. -/
def bxRangeBad (a n : Nat) : Bool := a < 0x1000 || decide (0x800000 < a + n)

/-- The 16-byte units of a range of the task, after view redirection (14 R308). -/
def State.bxUnits (s : State) (g : Agent) (landing : Bool) (a n : Nat) : List Nat :=
  (List.range (n / 16)).map (fun i => (s.core g.core).redirect g.task landing (a + 16 * i))

/-- Read the units of a global source in the core's view: the bytes, whether some unit is uncorrectable, and the state
after their translations. -/
def State.bxRead (s : State) (g : Agent) (us : List Nat) : Except Trap (List Byte × Bool × State) :=
  match us with
  | [] => .ok ([], false, s)
  | u :: rest =>
    match s.translate g.core g.asid g.priv false .read (BitVec.ofNat 64 u) with
    | .error t => .error t
    | .ok x =>
      match x.s.bxRead g rest with
      | .error t => .error t
      | .ok (bs, bad, s2) =>
        .ok (bytesOf 16 ((x.s.core g.core).viewRead x.pa 16) ++ bs, bad || x.poisoned || x.s.lineBad x.pa, s2)

/-- The bulk packets of a transfer, each of at most 1,024 bytes (19 R372). -/
def LEnv.bxSend (e : LEnv) (s : State) (d : BxDesc) (bs : List Byte) : State :=
  (List.range ((bs.length + 1023) / 1024)).foldl (fun (x : State) i =>
    let part := (bs.drop (1024 * i)).take 1024
    let p := e.packet x 0 d.peer (BitVec.ofNat 64 e.core) 0 part.length
    e.request x e.first 1 { p with circ := d.circ, vclass := 2, dcore := d.dcore, laddr := d.daddr + 1024 * i, dctr := d.dctr, data := part }
      d.lctr) s

/-- bxfer (08 R204) -/
def passBxfer (f : LLong) : LMean :=
  let land := f.mod.toNat == 1
  let k := f.a.toNat
  (laneMean f 8 (f.ty.toNat == 0 && f.mod.toNat < 2 && f.d.toNat == 0 && f.b.toNat == 0 && !f.u && f.imm.toNat == 0 &&
      k < 32 && k % 4 == 0) [] []
    (fun e s =>
      let st := e.strand e.first
      let d := bxDesc (st.getS k) (st.getS (k + 1)) (st.getS (k + 2)) (st.getS (k + 3)) land
      let g := e.agent s
      let at_ (a : Nat) : Word := BitVec.ofNat 64 a
      if !d.ok then .trap e.first trapIllegal
      else
        let us := s.bxUnits g land d.src d.len
        let checks : List (Option Trap) :=
          [(if land then (us.find? (fun u => bxRangeBad u 16)).map (fun u => trapRange (at_ u) .read 16) else none),
           (if bxRangeBad d.daddr d.len then some (trapRange (at_ d.daddr) .write 16) else none),
           (if land then none else (us.find? (fun u => decide (u / 2 ^ 54 ≠ 0))).map (fun u => trapPage (at_ u) 3 .read 0)),
           (if d.src % 16 ≠ 0 then some (trapAlign (at_ d.src) .read 16) else none),
           (if d.daddr % 16 ≠ 0 then some (trapAlign (at_ d.daddr) .write 16) else none)]
        match checks.findSome? id with
        | some t => .trap e.first t
        | none =>
          let s0 := s.drainStrand e.core e.part e.first.slot
          let got : Except Trap (List Byte × Bool × State) :=
            if land then
              let co := s0.core e.core
              .ok (us.flatMap (fun u => bytesOf 16 (co.landRead u 16)), us.any (fun u => co.landBad u 16), s0)
            else s0.bxRead g us
          match got with
          | .error t => .trap e.first t
          | .ok (bs, bad, s1) =>
            match e.peerCheck s d.peer with
            | some t => .trap e.first t
            | none => if bad then .ok s1 (some (e.first, trapMem (at_ d.src) .read false)) else .ok (e.bxSend s1 d bs) none)).converged
/-- bxfer: issued by the pass whose turn it is. -/
def execBxfer (f : LLong) (s : State) : Out := runPass (passBxfer f) s

/-! ### Remote reads and atomics (08 R205) -/

/-- The remote address of a lane. -/
def LEnv.remoteEa (e : LEnv) (f : LLong) (r : LaneRef) : Nat := ofSigned 64 (((e.lane r).getW true f.a.toNat : Nat) + f.imm.toInt)

/-- The checks of a remote access at issue: the peer register, alignment, the peer. -/
def LEnv.remoteChecks (e : LEnv) (s : State) (f : LLong) (acc : Access) (n : Nat) : List (LaneRef → Option Trap) :=
  [fun r => illegalIf (decide (4096 ≤ e.peerOf f r)),
   fun r => if e.remoteEa f r % n ≠ 0 then some (trapAlign (BitVec.ofNat 64 (e.remoteEa f r)) acc n) else none,
   fun r => e.peerCheck s (e.peerOf f r)]

/-- rget (08 R205) -/
def passRget (f : LLong) : LMean :=
  let ty := f.ty.toNat
  laneMean f 8 (tysBits.contains ty && f.mod.toNat == 0 && (!f.u || f.b.toNat < 32))
    ((f.d.toNat, tyWide ty) :: (f.a.toNat, true) :: bRegs f false false) []
    (fun e s =>
      match firstLane e.act (e.remoteChecks s f .read (tySize ty)) with
      | some (r, t) => .trap r t
      | none => .ok (e.act.foldl (fun (x : State) r =>
          e.ask x r (tyWide ty) f.d.toNat 3 (e.packet x 2 (e.peerOf f r) (BitVec.ofNat 64 (e.remoteEa f r)) 0 ty)) s) none)
/-- rget: issued by the pass whose turn it is. -/
def execRget (f : LLong) (s : State) : Out := runPass (passRget f) s

/-- ratom (08 R205): the operand is v[d], which receives the old value. -/
def passRatom (f : LLong) : LMean :=
  let ty := f.ty.toNat
  let w := tyWide ty
  laneMean f 8 (atomTyOk f.mod.toNat ty && (!f.u || f.b.toNat < 32))
    ((f.d.toNat, w) :: (f.a.toNat, true) :: bRegs f false false) []
    (fun e s =>
      match firstLane e.act (e.remoteChecks s f .atomic (tySize ty)) with
      | some (r, t) => .trap r t
      | none => .ok (e.act.foldl (fun (x : State) r =>
          e.ask x r w f.d.toNat 5 (e.packet x 4 (e.peerOf f r) (BitVec.ofNat 64 (e.remoteEa f r))
            (BitVec.ofNat 64 ((e.lane r).getW w f.d.toNat)) (f.mod.toNat * 32 + ty))) s) none)
/-- ratom: issued by the pass whose turn it is. -/
def execRatom (f : LLong) (s : State) : Out := runPass (passRatom f) s

/-! ### Reduction slots (08 R206, 19 R384, R387) -/

/-- Whether an allocation descriptor is legal (19 R384). -/
def slotDescOk (d : Nat) : Bool :=
  natField d 23 23 == 0 && natField d 17 13 == 0 && natField d 20 18 ≤ 3 && (natField d 20 18 != 3 || natField d 22 21 ≤ 1) &&
    natField d 31 24 != 0 && natField d 63 32 != 0

/-- The types of rslot.put and rslot.get.val. -/
def tysSlot : List Nat := [tyF32, tyF64, tyS32, tyN32]

/-- rslot.alloc (08 R206, 19 R384) -/
def passRslotAlloc (f : LLong) : LMean :=
  laneMean f 8 (f.ty.toNat == 0 && f.u && f.b.toNat < 32 && f.a.toNat == 0 && f.imm.toNat == 0 && f.mod.toNat == 0)
    [(f.d.toNat, true)] []
    (fun e s =>
      let desc (r : LaneRef) : Word := (e.strand r).getS f.b.toNat
      let checks : List (LaneRef → Option Trap) :=
        [fun r => illegalIf (!slotDescOk (desc r).toNat), fun r => e.peerCheck s (fieldNat (desc r) 11 0)]
      match firstLane e.act checks with
      | some (r, t) => .trap r t
      | none => .ok (e.act.foldl (fun (x : State) r =>
          e.ask x r true f.d.toNat 9 (e.packet x 8 (fieldNat (desc r) 11 0) 0 (desc r) 0)) s) none)
/-- rslot.alloc: issued by the pass whose turn it is. -/
def execRslotAlloc (f : LLong) (s : State) : Out := runPass (passRslotAlloc f) s

/-- rslot.put (08 R206), once per pass; no answer is awaited. -/
def passRslotPut (f : LLong) : LMean :=
  let ty := f.ty.toNat
  (laneMean f 8 (tysSlot.contains ty && f.mod.toNat == 1 && f.d.toNat == 0 && f.imm.toNat == 0 && (!f.u || f.b.toNat < 32))
    ((f.a.toNat, true) :: bRegs f false (tyWide ty)) []
    (fun e s =>
      let h := e.pair e.first f.a.toNat
      match e.peerCheck s (fieldNat h 11 0) with
      | some t => .trap e.first t
      | none => .ok (s.enterRouter (coreDie e.core)
          (e.packet s 10 (fieldNat h 11 0) h (BitVec.ofNat 64 (e.srcB f false ty e.first)) ty)) none)).unfused
/-- rslot.put: issued by the pass whose turn it is. -/
def execRslotPut (f : LLong) (s : State) : Out := runPass (passRslotPut f) s

/-- rslot.get (08 R206, 19 R387): `.st` at once, `.val` and `.map` once the notice is in the device's table. -/
def passRslotGet (f : LLong) : LMean :=
  let ty := f.ty.toNat
  let word := f.mod.toNat / 4
  let w := tyWide ty
  laneMean f 8 (f.mod.toNat % 4 == 2 && word ≤ 2 && (if word = 0 then tysSlot.contains ty else ty == tyB32) && f.b.toNat == 0 &&
      !f.u && f.imm.toNat == 0) [(f.d.toNat, w), (f.a.toNat, true)] []
    (fun e s =>
      match firstLane e.act [fun r => e.peerCheck s (fieldNat (e.pair r f.a.toNat) 11 0)] with
      | some (r, t) => .trap r t
      | none => .ok (e.act.foldl (fun (x : State) r =>
        let h := e.pair r f.a.toNat
        if word = 2 then e.writeV x r false f.d.toNat (match s.noticeOf h with | some n => n.status | none => 0)
        else e.produce x r w f.d.toNat (.notice h (word == 1) (s.devtime + 1000 * (fieldNat h 47 40 + s.fabric.cwtmo))) 0 h []) s) none)
/-- rslot.get: issued by the pass whose turn it is. -/
def execRslotGet (f : LLong) (s : State) : Out := runPass (passRslotGet f) s

/-- rslot.free (08 R206, 19 R387), once per pass -/
def passRslotFree (f : LLong) : LMean :=
  (laneMean f 8 (f.ty.toNat == 0 && f.mod.toNat == 3 && f.d.toNat == 0 && f.b.toNat == 0 && !f.u && f.imm.toNat == 0)
    [(f.a.toNat, true)] []
    (fun e s =>
      let h := e.pair e.first f.a.toNat
      match e.peerCheck s (fieldNat h 11 0) with
      | some t => .trap e.first t
      | none =>
        let s1 : State := { s with fabric := { s.fabric with
          notices := s.fabric.notices.filter (fun n => noticeKey n.handle != noticeKey h) } }
        .ok (s1.enterRouter (coreDie e.core) (e.packet s1 12 (fieldNat h 11 0) h 0 0)) none)).unfused
/-- rslot.free: issued by the pass whose turn it is. -/
def execRslotFree (f : LLong) (s : State) : Out := runPass (passRslotFree f) s

/-! ### Remote enqueue (08 R207, 19 R388) -/

/-- renq (08 R207): held while an earlier record of a lane to the same handle has no answer. -/
def passRenq (f : LLong) : LMean :=
  laneMean f 8 (f.ty.toNat == 0 && f.imm.toNat == 0 && f.mod.toNat == 0 && (!f.u || f.b.toNat < 32))
    ((f.d.toNat, false) :: (f.a.toNat, true) :: bRegs f false false) []
    (fun e s =>
      let handle (r : LaneRef) : Word := e.pair r f.a.toNat
      let rec_ (r : LaneRef) : Nat := e.srcB f false tyB32 r
      let place (r : LaneRef) : Nat := (s.core e.core).redirect (e.agent s).task true (rec_ r)
      let at_ (r : LaneRef) : Word := BitVec.ofNat 64 (rec_ r)
      let checks : List (LaneRef → Option Trap) :=
        [fun r => illegalIf (!bitsIn (handle r).toNat 0xFFFF000000FF0FFF),
         fun r => if bxRangeBad (place r) 64 then some (trapRange (at_ r) .read 64) else none,
         fun r => if rec_ r % 64 ≠ 0 then some (trapAlign (at_ r) .read 64) else none,
         fun r => e.peerCheck s (fieldNat (handle r) 11 0)]
      match firstLane e.act checks with
      | some (r, t) => .trap r t
      | none =>
        let waits (r : LaneRef) : Bool := (s.core e.core).requests.any (fun q =>
          q.want == 14 && q.who == .strand e.part r.slot && q.job == e.gang && q.lane == r.lane && q.pkt.addr == handle r)
        if e.act.any waits then .hold
        else
          let s0 := (slotsOf e.act).foldl (fun (x : State) sl => x.drainStrand e.core e.part sl) s
          let co := s0.core e.core
          match e.act.find? (fun r => co.landBad (place r) 64) with
          | some r => .ok s0 (some (r, trapMem (at_ r) .read false))
          | none => .ok (e.act.foldl (fun (x : State) r =>
              let p := e.packet x 13 (fieldNat (handle r) 11 0) (handle r) 0 0
              e.ask x r false f.d.toNat 14 { p with data := bytesOf 64 (co.landRead (place r) 64) }) s0) none)
/-- renq: issued by the pass whose turn it is. -/
def execRenq (f : LLong) (s : State) : Out := runPass (passRenq f) s

/-! ### Control registers (08 R211) -/

/-- The value of a register for a lane, and the state after. -/
def LEnv.regRead (e : LEnv) (s : State) (r : LaneRef) (n : Nat) : Word × State :=
  let nat (v : Nat) : Word × State := (BitVec.ofNat 64 v, s)
  let j := e.job s
  let x := s.ctx e.core j.ctx
  let ev := (e.strand r).ev
  match n with
  | 0x000 => nat x.numflags.toNat
  | 0x002 => nat (ctxId e.core j.ctx)
  | 0x018 => nat ev.pend.toNat
  | 0x019 => nat ev.mask.toNat
  | 0x01A => (ev.pc, s)
  | 0x01B => (ev.ctl, s)
  | 0x020 => nat s.cycle
  | 0x021 => nat s.devtime
  | 0x030 => nat s.fabric.peer
  | 0x100 => nat r.lane
  | 0x101 => nat (e.strand r).index
  | 0x102 => nat (gangSlots e.pre e.gang).length
  | 0x103 => nat e.part
  | _ =>
    if 0x40 ≤ n ∧ n ≤ 0x43 then nat (s.part e.core (n - 0x40)).hangLimit
    else if 0x80 ≤ n ∧ n ≤ 0x8F then (Tab.get (s.core e.core).mbox 0 (n - 0x80), s)
    else if isSysReg n then s.sysRead (.strand e.core e.part r.slot) x.asid n
    else nat 0

/-- The effect of a legal write of a register by a pass. -/
def LEnv.regWrite (e : LEnv) (s : State) (n : Nat) (v : Word) : State :=
  let sl := e.first.slot
  match n with
  | 0x000 => s.modCtx e.core (e.job s).ctx (fun x => x.clearFlags v)
  | 0x019 => e.modStrand s sl (fun st => { st with ev := { st.ev with mask := v.setWidth 16 } })
  | 0x01A => e.modStrand s sl (fun st => { st with ev := { st.ev with pc := v } })
  | 0x01C => e.modStrand s sl (fun st => { st with ev := st.ev.postSoft v })
  | _ =>
    if 0x40 ≤ n ∧ n ≤ 0x43 then s.setHang e.core (n - 0x40) v
    else if 0x80 ≤ n ∧ n ≤ 0x8F then s.modCore e.core (fun c => { c with mbox := c.mbox.set 0 (n - 0x80) v })
    else if isSysReg n then s.sysWrite (.strand e.core e.part sl) n v
    else s

/-- crd (08 R211) -/
def passLaneCrd (f : LLong) : LMean :=
  let n := f.imm.toNat
  let w := tyWide f.ty.toNat
  laneMean f 8 (tysBits.contains f.ty.toNat && n < 4096 && laneRegOk n && f.a.toNat == 0 && f.b.toNat == 0 && !f.u && f.mod.toNat == 0)
    [(f.d.toNat, w)] []
    (fun e s =>
      if sysReadPriv (e.agent s).priv n then .trap e.first ⟨.priv, 0, 0⟩
      else .ok (e.act.foldl (fun (x : State) r =>
        let v := e.regRead x r n
        if n = 0x021 then e.produce v.2 r w f.d.toNat .value v.1 0 [] else e.writeV v.2 r w f.d.toNat v.1.toNat) s) none)
/-- crd: issued by the pass whose turn it is. -/
def execLaneCrd (f : LLong) (s : State) : Out := runPass (passLaneCrd f) s

/-- cwr (08 R211), once per pass -/
def passLaneCwr (f : LLong) : LMean :=
  let n := f.imm.toNat
  let ty := f.ty.toNat
  (laneMean f 8 (tysBits.contains ty && n < 4096 && laneRegOk n && f.d.toNat == 0 && f.a.toNat == 0 && (!f.u || f.b.toNat < 32) &&
      f.mod.toNat == 0) (bRegs f false (tyWide ty)) []
    (fun e s =>
      let v := BitVec.ofNat 64 (e.srcB f false ty e.first)
      if sysWritePriv (e.agent s).priv n then .trap e.first ⟨.priv, 0, 0⟩
      else if isSysReg n && !sysValueOk n v then .trap e.first trapIllegal
      else if n = 0x208 ∧ s.tlbBusy then .hold
      else .ok (e.regWrite s n v) none)).unfused
/-- cwr: issued by the pass whose turn it is. -/
def execLaneCwr (f : LLong) (s : State) : Out := runPass (passLaneCwr f) s

end Sys2Proof.Machine
end

