-- ==== Sys2Proof/Machine/LaneIssue.lean ====
section
/-! DEFINITION. The strand scheduler of a partition: the active set, the choice and fetch of a pass, fusion, and the
debugger's single step (spec 03 R63 to R74, 22 R426). -/
namespace Sys2Proof.Machine

/-- What a lane pass runs: the meaning of the lane instruction that its words decode to. -/
def laneMeanOf (i : Instr) : Option LMean :=
  match i with
  | .iadd f => some (passIadd f)
  | .isub f => some (passIsub f)
  | .imul f => some (passImul f)
  | .laneAnd f => some (passLaneAnd f)
  | .laneOr f => some (passLaneOr f)
  | .laneXor f => some (passLaneXor f)
  | .laneShl f => some (passLaneShl f)
  | .laneShr f => some (passLaneShr f)
  | .laneSra f => some (passLaneSra f)
  | .imin f => some (passImin f)
  | .imax f => some (passImax f)
  | .mov f => some (passMov f)
  | .lanePopc f => some (passLanePopc f)
  | .laneClz f => some (passLaneClz f)
  | .not f => some (passNot f)
  | .fadd f => some (passFadd f)
  | .fsub f => some (passFsub f)
  | .fmul f => some (passFmul f)
  | .fmin f => some (passFmin f)
  | .fmax f => some (passFmax f)
  | .fabs f => some (passFabs f)
  | .fneg f => some (passFneg f)
  | .dadd f => some (passDadd f)
  | .dsub f => some (passDsub f)
  | .dmul f => some (passDmul f)
  | .laneLdL f => some (passLaneLdL f)
  | .laneStL f => some (passLaneStL f)
  | .exit f => some (passExit f)
  | .laneNop f => some (passLaneNop f)
  | .yield f => some (passYield f)
  | .iaddLong f => some (passIaddLong f)
  | .isubLong f => some (passIsubLong f)
  | .imulLong f => some (passImulLong f)
  | .laneAndLong f => some (passLaneAndLong f)
  | .laneOrLong f => some (passLaneOrLong f)
  | .laneXorLong f => some (passLaneXorLong f)
  | .laneShlLong f => some (passLaneShlLong f)
  | .laneShrLong f => some (passLaneShrLong f)
  | .laneSraLong f => some (passLaneSraLong f)
  | .iminLong f => some (passIminLong f)
  | .imaxLong f => some (passImaxLong f)
  | .movLong f => some (passMovLong f)
  | .lanePopcLong f => some (passLanePopcLong f)
  | .laneClzLong f => some (passLaneClzLong f)
  | .notLong f => some (passNotLong f)
  | .faddLong f => some (passFaddLong f)
  | .fsubLong f => some (passFsubLong f)
  | .fmulLong f => some (passFmulLong f)
  | .fminLong f => some (passFminLong f)
  | .fmaxLong f => some (passFmaxLong f)
  | .fabsLong f => some (passFabsLong f)
  | .fnegLong f => some (passFnegLong f)
  | .daddLong f => some (passDaddLong f)
  | .dsubLong f => some (passDsubLong f)
  | .dmulLong f => some (passDmulLong f)
  | .laneLdLLong f => some (passLaneLdLLong f)
  | .laneStLLong f => some (passLaneStLLong f)
  | .exitLong f => some (passExitLong f)
  | .laneNopLong f => some (passLaneNopLong f)
  | .yieldLong f => some (passYieldLong f)
  | .imulh f => some (passImulh f)
  | .imad f => some (passImad f)
  | .iabs f => some (passIabs f)
  | .ineg f => some (passIneg f)
  | .rot f => some (passRot f)
  | .brev f => some (passBrev f)
  | .bfe f => some (passBfe f)
  | .bfi f => some (passBfi f)
  | .prmt f => some (passPrmt f)
  | .laneSel f => some (passLaneSel f)
  | .setp f => some (passSetp f)
  | .laneLea f => some (passLaneLea f)
  | .movi f => some (passMovi f)
  | .dot4 f => some (passDot4 f)
  | .ffma f => some (passFfma f)
  | .fsetp f => some (passFsetp f)
  | .frcp f => some (passFrcp f)
  | .frsq f => some (passFrsq f)
  | .fsqrt f => some (passFsqrt f)
  | .fexp2 f => some (passFexp2 f)
  | .flog2 f => some (passFlog2 f)
  | .fsin f => some (passFsin f)
  | .fcos f => some (passFcos f)
  | .dfma f => some (passDfma f)
  | .dmin f => some (passDmin f)
  | .dmax f => some (passDmax f)
  | .dsetp f => some (passDsetp f)
  | .drcp f => some (passDrcp f)
  | .cvt f => some (passCvt f)
  | .cvtMx f => some (passCvtMx f)
  | .laneLdG f => some (passLaneLdG f)
  | .laneStG f => some (passLaneStG f)
  | .ldC f => some (passLdC f)
  | .ldt f => some (passLdt f)
  | .stt f => some (passStt f)
  | .ldx f => some (passLdx f)
  | .stx f => some (passStx f)
  | .atom f => some (passAtom f)
  | .atomCas f => some (passAtomCas f)
  | .red f => some (passRed f)
  | .qpush f => some (passQpush f)
  | .qpop f => some (passQpop f)
  | .qlen f => some (passQlen f)
  | .bra f => some (passBra f)
  | .brx f => some (passBrx f)
  | .laneCall f => some (passLaneCall f)
  | .laneRet f => some (passLaneRet f)
  | .join f => some (passJoin f)
  | .gbar f => some (passGbar f)
  | .barv f => some (passBarv f)
  | .barw f => some (passBarw f)
  | .vote f => some (passVote f)
  | .shfl f => some (passShfl f)
  | .matchLanes f => some (passMatchLanes f)
  | .laneFence f => some (passLaneFence f)
  | .lanePhase f => some (passLanePhase f)
  | .laneEvarm f => some (passLaneEvarm f)
  | .laneEvdis f => some (passLaneEvdis f)
  | .wany f => some (passWany f)
  | .laneEvret f => some (passLaneEvret f)
  | .mbsend f => some (passMbsend f)
  | .bxfer f => some (passBxfer f)
  | .rget f => some (passRget f)
  | .ratom f => some (passRatom f)
  | .rslotAlloc f => some (passRslotAlloc f)
  | .rslotPut f => some (passRslotPut f)
  | .rslotGet f => some (passRslotGet f)
  | .rslotFree f => some (passRslotFree f)
  | .renq f => some (passRenq f)
  | .laneFig f => some (passLaneFig f)
  | .fret f => some (passFret f)
  | .laneCrd f => some (passLaneCrd f)
  | .laneCwr f => some (passLaneCwr f)
  | .laneTrap f => some (passLaneTrap f)
  | .laneBrk f => some (passLaneBrk f)
  | .laneFbar f => some (passLaneFbar f)
  | .retiredLaneOpcode w0 w1 => some (passRetiredLaneOpcode w0 w1)
  | _ => none

/-! ### Fetch (22 R426, 03 R73) -/

/-- The key of a held line of code: its address space, the level at which it was fetched (2 for the code of a firmware
figure), and its address. -/
def codeKey (asid level va : Nat) : Nat := (4 * asid + level) * 2 ^ 47 + va / 128

/-- A line of code: its 128 bytes, the state after its fetch, and whether the buffer takes it. -/
structure CodeLine where
  data : BitVec 1024
  keep : Bool
  s    : State

/-- Fetch the line of an address for execution. A held line serves while it stays held, which the core may end at any
time (22 R426); else the line's home value is read through translation, no half of it uncorrectable. -/
def State.fetchLine (s : State) (k asid priv : Nat) (fw : Bool) (held : Tab (BitVec 1024)) (va : Word) : Except Trap CodeLine :=
  let key := codeKey asid (if fw then 2 else priv % 2) va.toNat
  let read : Except Trap CodeLine :=
    match s.translate k asid priv fw .fetch va with
    | .error t => .error t
    | .ok x =>
      if s.lineBad x.pa then .error (trapMem va .fetch false)
      else
        let base := x.pa / 128 * 128
        .ok ⟨BitVec.ofNat 1024 (x.s.mem.read base 128), !s.lineBad base && !s.lineBad (base + 64), { x.s with fresh := s.fresh + 1 }⟩
  match Tab.find held key with
  | none => read
  | some d => if Config.freeBit s.fresh key then .ok ⟨d, false, { s with fresh := s.fresh + 1 }⟩ else read

/-- The code of a gang: its agent, and whether it is a firmware figure's (12 R283). -/
def State.gangAgent (s : State) (k gang : Nat) : Agent × Bool :=
  let j := ((s.core k).job gang).getD default
  let g := s.ctxAgent k j.ctx
  if entryKind j.entry = 3 then ({ g with priv := 0 }, true) else (g, false)

/-- The mask class of a pass by its lane positions, and whether it is fused (03 R73). -/
def maskClass (fused : Bool) (lanes : List Nat) : Nat :=
  if fused then 3 else if lanes.length = 32 then 0 else if lanes.all (fun l => decide (l < 16)) then 1
  else if lanes.all (fun l => decide (16 ≤ l)) then 2 else 4

/-- The words at an address in a run of instructions that starts at `pc`. -/
def wordsAt (pc target : Word) (code : List (W32 × W32)) : Option (W32 × W32) :=
  match code with
  | [] => none
  | w :: r => if pc = target then some w else wordsAt (pc + BitVec.ofNat 64 (laneSize w.1)) target r

/-- The address after the run. -/
def TraceRun.stop (r : TraceRun) : Word := r.code.foldl (fun (a : Word) w => a + BitVec.ofNat 64 (laneSize w.1)) r.pc

/-- Whether an instruction ends a run: a branch (03 R73, 08 R181). -/
def branchWords (w : W32 × W32) : Bool :=
  match decodeLane w.1 w.2 with
  | .ok (.bra _) => true | .ok (.brx _) => true | .ok (.laneCall _) => true | .ok (.laneRet _) => true | _ => false

/-- The words that the trace cache holds for an address and a class (03 R73). -/
def Part.traced (x : Part) (key cls : Nat) (pc : Word) : Option (W32 × W32) :=
  x.trace.findSome? (fun r => if r.key == key && r.cls == cls then wordsAt r.pc pc r.code else none)

/-- The trace cache takes a fetched instruction: it extends a run that ends at it, or begins one; 512 entries, each of at
most 8 instructions and ended by a branch (03 R73). An entry that held the address is replaced. -/
def Part.takeTrace (x : Part) (key cls : Nat) (pc : Word) (w : W32 × W32) : Part :=
  let rs := x.trace.filter (fun r => !(r.key == key && r.cls == cls && (wordsAt r.pc pc r.code).isSome))
  let grows (r : TraceRun) : Bool :=
    r.key == key && r.cls == cls && r.stop == pc && decide (r.code.length < 8) && !(r.code.getLast?.elim false branchWords)
  { x with trace :=
      if rs.any grows then rs.map (fun r => if grows r then { r with code := r.code ++ [w] } else r)
      else (⟨key, cls, pc, [w]⟩ :: rs).take 512 }

/-- Read one word of code at its home value, through translation (03 R73, 22 R426). -/
def State.readCode (s : State) (k asid priv : Nat) (fw : Bool) (va : Word) : Except Trap (W32 × State) :=
  match s.translate k asid priv fw .fetch va with
  | .error t => .error t
  | .ok x => if s.lineBad x.pa then .error (trapMem va .fetch false) else .ok (BitVec.ofNat 32 (x.s.mem.read x.pa 4), x.s)

/-- Fetch the words of the lane instruction at a PC for a pass of a mask class (03 R73, R74); a short form has no second
word. A held run serves while it stays held, which the core may end at any time (22 R426): a free bit. -/
def State.fetchLane (s : State) (k p gang cls : Nat) (pc : Word) : Except Trap (W32 × W32 × State) :=
  let g := s.gangAgent k gang
  let key := 4 * g.1.asid + (if g.2 then 2 else g.1.priv % 2)
  let s0 : State := { s with fresh := s.fresh + 1 }
  if pc.toNat % 4 ≠ 0 then .error (trapAlign pc .fetch 4)
  else match ((s.part k p).traced key cls pc).filter (fun _ => Config.freeBit s.fresh key) with
    | some w => .ok (w.1, w.2, s0)
    | none =>
      match s0.readCode k g.1.asid g.1.priv g.2 pc with
      | .error t => .error t
      | .ok (w0, s1) =>
        if laneSize w0 = 4 then .ok (w0, 0, s1.modPart k p (fun x => x.takeTrace key cls pc (w0, 0)))
        else match s1.readCode k g.1.asid g.1.priv g.2 (pc + 4) with
          | .error t => .error t
          | .ok (w1, s2) => .ok (w0, w1, s2.modPart k p (fun x => x.takeTrace key cls pc (w0, w1)))

/-- What stands at a PC of a gang for a pass of a mask class: the instruction and its meaning, or what fetching or decoding
it raises (04 R82, R84); and the state after the fetch. -/
def State.laneAt (s : State) (k p gang cls : Nat) (pc : Word) : Except Trap (Instr × LMean) × State :=
  match s.fetchLane k p gang cls pc with
  | .error t => (.error t, s)
  | .ok (w0, w1, s1) =>
    match decodeLane w0 w1 with
    | .error _ => (.error trapIllegal, s1)
    | .ok i => (match laneMeanOf i with | some m => .ok (i, m) | none => .error trapIllegal, s1)

/-! ### Ready lanes and passes (03 R61, R64) -/

/-- Place an element before the first of a list that it does not come after. -/
def insertBy {α : Type} (le : α → α → Bool) (x : α) (l : List α) : List α :=
  match l with
  | [] => [x]
  | y :: r => if le x y then x :: y :: r else y :: insertBy le x r

/-- Sort a list, equals in their order. -/
def sortBy {α : Type} (le : α → α → Bool) (l : List α) : List α := l.foldr (insertBy le) []

/-- The lanes of a strand at a PC that wait for nothing; those whose push has been granted issue first, by themselves
(08 R196). -/
def Strand.lanesAt (st : Strand) (pc : Word) : List Nat :=
  let here := st.lanes.filter (fun l => !l.2.exited && l.2.pc == pc)
  let go := here.filter (fun l => l.2.granted)
  (if go.isEmpty then here.filter (fun l => l.2.wait == .none) else go).map Prod.fst

/-- The PCs at which a strand's lanes wait for nothing, lowest first, each once. -/
def Strand.freePcs (st : Strand) : List Word :=
  let pcs := ((st.lanes.filter (fun l => !l.2.exited && (l.2.wait == .none || l.2.granted))).map (fun l => l.2.pc)).eraseDups
  sortBy (fun a b => decide (a.toNat ≤ b.toNat)) pcs

/-- Lanes of a strand at one PC that no pending bit keeps from issuing: its slot, gang, PC and lanes, and what stands
there. -/
structure Subset where
  slot  : Nat
  gang  : Nat
  pc    : Word
  lanes : List Nat
  mean  : Except Trap (Instr × LMean)

/-- The lanes of a pass, in ascending lane number. -/
def passOf (subs : List Subset) : List LaneRef :=
  (List.range 32).flatMap (fun l => (subs.filter (fun b => b.lanes.contains l)).map (fun b => ⟨b.slot, l⟩))

/-- The lanes of a strand at one PC without pending registers; a fault in the fetch or the decoding holds none back. -/
def State.subsetAt (s : State) (k p slot : Nat) (st : Strand) (pc : Word) : Option Subset :=
  let here := st.lanesAt pc
  let x := (s.laneAt k p st.gang (maskClass false here) pc).1
  let ls := here.filter (fun l => match x with | .ok m => !m.2.waits || (st.lane l).issuable m.2 | .error _ => true)
  if ls.isEmpty then none else some ⟨slot, st.gang, pc, ls, x⟩

/-- What would come of the subset's pass by itself. -/
def Subset.try_ (b : Subset) (s : State) (k p : Nat) : PassTry :=
  match b.mean with
  | .error _ => .issues s
  | .ok m => passTry m.2 k p (passOf [b]) s

/-- Whether the subset's pass can issue: its lanes are ready. -/
def Subset.ready (b : Subset) (s : State) (k p : Nat) : Bool := match b.try_ s k p with | .issues _ => true | _ => false

/-- The ready subset of a strand with the lowest PC (03 R64). -/
def State.readySubset (s : State) (k p slot : Nat) (st : Strand) : Option Subset :=
  if st.stopped || st.finished then none
  else st.freePcs.findSome? (fun pc => (s.subsetAt k p slot st pc).filter (fun b => b.ready s k p))

/-! ### The active set (03 R63) -/

/-- Whether a lane that waits for nothing is held by a pending register (03 R61). -/
def State.pendHeld (s : State) (k p : Nat) (st : Strand) (l : Lane) : Bool :=
  match (s.laneAt k p st.gang (maskClass false (st.lanesAt l.pc)) l.pc).1 with
  | .ok m => m.2.waits && !l.issuable m.2
  | .error _ => false

/-- Whether a lane is held by one of the waits that block a strand. A lane held in a phase counts as one with a pending
register, and one in a qpush wait as one in a qpop wait (08 R191, R196). -/
def State.blocks (s : State) (k p : Nat) (st : Strand) (l : Lane) : Bool :=
  match l.wait with
  | .none => s.pendHeld k p st l
  | .join _ => true | .gbar _ => true | .barw _ _ => true | .wany => true | .qpop _ => true | .phase => true
  | .qpush _ g => !g
  | _ => false

/-- Whether a strand is blocked: none of its lanes is ready, and each is held. -/
def State.blocked (s : State) (k p : Nat) (st : Strand) (ready : Bool) : Bool :=
  !ready && !st.stopped && st.lanes.all (fun l => l.2.exited || s.blocks k p st l.2)

/-- The first strand to fill a place: the longest wait, then the lowest slot. -/
def longestWait (cs : List (Nat × Strand)) : Option (Nat × Strand) :=
  cs.foldl (fun (a : Option (Nat × Strand)) e =>
    match a with
    | none => some e
    | some b => if e.2.entered < b.2.entered || (e.2.entered == b.2.entered && e.1 < b.1) then some e else some b) none

/-- Ready pending strands enter the active set while it has a free place. `ready` are the ready slots. -/
def fillPlaces (cycle : Nat) (ready : List Nat) (fuel : Nat) (sts : Tab Strand) : Tab Strand :=
  match fuel with
  | 0 => sts
  | n + 1 =>
    if 8 ≤ (sts.filter (fun e => e.2.active)).length then sts
    else match longestWait (sts.filter (fun e => !e.2.active && ready.contains e.1)) with
      | none => sts
      | some e => fillPlaces cycle ready n (sts.put e.1 { e.2 with active := true, entered := cycle })

/-- The slots of a partition with a ready subset. -/
def State.readySlots (s : State) (k p : Nat) : List Nat :=
  ((s.part k p).strands.filter (fun e => (s.readySubset k p e.1 e.2).isSome)).map Prod.fst

/-- A strand at the start of a cycle: a blocked one leaves the active set; the wait of a pending one that is not ready, and
the run of ready cycles without a pass (03 R69), begin in a later cycle. -/
def State.settleStrand (s : State) (k p : Nat) (st : Strand) (ready : Bool) : Strand :=
  let a : Strand :=
    if st.active then (if s.blocked k p st ready then { st with active := false, entered := s.cycle + 1 } else st)
    else if ready then st else { st with entered := s.cycle + 1 }
  if ready && st.issued + 1 != s.cycle then a else { a with readyAt := if ready then s.cycle else s.cycle + 1 }

/-- The sets of a partition at the start of a cycle (03 R63): blocked strands leave the active set, and ready pending
strands take the free places. -/
def State.settle (s : State) (k p : Nat) : State :=
  let ready := s.readySlots k p
  let sts := (s.part k p).strands.map (fun e => (e.1, s.settleStrand k p e.2 (ready.contains e.1)))
  s.modPart k p (fun x => { x with strands := fillPlaces s.cycle ready sts.length sts })

/-- The strand of the active set that entered it earliest, then the highest slot. -/
def oldestActive (act : List (Nat × Strand)) : Option (Nat × Strand) :=
  act.foldl (fun (a : Option (Nat × Strand)) e =>
    match a with
    | none => some e
    | some b => if e.2.entered < b.2.entered || (e.2.entered == b.2.entered && b.1 < e.1) then some e else some b) none

/-- STRAND_ROTATION (03 R63): the wait of a ready pending strand has reached 128 cycles with no place free. One rotation is
made in a cycle. -/
def execStrandRotation (core part : Nat) (s : State) : Out :=
  let x := s.part core part
  let ready := s.readySlots core part
  let act := x.strands.filter (fun e => e.2.active)
  match longestWait (x.strands.filter (fun e => !e.2.active && ready.contains e.1)), oldestActive act with
  | some w, some o =>
    if act.length < 8 || s.cycle < w.2.entered + 128 || x.rotated == s.cycle + 1 then .fault .notEnabled
    else .next (((s.modStrand core part o.1 (fun y => { y with active := false, entered := s.cycle })).modStrand core part w.1
      (fun y => { y with active := true, entered := s.cycle })).modPart core part (fun y => { y with rotated := s.cycle + 1 }))
  | _, _ => .fault .notEnabled

/-! ### The issue of passes (03 R64 to R67) -/

/-- Whether two subsets may share a pass, what stands there aside (03 R66). -/
def Subset.meets (a b : Subset) : Bool :=
  a.gang == b.gang && a.pc == b.pc && a.lanes.length ≤ 16 && b.lanes.length ≤ 16 && a.lanes.all (fun l => !b.lanes.contains l)

/-- Whether the instruction of a subset is one of R67. -/
def Subset.splits (b : Subset) : Bool := match b.mean with | .ok m => m.2.split | .error _ => false

/-- Whether two subsets are fused (03 R66). -/
def fuses (a b : Subset) : Bool := a.meets b && (match a.mean with | .ok m => !m.2.split | .error _ => false)

/-- A pass to issue: a subset, and the one that is fused with it. -/
abbrev PassUnit := Subset × Option Subset

def PassUnit.subsets (u : PassUnit) : List Subset := u.1 :: u.2.toList

/-- The pairs of fused subsets, those of the lowest slots first: for each subset in slot order, its partner. -/
def pairUp (subs : List Subset) (fuel : Nat) : List PassUnit :=
  match fuel with
  | 0 => []
  | n + 1 =>
    match subs with
    | [] => []
    | a :: r =>
      match r.find? (fuses a) with
      | none => (a, none) :: pairUp r n
      | some b => (a, some b) :: pairUp (r.filter (fun x => x.slot != b.slot)) n

/-- The units of the subsets of a cycle (03 R66, R67): strands fused in their last pass stay fused while the conditions
hold; where they stand at an instruction of R67, the lower strand issues alone in this cycle; all others pair anew. -/
def unitsOf (pairs : List (Nat × Nat)) (subs : List Subset) : List PassUnit :=
  let sub (n : Nat) : Option Subset := subs.find? (fun b => b.slot == n)
  let kept : List (Subset × Subset) := pairs.filterMap (fun q => match sub q.1, sub q.2 with
    | some a, some b => if a.meets b then some (a, b) else none
    | _, _ => none)
  let fused := kept.filter (fun q => fuses q.1 q.2)
  let later := (kept.filter (fun q => q.1.splits)).map (fun q => q.2.slot)
  let taken := fused.flatMap (fun q => [q.1.slot, q.2.slot])
  let rest := subs.filter (fun b => !taken.contains b.slot && !later.contains b.slot)
  fused.map (fun q => (q.1, some q.2)) ++ pairUp rest rest.length

/-- The pairs that stay after a cycle: those fused in it, and those of which neither strand had a subset. -/
def pairsAfter (pairs : List (Nat × Nat)) (subs : List Subset) (units : List PassUnit) : List (Nat × Nat) :=
  units.filterMap (fun u => u.2.map (fun b => (u.1.slot, b.slot))) ++
    pairs.filter (fun q => !subs.any (fun b => b.slot == q.1 || b.slot == q.2))

/-- The cycles for which a pass holds its pipe, by its instruction and its active lanes (07 R155). -/
def passTime (i : Instr) (active : Nat) : Nat :=
  let w64 (ty : BitVec 5) : Nat := if tyWide ty.toNat then 2 else 1
  match i with
  | .imul _ => 1
  | .imulLong f => w64 f.ty
  | .imulh f => w64 f.ty
  | .imad f => w64 f.ty
  | .dot4 _ => 2 | .cvtMx _ => 2
  | .dadd _ => 2 | .dsub _ => 2 | .dmul _ => 2 | .daddLong _ => 2 | .dsubLong _ => 2 | .dmulLong _ => 2
  | .dfma _ => 2 | .dmin _ => 2 | .dmax _ => 2 | .dsetp _ => 2
  | .frcp _ => 4 | .frsq _ => 4 | .fsqrt _ => 4 | .fexp2 _ => 4 | .flog2 _ => 4 | .fsin _ => 4 | .fcos _ => 4
  | .drcp _ => 16
  | .ldx _ => max 1 ((active + 7) / 8)
  | .stx _ => max 1 ((active + 7) / 8)
  | _ => 1

/-- Whether an instruction accesses tile registers or accumulators (08 R209). -/
def tileInstr (i : Instr) : Bool := match i with | .ldt _ => true | .stt _ => true | .laneFig _ => true | _ => false

/-- Whether a pipe of the partition is free in a cycle (03 R65). -/
def Part.pipeFree (x : Part) (cycle i : Nat) : Bool := decide (x.pipes.getD i 0 ≤ cycle)
def Part.pipesFree (x : Part) (cycle : Nat) : Nat := ((List.range 4).filter (x.pipeFree cycle)).length

/-- A pass takes the first free pipe for `n` cycles. -/
def Part.takePipe (x : Part) (cycle n : Nat) : Part :=
  match (List.range 4).find? (x.pipeFree cycle) with
  | none => x
  | some i => { x with pipes := (List.range 4).map (fun j => if j = i then cycle + n else x.pipes.getD j 0) }

/-- Issue one unit: its instruction is fetched for the class of the pass, and takes its pipe. A fault of the fetch or an
encoding that names no instruction stops the gang (03 R73, R81, 04 R84). -/
def PassUnit.issue (u : PassUnit) (k p : Nat) (s : State) : State :=
  let pass := passOf u.subsets
  let b := u.1
  let x := s.laneAt k p b.gang (maskClass u.2.isSome (pass.map (fun r => r.lane))) b.pc
  match x.1 with
  | .error t => x.2.gangTrap k b.gang p (x.2.strand k p b.slot).index (lowestLane pass b.slot) b.pc t.cls t.addr t.det
  | .ok (i, m) =>
    let s1 : State := { x.2 with turn := ⟨k, 0, p, pass⟩ }
    let t := issuePassOf m k p pass s1
    match passTry m k p pass s1 with
    | .issues _ => t.modPart k p (fun y => y.takePipe s.cycle (passTime i (passEnv m k p pass s1).act.length))
    | _ => t

/-- The subsets of the active strands that may issue in this cycle, in slot order: a strand issues one pass in a cycle,
and none before the second cycle after it entered the active set. -/
def State.issuable (s : State) (k p : Nat) : List Subset :=
  (s.part k p).strands.filterMap (fun e =>
    if e.2.active && e.2.entered + 2 ≤ s.cycle && e.2.issued < s.cycle then s.readySubset k p e.1 e.2 else none)

/-- When a unit last issued: a fused pass ranks by the older of its two strands' last issues, which 03 R64 leaves open
(DESIGN CHOICE, log 100). -/
def PassUnit.age (s : State) (k p : Nat) (u : PassUnit) : Nat :=
  let at_ (b : Subset) : Nat := (s.strand k p b.slot).issued
  match u.2 with | none => at_ u.1 | some y => min (at_ u.1) (at_ y)

/-- Put the units that access tiles into ascending slot order in the places that they hold (08 R209). -/
def weave (tiles units : List PassUnit) : List PassUnit :=
  match units with
  | [] => []
  | u :: r =>
    if (match u.1.mean with | .ok m => tileInstr m.1 | .error _ => false) then
      (match tiles with | [] => u :: weave [] r | t :: ts => t :: weave ts r)
    else u :: weave tiles r

/-- The units of a cycle in the order in which they take effect: those that issued least recently first, one to each free
pipe; tile accesses by strand slot. -/
def State.unitsNow (s : State) (k p : Nat) : List PassUnit :=
  let us := unitsOf (s.part k p).pairs (s.issuable k p)
  let go := (sortBy (fun a b => decide (a.age s k p ≤ b.age s k p)) us).take ((s.part k p).pipesFree s.cycle)
  let tiles := go.filter (fun u => match u.1.mean with | .ok m => tileInstr m.1 | .error _ => false)
  weave (sortBy (fun a b => decide (a.1.slot ≤ b.1.slot)) tiles) go

/-- The first subset of an active strand whose push finds no place begins to wait (08 R196), the strands in the order of
R64. -/
def State.pushWait (s : State) (k p : Nat) : Option State :=
  let acts := sortBy (fun (a b : Nat × Strand) => decide (a.2.issued ≤ b.2.issued)) ((s.part k p).strands.filter (fun e =>
    e.2.active && e.2.entered + 2 ≤ s.cycle && e.2.issued < s.cycle && !e.2.stopped && !e.2.finished))
  acts.findSome? (fun e =>
    let subs := e.2.freePcs.filterMap (fun pc => s.subsetAt k p e.1 e.2 pc)
    match subs.find? (fun b => match b.try_ s k p with | .holds => false | _ => true) with
    | some b => (match b.try_ s k p with | .waits t => some t | _ => none)
    | none => none)

/-- Every push that finds no place begins to wait. -/
def State.pushWaits (s : State) (k p fuel : Nat) : State :=
  match fuel with
  | 0 => s
  | n + 1 => match s.pushWait k p with | none => s | some t => t.pushWaits k p n

/-- Whether the partition may still issue its passes of this cycle: it does not hold (23 R432), and the partitions of a core issue in ascending order
(08 R195). -/
def State.mayPass (s : State) (k p : Nat) : Bool :=
  (s.part k p).hold == 0 && !((s.core k).passed.1 == s.cycle + 1 && decide (p < (s.core k).passed.2))

/-- ISSUE_PASS (03 R63 to R67): once in a cycle, the partition issues up to four passes, each at its pipe; the passes of one
cycle all complete, even where one traps its gang (03 R81). -/
def execIssuePass (core part : Nat) (s : State) : Out :=
  if (s.part core part).strands.isEmpty || !s.mayPass core part then .fault .notEnabled
  else
    let s0 := (s.modCore core (fun c => { c with passed := (s.cycle + 1, part + 1) })).pushWaits core part 128
    let us := s0.unitsNow core part
    .next ((us.foldl (fun (x : State) u => u.issue core part x) s0).modPart core part (fun x =>
      { x with pairs := pairsAfter (s0.part core part).pairs (s0.issuable core part) us }))

/-- SINGLE_STEP (03 R72): a strand that a breakpoint has stopped advances by exactly one pass, of its lowest ready PC or
of the PC that the debugger names; it stays stopped, and a trap of the pass adds its record. -/
def execSingleStep (core part slot : Nat) (pc : Option Word) (s : State) : Out :=
  let st := s.strand core part slot
  let run : Strand := { st with stopped := false }
  let brk := (s.core core).ctxs.any (fun e => e.2.recs.any (fun r => r.cls == .break_ && r.inst == some st.gang))
  if (Tab.find (s.part core part).strands slot).isNone || !st.stopped || st.finished || !brk then .fault .notEnabled
  else
    let s1 := s.modJob core st.gang (fun j => { j with err := false })
    let sub := match pc with
      | none => s1.readySubset core part slot run
      | some a => (s1.subsetAt core part slot run a).filter (fun b => b.ready s1 core part)
    match sub with
    | none => .fault .notEnabled
    | some b =>
      .next (((PassUnit.issue (b, none) core part s1).modJob core st.gang (fun j => { j with err := true })).modPart core part (fun x =>
        { x with strands := x.strands.map (fun e => if e.1 == slot then (e.1, { e.2 with stopped := true }) else e) }))

end Sys2Proof.Machine
end

