-- ==== Sys2Proof/Machine/Preempt.lean ====
section
/-! DEFINITION. Pre-emption, device swaps, the save area and its checkpoints (spec 12 R282, 16 R346 to R350, R441, 10
R252). -/
namespace Sys2Proof.Machine

/-! ### The save area of one context (16 R348, R349) -/

/-- The scoreboard state of a register (06 R129), in the order of its table (log 32): a stopped figure's output stays BUSY
(12 R280), and the accumulator of an `mma` that R143 has stopped is POISONED. A `tcfg` that has not completed does not make
a written tile BUSY (13 R291). -/
def scoreState (c : Core) (x : Ctx) (ctx p : Nat) (acc : Bool) (n : Nat) : Nat :=
  let ws := c.jobs.filter (fun j => j.ctx == ctx && j.writes.contains (p, acc, n))
  let busy := ws.any (fun j => match j.fig? with | some (f, _) => f != 0x02 | none => true)
  if acc then
    let poison := ws.any (fun j => j.err && (match j.fig? with | some (f, _) => (mmaForm f).isSome | none => false))
    if poison && x.stopped then 4 else if busy then 2 else if x.acc p n = 0 then 1 else 3
  else
    let tl := x.tile p n
    if busy then 2 else if !tl.reserved then 0 else if tl.written then 3 else if ws.isEmpty then 1 else 2

/-- The bytes of the block `0x0040` to `0x05FF` of a context, as 64-bit words (16 R348). -/
def blockWords (t : Task) (x : Ctx) : List Nat :=
  let full (f : Nat → Bool) (n : Nat) : Nat := (List.range n).foldl (fun a j => if f j then a + 2 ^ j else a) 0
  let slot (j : Nat) : List Nat :=
    let e := x.ev.slotAt j
    [bit e.armed * 2 ^ 63 + bit e.spent * 2 ^ 62 + e.index % 2 ^ 32 * 2 ^ 8 + bit e.mode * 16 + e.src % 16, e.thr.toNat, e.handler.toNat, 0]
  ((List.range 64).map (fun r => (x.getX r).toNat)) ++
  [full x.full 64, full x.getC 16, x.pc.toNat, x.lpstart.toNat, x.trip * 2 ^ 32 + x.next, x.lpctl, x.numflags.toNat] ++
  ((List.range 6).map (fun d => (Tab.get x.ireg 0 d).toNat)) ++ [0, 0, 0] ++
  [x.ev.pend.toNat, x.ev.mask.toNat, x.ev.pc.toNat, x.ev.ctl.toNat] ++
  ((List.range 8).map (fun i => (Tab.get x.shX 0 (56 + i)).toNat)) ++
  [bit x.shC7 + full (fun i => !x.shEmpty.contains (56 + i)) 8 * 256, 0, 0, 0] ++
  ((List.range 16).flatMap slot) ++
  [(t.spawned + 1) % 4096 + t.epoch % 4096 * 2 ^ 16, x.troupe, x.tbar, t.mergedN] ++ List.replicate 20 0

/-- Items of a save area (16 R350): 0 the block below 0x600, 1 to 16 the layout registers, 17 the TCRs and the
scoreboard, then 4 KiB blocks of the operand buffers, accumulator rows, and 4 KiB blocks of Landing and of scratch. -/
def Task.items (t : Task) (i : Nat) : List Nat :=
  List.range 18 ++
  (List.range 4).flatMap (fun p => (List.range ((t.obuf + 3) / 4)).map (fun b => 32 + p * 256 + b)) ++
  (List.range 4).flatMap (fun p => (List.range (t.accs * 128)).map (fun r => 2048 + p * 1024 + r)) ++
  (if t.hasLanding i then
    (List.range ((t.lsize + 4095) / 4096)).map (fun b => 8192 + b) ++ (List.range ((t.gsize + 4095) / 4096)).map (fun b => 16384 + b)
   else [])

/-- An item's offset in the part, and its bytes as the context stands. -/
def State.itemBytes (s : State) (t i k c n : Nat) : Nat × List Byte :=
  let tk := s.task t
  let x := s.ctx k c
  let block (size b : Nat) : Nat := min 4096 (size - b * 4096)
  if n = 0 then
    let p0 := tk.partOffset i
    (8, ([tk.asid * 2 ^ 32 + ctxId k c, tk.topb.toNat, tk.areaSize, p0 + tk.obufOff, p0 + tk.accOff, p0 + tk.landOff, p0 + tk.scratchOff] ++
      blockWords tk x).flatMap (bytesOf 8))
  else if n < 17 then (0x800 + 128 * (n - 1), bytesOf 128 (Tab.get x.y 0 (n - 1)).toNat)
  else if n = 17 then
    (0x1000, ((List.range 128).flatMap (fun q =>
        let tl := Tab.get x.tiles Tile.init q
        bytesOf 8 tl.place.toNat ++ bytesOf 8 tl.shape.toNat ++ bytesOf 8 tl.layout.toNat)) ++
      ((List.range 256).map (fun q =>
        let p := q / 64
        let e := q % 64
        if e < 32 then BitVec.ofNat 8 (bit (x.tile p e).written * 32 + scoreState (s.core k) x c p false e)
        else if e < 40 then BitVec.ofNat 8 (x.acc p (e - 32) * 8 + scoreState (s.core k) x c p true (e - 32))
        else 0)))
  else if n < 2048 then
    let p := (n - 32) / 256
    let b := (n - 32) % 256
    (tk.obufOff + p * tk.obuf * 1024 + b * 4096,
      (s.part k p).obuf.readList (x.obufBase + b * 4096) (block (tk.obuf * 1024) b))
  else if n < 8192 then
    let p := (n - 2048) / 1024
    let r := (n - 2048) % 1024
    let ph := x.accMap.getD (r / 128) 0
    (tk.accOff + (p * tk.accs * 128 + r) * 1024, (List.range 256).flatMap (fun j =>
      bytesOf 4 (Tab.get (s.part k p).acc 0 (ph * 32768 + r % 128 * 256 + j)).toNat))
  else if n < 16384 then
    (tk.landOff + (n - 8192) * 4096, (s.core k).landing.readList (tk.lbase + (n - 8192) * 4096) (block tk.lsize (n - 8192)))
  else
    (tk.scratchOff + (n - 16384) * 4096, (s.core k).landing.readList (tk.gbase + (n - 16384) * 4096) (block tk.gsize (n - 16384)))

/-- Write an item to the save area; its contents are noted as streamed. -/
def State.writeItem (s : State) (t i k c n : Nat) : State :=
  let b := s.itemBytes t i k c n
  (s.homeWrite (s.partBase t i + b.1) b.2).modCtx k c (fun x => { x with saved := x.saved.put n (numOf b.2) })

/-- Whether an item is dirty: something has written it since it was streamed (16 R350). -/
def State.itemDirty (s : State) (t i k c n : Nat) : Bool :=
  Tab.find (s.ctx k c).saved n != some (numOf (s.itemBytes t i k c n).2)

/-- The place of a context among those of its task. -/
def Task.placeOf (t : Task) (k c : Nat) : Option Nat := t.places.findIdx? (fun e => e.1 == k && e.2 == c)

/-- CHECKPOINT_STREAM (16 R350): the streamer writes a dirty item of a running context. -/
def execCheckpointStream (core ctx item : Nat) (s : State) : Out :=
  let x := s.ctx core ctx
  match x.task with
  | none => .fault .notEnabled
  | some t =>
    match (s.task t).placeOf core ctx with
    | none => .fault .notEnabled
    | some i =>
      if !s.ckptEn || !x.running || x.preStop.isSome || !((s.task t).items i).contains item || !s.itemDirty t i core ctx item then
        .fault .notEnabled
      else .next (s.writeItem t i core ctx item)

/-! ### Stopping (16 R346, R347, R441) -/

/-- Whether a context stands at a pre-emption point (16 R346). One that has issued the end of its step and waits for what
the step has issued stands at the step boundary: 13 R293 has it stopped, and its instance killed, there (log 106). -/
def Ctx.atPoint (x : Ctx) : Bool :=
  x.stopped || !x.running || (match x.wait with
    | .loopStop => true | .sync => true | .released => true | .tbar _ => true | .twany _ _ => true | .spawnPark _ => true
    | .prePoint => true | .stepEnd _ => true | _ => false)

/-- The Ferry commands of a context that have not started all their transfers are parked (16 R347). -/
def Chan.park (x : Chan) (t ctx : Nat) : Chan :=
  let mine (c : FCmd) : Bool := c.task == some t && c.ctx == ctx && decide (c.begun < c.count)
  { x with
    cmds := x.cmds.filter (fun c => !mine c)
    parked := x.parked ++ x.cmds.filter mine }

/-- A context stops for a pre-emption or a swap. -/
def State.stopForSave (s : State) (k c : Nat) : State :=
  match (s.ctx k c).task with
  | none => s
  | some t =>
    let s1 := (s.drainCtx k c).modCtx k c (fun x => { x with preStop := some s.cycle })
    s1.modCore k (fun co => { co with chans := co.chans.map (fun e => (e.1, e.2.park t c)) })

/-- Kill an instance (12 R282): its gangs go, its in-out operands are written back, and it waits for the resume. One
that has not started only waits; one that has restarts before any bundle of the context issues. -/
def State.killInst (s : State) (k id : Nat) : State :=
  let started : Bool := match (s.core k).job id with | some j => j.started | none => false
  (if started then s.restartInst k id else s).modJob k id (fun j => { j with killed := true, redo := started })

/-- Whether a job awaits a rendezvous for which a member of its troupe has not issued its figure (06 R127). -/
def State.awaitsMember (s : State) (j : Job) : Bool :=
  j.rdv && (s.task j.task).places.any (fun e => decide ((s.ctx e.1 e.2).troupe < j.rdvNo))

/-- The jobs that cannot go on while a context is stopped: trapped and killed instances, shares of a figure that a stopped
member has yet to issue, and the jobs that wait for one of these (16 R347, 06 R127, R129). -/
def State.stuckJobs (s : State) (k : Nat) : List Nat :=
  let c := s.core k
  c.jobs.foldl (fun (x : List Nat) j =>
    if j.err || j.killed || s.awaitsMember j ||
        (!j.started && c.jobs.any (fun a => x.contains a.id && a.before j && a.holds j (fun _ => true)))
    then j.id :: x else x) []

/-- The outstanding instances of a context, in issue order. -/
def Core.instances (c : Core) (ctx : Nat) : List Job :=
  c.jobs.filter (fun j => j.ctx == ctx && j.parent.isNone && (match j.kind with | .routine .. => true | _ => false))

/-- Whether nothing of a stopped context keeps it from being saved (16 R347): its results have arrived, its hard-engine
jobs have completed or trapped, its instances have completed, trapped or been killed, nothing but what waits for one of
these is left of them, its started transfers have completed, and its records are written. -/
def State.quietForSave (s : State) (k c : Nat) : Bool :=
  let x := s.ctx k c
  let co := s.core k
  x.preStop.isSome && x.results.all (fun r => r.inst.isSome) && x.recs.all (fun r => r.seq.isSome) &&
    co.jobs.all (fun j => j.ctx != c || j.parent.isSome || (s.stuckJobs k).contains j.id || (match j.kind with | .ferry .. => true | _ => false)) &&
    [0, 1, 2, 3].all (fun ch => (co.chan ch).active.all (fun t => t.cmd.task != x.task || t.cmd.ctx != c))

/-- The 512-byte entry of a parked command (16 R348). -/
def parkedEntry (ch : Nat) (c : FCmd) : List Byte :=
  bytesOf 128 c.desc.toNat ++ bytesOf 128 c.src.toNat ++ bytesOf 128 c.dst.toNat ++
    bytesOf 128 (ch + (c.first + c.begun) % 2 ^ 32 * 2 ^ 32 + c.begun * 2 ^ 64 + (c.count - c.begun) * 2 ^ 128)

/-- Write what is still dirty of a context's part, then its records, parked entries and FLAGS (16 R347, R348). -/
def State.writePart (s : State) (t i k c : Nat) : State :=
  let tk := s.task t
  let s1 := (tk.items i).foldl (fun (x : State) n => if x.itemDirty t i k c n then x.writeItem t i k c n else x) s
  let b := s1.partBase t i
  let x := s1.ctx k c
  let recs := (List.range 8).flatMap (fun n => match x.recs[n]? with | some r => r.bytes | none => bytesOf 64 0)
  let answers := (List.range 8).flatMap (fun n => match x.recs[n]? with
    | some r => bytesOf 8 (match r.answer with | some a => answerWord r a | none => 0)
    | none => bytesOf 8 0)
  let parked := [0, 1, 2, 3].flatMap (fun ch =>
    ((s1.chan k ch).parked.filter (fun p => p.task == some t && p.ctx == c)).map (parkedEntry ch))
  let s2 := (s1.homeWrite (b + 0x1D00) recs).homeWrite (b + 0x1F00) answers
  let s3 := s2.homeWrite (b + 0x2000) (parked.take 32).flatten
  let gen := (s3.mem.read (b + 4) 4 + 1) % 2 ^ 32
  s3.homeWrite b (bytesOf 8 (gen * 2 ^ 32 + 3 * 2 ^ 16 + bit x.drain * 8 + bit (!x.recs.isEmpty) * 4 + bit (!parked.isEmpty) * 2 + 1))

/-- The SAVED notice of a task (16 R347). -/
def savedNoticeOf (s : State) (tk : Task) (k c : Nat) : TrapRec :=
  { cls := .savedNotice, engine := 0, eidx := 0, slot := 7, cmd := 0, pc := 0, addr := 0,
    status := BitVec.ofNat 64 (tk.area.getD 0), replay := false, inh := false, privl := tk.priv, asid := tk.asid,
    ctxid := ctxId k c, topb := tk.topb, time := s.devtime, nrec := 0, last := true, inst := none, passed := false,
    seq := none, answer := none, applied := false }

/-- A context as it is saved: what has fired is pending, and its operand latches are cleared (02 R32, R46, 10 R252). -/
def Ctx.forSave (x : Ctx) : Ctx :=
  { x with ev := { x.ev.pass with fresh := 0, since := none }, latches := [], late := [], preNew := false, busy := 0 }

/-- A task is saved (16 R347, R441): the gangs of its trapped instances go with their lane state (log 30), its area is written, its contexts and grants are released, and, unless the device
swapped it out, a SAVED notice is made. -/
def State.saveTask (s : State) (t : Nat) : State :=
  let tk := s.task t
  let ps := tk.places
  let s0 := ps.foldl (fun (x : State) e =>
    ((((x.core e.1).instances e.2).filter (fun j => j.err)).foldl (fun (y : State) j => y.removeGangs e.1 j.id) x).modCtx e.1 e.2
      Ctx.forSave) s
  let s1 := (List.range ps.length).foldl (fun (x : State) i =>
    let e := ps.getD i (0, 0)
    x.writePart t i e.1 e.2) s0
  let saved : List SavedCtx := ps.map (fun e =>
    { c := e.2, ctx := { s1.ctx e.1 e.2 with preReq := false, preStop := none, saved := [] }
      jobs := (s1.core e.1).jobs.filter (fun j => j.ctx == e.2) })
  let s2 := ps.foldl (fun (x : State) e => x.modCore e.1 (fun co => { co with jobs := co.jobs.filter (fun j => j.ctx != e.2) })) s1
  let s3 := (((s2.releaseCtxs t).modTask t (fun x => { x with area := none })).releaseGrants t).modTask t (fun x => { x with
    area := tk.area, saved := saved, cores := [], restore := none, lastCore := (ps.getD 0 (tk.lastCore, 0)).1 })
  if tk.swapped then s3
  else
    let e := ps.getD 0 (0, 0)
    s3.modSpace tk.asid (fun sp => { sp with notices := sp.notices ++ [savedNoticeOf s3 tk e.1 e.2] })

/-- PREEMPT_STOP (16 R347): a context stops at a pre-emption point; once every context of its task has stopped and is
quiet, the task is saved. -/
def execPreemptStop (core ctx : Nat) (s : State) : Out :=
  let x := s.ctx core ctx
  match x.task with
  | none => .fault .notEnabled
  | some t =>
    if x.preSeen && x.preStop.isNone && x.atPoint then .next (s.stopForSave core ctx)
    else if (s.task t).places.all (fun e => s.quietForSave e.1 e.2) then .next (s.saveTask t)
    else .fault .notEnabled

/-- GRACE_EXPIRY (16 R347): the grace period has ended, and the instances of the context that still run are killed; one that
completed in the cycle in which it ended has completed. -/
def execGraceExpiry (core ctx : Nat) (s : State) : Out :=
  match (s.ctx core ctx).preStop with
  | none => .fault .notEnabled
  | some c0 =>
    let js := ((s.core core).instances ctx).filter (fun j => !j.err && !j.killed)
    if js.isEmpty || s.cycle ≤ c0 + s.pregrace then .fault .notEnabled
    else .next (js.foldl (fun (x : State) j => x.killInst core j.id) s)

/-- DEVICE_SWAP (16 R441): every context of a task that holds a step waits; the device begins to swap the task out. -/
def execDeviceSwap (task : Nat) (s : State) : Out :=
  let tk := s.task task
  let waits (x : Ctx) : Bool := !x.stopped && x.preStop.isNone && !x.preReq && (!x.running ||
    (match x.wait with | .spawnPark _ => true | .sync => true | .twany _ _ => true | _ => false))
  if !tk.started || tk.complete || !tk.saved.isEmpty || !tk.places.any (fun e => (s.ctx e.1 e.2).running) ||
      !tk.places.all (fun e => (s.ctx e.1 e.2).task == some task && waits (s.ctx e.1 e.2)) then .fault .notEnabled
  else .next (tk.places.foldl (fun (x : State) e => x.stopForSave e.1 e.2) (s.modTask task (fun x =>
    { x with swapped := true, parkedAt := if tk.places.any (fun e => (s.ctx e.1 e.2).parked) then some s.tick else none })))

/-! ### Restoring (16 R347) -/

/-- Deliver a TIER occurrence to the save area: an indivisible OR into its EVPEND word (10 R252). -/
def State.deliverTier (s : State) (t i slot : Nat) : State :=
  let a := s.partBase t i + 0x2C0
  s.homeWrite a (bytesOf 8 (Nat.lor (s.mem.read a 8) (2 ^ slot)))

/-- SAVED_TIER_DELIVERY (10 R252): the event unit posts a slot of a saved context. -/
def execSavedTierDelivery (task slot : Nat) (s : State) : Out :=
  let tk := s.task task
  match tk.tierDue.find? (fun e => e.2 == slot) with
  | none => .fault .notEnabled
  | some e => .next ((s.deliverTier task e.1 slot).modTask task (fun x => { x with tierDue := x.tierDue.erase e }))

/-- The registers of a context as its save area holds them (16 R348). -/
def readBlock (m : Memory) (b : Nat) (x : Ctx) : Ctx :=
  let w (o : Nat) : Nat := m.read (b + o) 8
  let wd (o : Nat) : Word := BitVec.ofNat 64 (w o)
  let slot (j : Nat) : EvSlot :=
    let d := w (0x340 + 32 * j)
    ⟨natField d 63 63 == 1, natField d 3 0, natField d 39 8, natField d 4 4 == 1, wd (0x348 + 32 * j), wd (0x350 + 32 * j), natField d 62 62 == 1⟩
  let lp := w 0x268
  { x with
    x := (List.range 63).foldl (fun (a : Tab Word) j => Tab.set a 0 (j + 1) (wd (0x48 + 8 * j))) []
    empty := (List.range 64).filter (fun j => j != 0 && w 0x240 / 2 ^ j % 2 == 0)
    c := BitVec.ofNat 16 (w 0x248 % 2 ^ 15), pc := wd 0x250, lpstart := wd 0x258, trip := w 0x260 / 2 ^ 32, next := w 0x260 % 2 ^ 32
    drain := natField lp 10 10 == 1, active := natField lp 9 9 == 1, stages := natField lp 8 6
    numflags := BitVec.ofNat 32 (w 0x270)
    ireg := (List.range 6).foldl (fun (a : Tab Word) d => Tab.set a 0 d (wd (0x278 + 8 * d))) []
    ev := { slots := (List.range 16).foldl (fun (a : Tab EvSlot) j => Tab.set a EvSlot.disarmed j (slot j)) [], pend := BitVec.ofNat 16 (w 0x2C0),
            mask := BitVec.ofNat 16 (w 0x2C8), pc := wd 0x2D0, inh := natField (w 0x2D8) 4 4 == 1, slot := natField (w 0x2D8) 3 0
            coming := 0, fresh := 0, acted := 0, since := none }
    shX := (List.range 8).foldl (fun (a : Tab Word) j => Tab.set a 0 (56 + j) (wd (0x2E0 + 8 * j))) []
    shEmpty := ((List.range 8).filter (fun j => natField (w 0x320) 15 8 / 2 ^ j % 2 == 0)).map (fun j => 56 + j)
    shC7 := w 0x320 % 2 == 1, troupe := w 0x548, tbar := w 0x550
    y := (List.range 16).foldl (fun (a : Tab (BitVec 1024)) n => Tab.set a 0 n (BitVec.ofNat 1024 (m.read (b + 0x800 + 128 * n) 128))) []
    tiles := (List.range 128).foldl (fun (a : Tab Tile) q =>
      let sb := m.read (b + 0x1C00 + q / 32 * 64 + q % 32) 1
      let o := 0x1000 + 24 * q
      -- a BUSY tile is reserved as its last issued access has left it
      Tab.set a Tile.init q ⟨wd o, wd (o + 8), wd (o + 16),
        (if natField sb 2 0 = 2 then (Tab.get x.tiles Tile.init q).reserved else natField sb 2 0 != 0), natField sb 5 5 == 1⟩) []
    accs := (List.range 32).foldl (fun (a : Tab Nat) q =>
      Tab.set a 0 q (natField (m.read (b + 0x1C00 + q / 8 * 64 + 32 + q % 8) 1) 4 3)) [] }

/-- Write back the operand buffers, accumulators, Landing and scratch grants of a part (16 R347). -/
def State.readGrants (s : State) (t i k : Nat) (x : Ctx) : State :=
  let tk := s.task t
  let b := s.partBase t i
  let s1 := [0, 1, 2, 3].foldl (fun (y : State) p => y.modPart k p (fun q => { q with
    obuf := q.obuf.writeList x.obufBase (y.mem.readList (b + tk.obufOff + p * tk.obuf * 1024) (tk.obuf * 1024))
    badObuf := q.badObuf.filter (fun o => !(x.obufBase ≤ o && o < x.obufBase + tk.obuf * 1024))
    acc := (List.range (tk.accs * 32768)).foldl (fun (a : Tab W32) e =>
      a.set 0 (x.accMap.getD (e / 32768) 0 * 32768 + e % 32768)
        (BitVec.ofNat 32 (y.mem.read (b + tk.accOff + (p * tk.accs * 32768 + e) * 4) 4))) q.acc
    badAcc := q.badAcc.filter (fun r => !x.accMap.contains (r / 128)) })) s
  if tk.hasLanding i then
    s1.modCore k (fun c =>
      let c1 := if tk.lsize = 0 then c else c.landWrite tk.lbase (s1.mem.readList (b + tk.landOff) tk.lsize)
      if tk.gsize = 0 then c1 else c1.landWrite tk.gbase (s1.mem.readList (b + tk.scratchOff) tk.gsize))
  else s1

/-- The loop engine resumes a context that stopped at a loop end (02 R53). -/
def Ctx.refill (x : Ctx) : Ctx :=
  { x with c := x.c ||| 0x100, next := x.next + 1, drain := false, pc := x.lpstart, wait := .none }

/-- A saved context takes its place again: registers, grants, jobs and parked commands (16 R347). `base` renumbers its
jobs. -/
def State.restoreCtx (s : State) (t i k c : Nat) (sv : SavedCtx) (oldCore : Nat) : State :=
  let base := (s.core k).nextJob
  let new := s.ctx k c
  let x0 := readBlock s.mem (s.partBase t i) sv.ctx
  let up (o : Option Nat) : Option Nat := o.map (fun n => base + n)
  let x1 : Ctx := { x0 with
    obufBase := new.obufBase, obufSize := new.obufSize, accMap := new.accMap, preReq := false, preStop := none
    results := x0.results.map (fun r => { r with inst := up r.inst })
    recs := x0.recs.map (fun r => if r.engine = 5 then r else { r with inst := up r.inst })
    numflags := x0.numflags ||| (s.task t).savedFlags
    wait := match x0.wait with | .prePoint => .none | .emulated n => .emulated (base + n) | w => w }
  let x2 := if x1.wait = .loopStop then x1.refill else x1
  -- the job of a Ferry command that `fstop` has cancelled while it was parked is over
  let held (j : Job) : Bool := match j.kind with
    | .ferry ch _ _ => (((s.core oldCore).chan ch).parked).any (fun p => p.task == some t && p.ctx == sv.c && p.job == j.id)
    | _ => true
  let top := sv.jobs.foldl (fun m j => max m (j.id + 1)) 0
  let s1 := (s.setCtx k c x2).modCore k (fun co => { co with
    jobs := co.jobs ++ (sv.jobs.filter held).map (fun j => { j with id := base + j.id, ctx := c, parent := up j.parent, killed := false })
    nextJob := base + top })
  let s2 := s1.readGrants t i k x2
  -- the parked commands lie in the channels of the core the task left
  s2.modCore oldCore (fun co => { co with chans := co.chans.map (fun e =>
    let mine (p : FCmd) : Bool := p.task == some t && p.ctx == sv.c
    (e.1, { e.2 with
      cmds := ((e.2.parked.filter mine).map (fun p => { p with ctx := c, job := base + p.job })).foldr insertCmd e.2.cmds
      parked := e.2.parked.filter (fun p => !mine p) })) })

/-- A saved task is restored at a place (16 R347): its grants, its contexts, the implicit phase.a (11 R259), and the held
answers. -/
def State.restoreTask (s : State) (t : Nat) (gs : List (Nat × List (Nat × Nat × List Nat))) : State :=
  let tk := s.task t
  let s0 := tk.tierDue.foldl (fun (x : State) e => x.deliverTier t e.1 e.2) s
  let olds := tk.places
  let s1 := s0.takeGrants t gs (fun _ _ b zs => takenCtx t tk b zs)
  let news := (s1.task t).places
  let ix := List.range (min tk.saved.length news.length)
  let s2 := ix.foldl (fun (x : State) i =>
    let e := news.getD i (0, 0)
    x.restoreCtx t i e.1 e.2 (tk.saved.getD i default) (olds.getD i (0, 0)).1) s1
  let moved (e : Nat × Nat) : Nat × Nat := match olds.findIdx? (fun o => o == e) with | some i => news.getD i e | none => e
  let blk := s0.mem.read (s0.partBase t 0 + 0x540) 8
  let spawned := (blk % 4096 + 4095) % 4096
  let core (k : Nat) : Nat := match olds.findIdx? (fun o => o.1 == k) with | some i => (news.getD i (k, 0)).1 | none => k
  let s2' := (s0.children t).foldl (fun (x : State) ch => x.modTask ch (fun y => { y with spawnCore := core y.spawnCore })) s2
  let s3 := s2'.modTask t (fun x => { x with
    spawned := spawned, epoch := (if natField blk 27 16 = 0 then 4096 else natField blk 27 16)
    saved := [], swapped := false, restore := none, tierDue := [], savedFlags := 0
    stepOf := x.stepOf.map (fun e => let m := moved (e.1, e.2.1); (m.1, m.2, e.2.2)), ended := x.ended.map moved })
  let s4 := (news.map Prod.fst).eraseDups.foldl (fun (x : State) k => x.snap k) s3
  news.foldl (fun (x : State) e => if (x.ctx e.1 e.2).recs.isEmpty then x else x.applyAnswers e.1 e.2 9) s4

/-- TASK_RESTORE (16 R347, R441): the dispatcher takes a saved task whose turn it is. -/
def execTaskRestore (task : Nat) (s0 : State) : Out :=
  let tk := s0.task task
  let die := match tk.restore with | some (d, _) => d | none => tk.lastCore / 36
  let s := s0.examineHeads die
  let hs := s.openHeads die
  if tk.saved.isEmpty || hs.any (fun h => s.headCause die h != 0) then .fault .notEnabled
  else match s.chooseHead die hs with
    | none => .fault .notEnabled
    | some (h, ps) =>
      if h.kind ≠ 0 || h.task ≠ task then .fault .notEnabled
      else match s.headFits die h with
        | none => .fault .notEnabled
        | some gs => .next ((((s.restoreTask task gs).leaveHead 0 task).modTask task (fun x => { x with die := die })).modDie die (fun d => d.passOver h ps))

/-- PREEMPT_WRITE (16 R346): a write of PREEMPT. -/
def execPreemptWrite (issuer : Issuer) (value : Word) (s : State) : Out :=
  .next (s.regWrite issuer 0x20A value)

end Sys2Proof.Machine
end

