-- ==== Sys2Proof/Machine/ScalarCtl.lean ====
section
/-! DEFINITION. The scalar operations of loops, control transfer, steps and tasks, events, control registers, ordering and
breaks (spec 05 R109 to R124). -/
namespace Sys2Proof.Machine

/-- Change the context of a slot. -/
def SEnv.modCtx (env : SEnv) (s : State) (f : Ctx → Ctx) : State := s.modCtx env.core env.ctx f

/-- The context waits after its bundle has issued. -/
def SEnv.await (env : SEnv) (s : State) (w : CtxWait) : State := env.modCtx s (fun c => { c with wait := w })

/-! ### Loops and control transfer (05 R109, R110) -/

/-- lpset (05 R109, 02 R52) -/
def slotLpset (f : SFields) (env : SEnv) (s : State) : SlotRes :=
  let st := (sImmU f).toNat
  scalarOp .none .x .none (st != 0 && st < 8 && !env.pre.active && !env.lend) false f env s (fun a _ =>
    if 2 ^ 32 ≤ a.toNat then .trap trapIllegal
    else .done (env.modCtx s (fun c =>
      let go := a.toNat != 0
      { c with
        trip := a.toNat, stages := st, lpstart := env.pre.pc + 32, c := (c.c &&& 0x80FF) ||| (if go then 0x100 else 0),
        next := bit go, active := go })))
/-- lpset, issued alone. -/
def execLpset (f : SFields) (s : State) : Out := issueOne 0 (slotLpset f) s

/-- Whether a control transfer is illegal at a loop end (05 R110). -/
def SEnv.transferBad (env : SEnv) : Bool := env.lend && env.pre.active

/-- The target of a transfer: the bundle's own address where sa is 0, else x[sa], plus a count of bundles. -/
def SEnv.target (env : SEnv) (f : SFields) (a : Word) : Word :=
  (if f.sa.toNat = 0 then env.pre.pc else a) + 32 * sImmS f

/-- call (05 R110) -/
def slotCall (f : SFields) (env : SEnv) (s : State) : SlotRes :=
  scalarOp .x .x .none (!env.transferBad) false f env s (fun a _ =>
    .ok (env.writeX s f.dst.toNat (env.pre.pc + 32)) (some (env.target f a)) none)
/-- call, issued alone. -/
def execCall (f : SFields) (s : State) : Out := issueOne 0 (slotCall f) s

/-- ret (05 R110) -/
def slotRet (f : SFields) (env : SEnv) (s : State) : SlotRes :=
  scalarOp .none .x .none ((sImmU f).toNat == 0 && !env.transferBad) false f env s (fun a _ => .ok s (some a) none)
/-- ret, issued alone. -/
def execRet (f : SFields) (s : State) : Out := issueOne 0 (slotRet f) s

/-- jmpx (05 R110) -/
def slotJmpx (f : SFields) (env : SEnv) (s : State) : SlotRes :=
  scalarOp .none .x .none (!env.transferBad) false f env s (fun a _ => .ok s (some (env.target f a)) none)
/-- jmpx, issued alone. -/
def execJmpx (f : SFields) (s : State) : Out := issueOne 0 (slotJmpx f) s

/-! ### Steps and tasks (05 R111 to R115) -/

/-- Whether the wait of sync has ended for the bundle (05 R114): no child is left to merge, or it has been released. -/
def SEnv.synced (env : SEnv) (s : State) : Bool :=
  env.pre.wait == .released || (match env.pre.task with | some t => s.allMerged t | none => true)

/-- The state after the wait of sync: a bundle that found nothing to wait for is released as it issues. -/
def SEnv.afterSync (env : SEnv) (s : State) : State :=
  if env.pre.wait = .released then s
  else match env.pre.task with | some t => s.releaseSync env.core t | none => s

/-- The end of a step (05 R111): legal outside loops and handlers; it performs the wait of sync first (14 R298). -/
def stepEnder (ok : Bool) (kind : Nat) (f : SFields) (env : SEnv) (s : State) : SlotRes :=
  scalarOp .none .none .none (ok && !env.pre.active && !env.pre.ev.inh) false f env s (fun _ _ =>
    if !env.synced s then .hold (env.await s .sync)
    else
      let s1 := env.await (env.afterSync s) (.stepEnd kind)
      .done (match env.pre.task with
        | some t => s1.modTask t (fun x => { x with stopStep := x.stopStep || kind != 0 })
        | none => s1))

/-- Whether the context's task is a spawned child. -/
def SEnv.isChild (env : SEnv) (s : State) : Bool :=
  match env.pre.task with | some t => (s.task t).parent.isSome | none => false

/-- snext (05 R111): every field but op and guard is unused, imm with them. -/
def slotSnext (f : SFields) (env : SEnv) (s : State) : SlotRes := stepEnder (f.imm.toNat == 0) 0 f env s
/-- snext, issued alone. -/
def execSnext (f : SFields) (s : State) : Out := issueOne 0 (slotSnext f) s

/-- tend (05 R114): no further step of the task starts. -/
def slotTend (f : SFields) (env : SEnv) (s : State) : SlotRes := stepEnder (!env.isChild s) 1 f env s
/-- tend, issued alone. -/
def execTend (f : SFields) (s : State) : Out := issueOne 0 (slotTend f) s

/-- merge (05 R114): it ends the child. -/
def slotMerge (f : SFields) (env : SEnv) (s : State) : SlotRes := stepEnder (env.isChild s) 2 f env s
/-- merge, issued alone. -/
def execMerge (f : SFields) (s : State) : Out := issueOne 0 (slotMerge f) s

/-- sync (05 R114): the context waits at the bundle until every child has merged (10 R250, 14 R314, log 29). -/
def slotSync (f : SFields) (env : SEnv) (s : State) : SlotRes :=
  scalarOp .none .none .none true false f env s (fun _ _ =>
    if !env.synced s then .hold (env.await s .sync) else .done (env.afterSync s))
/-- sync, issued alone. -/
def execSync (f : SFields) (s : State) : Out := issueOne 0 (slotSync f) s

/-- The contexts of a troupe (14 R301). -/
def State.troupeCtxs (s : State) (c : Ctx) : List (Nat × Nat) := match c.task with | some t => (s.task t).places | none => []

/-- Release the members of a troupe that wait in barrier generation `k`, once every member has issued it (05 R115). -/
def State.tryTbar (s : State) (ms : List (Nat × Nat)) (k : Nat) : State :=
  if ms.all (fun m => decide (k ≤ (s.ctx m.1 m.2).tbar)) then
    ms.foldl (fun (x : State) m => x.modCtx m.1 m.2 (fun c =>
      { c with wait := if c.wait == .tbar k then .none else c.wait, held := if c.held == .tbar k then .none else c.held })) s
  else s

/-- tbar (05 R115): the member's scalar Landing accesses are performed before it counts as arrived. -/
def slotTbar (f : SFields) (env : SEnv) (s : State) : SlotRes :=
  scalarOp .none .none .none (s.inTroupe env.pre) false f env s (fun _ _ =>
    let k := env.pre.tbar + 1
    .done ((env.modCtx (s.drainCtx env.core env.ctx) (fun c => { c with tbar := k, wait := .tbar k })).tryTbar (s.troupeCtxs env.pre) k))
/-- tbar, issued alone. -/
def execTbar (f : SFields) (s : State) : Out := issueOne 0 (slotTbar f) s

/-- The address checks of a TOPB at a spawn (05 R112). -/
def spawnCheck (env : SEnv) (s : State) (a : Word) : Option Trap :=
  if a.toNat / 2 ^ 54 ≠ 0 then some (trapPage a 3 .read 0)
  else if a.toNat % 256 ≠ 0 then some (trapAlign a .read 256)
  else match s.xlate (s.ctxAgent env.core env.ctx) .read a with
    | .error t => some t
    | .ok _ => none

/-- The state after the translation of a TOPB. -/
def spawnXlated (env : SEnv) (s : State) (a : Word) : State :=
  match s.xlate (s.ctxAgent env.core env.ctx) .read a with | .error _ => s | .ok x => x.s

/-- Whether a task has spawned 4,095 children (05 R112). -/
def SEnv.spawnedOut (env : SEnv) (s : State) : Bool :=
  match env.pre.task with | some t => 4095 ≤ (s.task t).spawned | none => true

/-- spawn (05 R112): a full pool parks the context at the bundle. -/
def slotSpawn (f : SFields) (env : SEnv) (s : State) : SlotRes :=
  scalarOp .x .x .none (!env.spawnedOut s) false f env s (fun a _ =>
    match spawnCheck env s a with
    | some t => .trap t
    | none =>
      let t := env.pre.task.getD 0
      if !s.poolRoom (coreDie env.core) t then .hold (env.await s (.spawnPark env.slot))
      else
        let s1 := (spawnXlated env s a).enterChild t env.core a
        .done (env.produce s1 f.dst.toNat (BitVec.ofNat 64 (s1.task t).spawned) 0 []))
/-- spawn, issued alone. -/
def execSpawn (f : SFields) (s : State) : Out := issueOne 0 (slotSpawn f) s

/-- spawn.nb (05 R113): the child enters the pool as the bundle issues, under R112; where the pool is full none does. The
die's answer arrives later (SPAWN_ANSWER). -/
def slotSpawnNb (f : SFields) (env : SEnv) (s : State) : SlotRes :=
  let n := (sImmU f).toNat
  scalarOp .x .x .none (n < 8 && !env.spawnedOut s) false f env s (fun a _ =>
    match spawnCheck env s a with
    | some t => .trap t
    | none =>
      let r := f.dst.toNat
      let t := env.pre.task.getD 0
      let room := s.poolRoom (coreDie env.core) t
      let s1 := if room then (spawnXlated env s a).enterChild t env.core a else spawnXlated env s a
      let ix := if room then (s1.task t).spawned else 0
      .done (env.modCtx s1 (fun c => { (c.markEmpty r).dropLatch 2 r with results := c.results ++
        [⟨r, c.ev.inh && 56 ≤ r, BitVec.ofNat 64 ix, some (env.pre.cName n), some a, none, [], 0, env.pre.pc, env.slot, env.pre.cmd⟩] })))
/-- spawn.nb, issued alone. -/
def execSpawnNb (f : SFields) (s : State) : Out := issueOne 0 (slotSpawnNb f) s

/-! ### Events (05 R116 to R118) -/

/-- evarm (05 R116) -/
def slotEvarm (f : SFields) (env : SEnv) (s : State) : SlotRes :=
  scalarOp .raw .x .x (f.dst.toNat < 16) false f env s (fun a b =>
    if !evDescOk false a b then .trap trapIllegal
    else .done (env.modCtx s (fun c => { c with ev := c.ev.arm f.dst.toNat a b (env.pre.pc + 32 * sImmS f) })))
/-- evarm, issued alone. -/
def execEvarm (f : SFields) (s : State) : Out := issueOne 0 (slotEvarm f) s

/-- evdis (05 R116): of two instructions of a bundle on one slot, the later leaves its state (10 R247). -/
def slotEvdis (f : SFields) (env : SEnv) (s : State) : SlotRes :=
  scalarOp .raw .none .none (f.dst.toNat < 16) false f env s (fun _ _ =>
    if !((s.ctx env.core env.ctx).ev.slotAt f.dst.toNat).armed then .done s
    else .done { env.modCtx s (fun c => { c with ev := c.ev.disarm f.dst.toNat (Config.freeWord s.fresh) }) with
      fresh := s.fresh + 1 })
/-- evdis, issued alone. -/
def execEvdis (f : SFields) (s : State) : Out := issueOne 0 (slotEvdis f) s

/-- twany (05 R117) -/
def slotTwany (f : SFields) (env : SEnv) (s : State) : SlotRes :=
  let l := f.imm &&& env.pre.ev.armedMask
  scalarOp .none .none .none (l != 0 && !env.pre.ev.inh && !env.branch) false f env s (fun _ _ =>
    let p := env.pre.ev.ready l
    .done (env.await s (if p != 0 then .enter (lowestBit p) (env.pre.pc + 32) else .twany l (env.pre.pc + 32))))
/-- twany, issued alone. -/
def execTwany (f : SFields) (s : State) : Out := issueOne 0 (slotTwany f) s

/-- evret (05 R118) -/
def slotEvret (f : SFields) (env : SEnv) (s : State) : SlotRes :=
  scalarOp .none .none .none (env.pre.ev.inh && !env.branch) false f env s (fun _ _ =>
    .done (env.await s .evret))
/-- evret, issued alone. -/
def execEvret (f : SFields) (s : State) : Out := issueOne 0 (slotEvret f) s

/-! ### Control registers (05 R119, R121) -/

/-- crd (05 R121): the value is that before the bundle (02 R43); DEVTIME is slow. -/
def slotCrd (f : SFields) (env : SEnv) (s : State) : SlotRes :=
  let n := (sImmU f).toNat
  scalarOp .x .none .none (n < 4096 && ctxRegOk n) (sysReadPriv env.pre.priv n) f env s (fun _ _ =>
    let v := (env.s0.ctxRegRead env.core env.ctx env.pre n).1
    let s1 := (s.ctxRegRead env.core env.ctx env.pre n).2
    if n = 0x021 then .done (env.produce s1 f.dst.toNat v 0 []) else .done (env.writeX s1 f.dst.toNat v))
/-- crd, issued alone. -/
def execCrd (f : SFields) (s : State) : Out := issueOne 0 (slotCrd f) s

/-- cwr (05 R121); TLBINV holds the bundle while an invalidation is in progress (16 R338). -/
def slotCwr (f : SFields) (env : SEnv) (s : State) : SlotRes :=
  let n := (sImmU f).toNat
  scalarOp .none .x .none (n < 4096 && ctxRegOk n) (sysWritePriv env.pre.priv n) f env s (fun a _ =>
    if isSysReg n && !sysValueOk n a then .trap trapIllegal
    else if n = 0x208 ∧ s.tlbBusy then .hold s
    else .done (s.ctxRegWrite env.core env.ctx n a))
/-- cwr, issued alone. -/
def execCwr (f : SFields) (s : State) : Out := issueOne 0 (slotCwr f) s

/-! ### Ordering, fetch barrier, breaks (05 R122 to R124) -/

/-- phase (05 R122) -/
def slotPhase (f : SFields) (env : SEnv) (s : State) : SlotRes :=
  let n := (sImmU f).toNat
  scalarOp .none .none .none (1 ≤ n && n ≤ 3) false f env s (fun _ _ =>
    .done (env.await (s.beginPhase env.core (n % 2 == 1) (decide (2 ≤ n)) (.ctx env.ctx) []) .phase))
/-- phase, issued alone. -/
def execPhase (f : SFields) (s : State) : Out := issueOne 0 (slotPhase f) s

/-- fence (05 R122, 11 R261): the Landing stores and `catm`s that the context has issued are served at their banks; its other
accesses have been performed as they issued (log 20). -/
def slotFence (f : SFields) (env : SEnv) (s : State) : SlotRes :=
  scalarOp .none .none .none ((sImmU f).toNat == 0) false f env s (fun _ _ => .done (s.drainCtx env.core env.ctx))
/-- fence, issued alone. -/
def execFence (f : SFields) (s : State) : Out := issueOne 0 (slotFence f) s

/-- fbar (05 R123) -/
def slotFbar (f : SFields) (env : SEnv) (s : State) : SlotRes :=
  scalarOp .none .none .none true false f env s (fun _ _ => .done (s.fetchBarrier env.core))
/-- fbar, issued alone. -/
def execFbar (f : SFields) (s : State) : Out := issueOne 0 (slotFbar f) s

/-- brk and trap (05 R124): BREAK at issue, with n and the kind in its status. -/
def breaker (kind : Nat) (f : SFields) (env : SEnv) (s : State) : SlotRes :=
  scalarOp .none .none .none true false f env s (fun _ _ => .trap ⟨.break_, 0, kind * 65536 + f.imm.toNat⟩)

/-- brk (05 R124) -/
def slotBrk (f : SFields) (env : SEnv) (s : State) : SlotRes := breaker 0 f env s
/-- brk, issued alone. -/
def execBrk (f : SFields) (s : State) : Out := issueOne 0 (slotBrk f) s

/-- trap (05 R124) -/
def slotTrap (f : SFields) (env : SEnv) (s : State) : SlotRes := breaker 1 f env s
/-- trap, issued alone. -/
def execTrap (f : SFields) (s : State) : Out := issueOne 0 (slotTrap f) s

/-- nop (05 R124): its fields are never checked. -/
def slotNop (_f : SFields) (_env : SEnv) (s : State) : SlotRes := .done s
/-- nop, issued alone. -/
def execNop (f : SFields) (s : State) : Out := issueOne 0 (slotNop f) s

end Sys2Proof.Machine
end

