-- ==== Sys2Proof/Machine/ScalarMem.lean ====
section
/-! DEFINITION. The scalar Landing, global and counter instructions (spec 05 R102 to R108). -/
namespace Sys2Proof.Machine

/-- The effective address: a plus the sign-extended immediate (05 R102, R104). -/
def scalarEa (f : SFields) (a : Word) : Word := a + sImmS f

/-- The place of a Landing address of a context, after view redirection (14 R308). -/
def SEnv.place (env : SEnv) (s : State) (a : Nat) : Nat × Nat := (s.core env.core).landByteAt env.core env.pre.task a

/-- A context's own stores that wait at a bank of core `m` are served, before a later access of it there (09 R216, 11 R260). -/
def State.ownStores (s : State) (k c m bank : Nat) : State :=
  let mine (q : BankReq) : Bool := q.core == k && q.ctx == some c && q.bank == bank
  if (s.core m).bankQ.any mine then s.drainBanks mine else s

/-- Extend a loaded value of `n` bytes to 64 bits. -/
def extend64 (n : Nat) (sgn : Bool) (v : Nat) : Word :=
  BitVec.ofNat 64 (if sgn then ofSigned 64 (toSigned (8 * n) v) else v)

/-- ld.l (05 R102, R103): the checks, the footprints (R106), the value, which the context's own earlier stores at its bank
precede. Uncorrectable data is found after issue, and leaves the destination as it was. -/
def loadSlotL (n : Nat) (sgn : Bool) (f : SFields) (env : SEnv) (s : State) : SlotRes :=
  scalarOp .x .x .none true false f env s (fun a _ =>
    let ea := scalarEa f a
    match landCheck env.core ea.toNat n .read with
    | .error t => .trap t
    | .ok _ =>
      if (s.core env.core).footHolds env.ctx true false ea.toNat (ea.toNat + n - 1) then .hold s
      else
        let pl := env.place s ea.toNat
        let s1 := s.ownStores env.core env.ctx pl.1 (bankOf pl.2)
        if (s1.core pl.1).landBad pl.2 n then .ok s1 none (some (trapMem ea .read false))
        else .done (env.writeX s1 f.dst.toNat (extend64 n sgn ((s1.core pl.1).landRead pl.2 n))))

/-- st.l (05 R102, R103): the bytes wait at their bank, as the lowest class (09 R217, R218). -/
def storeSlotL (n : Nat) (f : SFields) (env : SEnv) (s : State) : SlotRes :=
  scalarOp .none .x .x true false f env s (fun a b =>
    let ea := scalarEa f a
    match landCheck env.core ea.toNat n .write with
    | .error t => .trap t
    | .ok _ =>
      if (s.core env.core).footHolds env.ctx true true ea.toNat (ea.toNat + n - 1) then .hold s
      else
        let pl := env.place s ea.toNat
        .done (s.bankPut pl.1 ⟨bankOf pl.2, 5, none, env.core, some env.ctx, 0, [], [(pl.2, bytesOf n b.toNat)]⟩))

/-- The checks of a global access before translation (05 R104). -/
def globalCheck (ea : Word) (n : Nat) (acc : Access) : Option Trap :=
  if ea.toNat / 2 ^ 54 ≠ 0 then some (trapPage ea 3 acc 0)
  else if ea.toNat % n ≠ 0 then some (trapAlign ea acc n) else none

/-- ld.g (05 R104, R105): a long-latency producer of the value of the core's view. -/
def loadSlotG (n : Nat) (sgn : Bool) (f : SFields) (env : SEnv) (s : State) : SlotRes :=
  scalarOp .x .x .none true false f env s (fun a _ =>
    let ea := scalarEa f a
    match globalCheck ea n .read with
    | some t => .trap t
    | none =>
      if (s.core env.core).footHolds env.ctx false false ea.toNat (ea.toNat + n - 1) then .hold s
      else match s.loadG (s.ctxAgent env.core env.ctx) ea n with
        | .error t => .trap t
        | .ok (v, lines, s1) => .done (env.produce s1 f.dst.toNat (extend64 n sgn v) ea lines))

/-- st.g (05 R104). -/
def storeSlotG (n : Nat) (f : SFields) (env : SEnv) (s : State) : SlotRes :=
  scalarOp .none .x .x true false f env s (fun a b =>
    let ea := scalarEa f a
    match globalCheck ea n .write with
    | some t => .trap t
    | none =>
      if (s.core env.core).footHolds env.ctx false true ea.toNat (ea.toNat + n - 1) then .hold s
      else match s.storeG (s.ctxAgent env.core env.ctx) (.ctx env.ctx, 0) ea n b.toNat with
        | .error t => .trap t
        | .ok s1 => .done s1)

/-- catm (05 R107): add to a counter of the local window, in one step. -/
def slotCatm (f : SFields) (env : SEnv) (s : State) : SlotRes :=
  scalarOp .x .x .x true false f env s (fun a b =>
    let ea := scalarEa f a
    if 0xFFF < ea.toNat then .trap (trapRange ea .atomic 8)
    else if ea.toNat % 8 ≠ 0 then .trap (trapAlign ea .atomic 8)
    else
      let s1 := s.ownStores env.core env.ctx env.core (bankOf ea.toNat)
      let old := Tab.get (s1.core env.core).counters 0 (ea.toNat / 8)
      .done (env.writeX (s1.modCore env.core (fun c => c.addCounter (ea.toNat / 8) b)) f.dst.toNat old))
/-- catm, issued alone. -/
def execCatm (f : SFields) (s : State) : Out := issueOne 0 (slotCatm f) s

/-- cwait (05 R108): the bundle issues once the counter, as it stood at the start of the cycle, has reached the threshold. -/
def slotCwait (f : SFields) (env : SEnv) (s : State) : SlotRes :=
  scalarOp .none .x .none true false f env s (fun a _ =>
    if 0xFFF < a.toNat then .trap (trapRange a .read 8)
    else if a.toNat % 8 ≠ 0 then .trap (trapAlign a .read 8)
    else if ((s.core env.core).counterAtStart (a.toNat / 8)).toNat < (sImmU f).toNat then .hold s
    else .done s)
/-- cwait, issued alone. -/
def execCwait (f : SFields) (s : State) : Out := issueOne 0 (slotCwait f) s

/-- ld.l of 1 byte, zero-extended (05 R103) -/
def slotLdLB8N (f : SFields) (env : SEnv) (s : State) : SlotRes := loadSlotL 1 false f env s
/-- ld.l of 1 byte, zero-extended (05 R103), issued alone. -/
def execLdLB8N (f : SFields) (s : State) : Out := issueOne 0 (slotLdLB8N f) s

/-- ld.l of 2 bytes, zero-extended (05 R103) -/
def slotLdLB16N (f : SFields) (env : SEnv) (s : State) : SlotRes := loadSlotL 2 false f env s
/-- ld.l of 2 bytes, zero-extended (05 R103), issued alone. -/
def execLdLB16N (f : SFields) (s : State) : Out := issueOne 0 (slotLdLB16N f) s

/-- ld.l of 4 bytes, zero-extended (05 R103) -/
def slotLdLB32N (f : SFields) (env : SEnv) (s : State) : SlotRes := loadSlotL 4 false f env s
/-- ld.l of 4 bytes, zero-extended (05 R103), issued alone. -/
def execLdLB32N (f : SFields) (s : State) : Out := issueOne 0 (slotLdLB32N f) s

/-- ld.l of 8 bytes, zero-extended (05 R103) -/
def slotLdLB64 (f : SFields) (env : SEnv) (s : State) : SlotRes := loadSlotL 8 false f env s
/-- ld.l of 8 bytes, zero-extended (05 R103), issued alone. -/
def execLdLB64 (f : SFields) (s : State) : Out := issueOne 0 (slotLdLB64 f) s

/-- ld.l of 1 byte, sign-extended (05 R103) -/
def slotLdLB8S (f : SFields) (env : SEnv) (s : State) : SlotRes := loadSlotL 1 true f env s
/-- ld.l of 1 byte, sign-extended (05 R103), issued alone. -/
def execLdLB8S (f : SFields) (s : State) : Out := issueOne 0 (slotLdLB8S f) s

/-- ld.l of 2 bytes, sign-extended (05 R103) -/
def slotLdLB16S (f : SFields) (env : SEnv) (s : State) : SlotRes := loadSlotL 2 true f env s
/-- ld.l of 2 bytes, sign-extended (05 R103), issued alone. -/
def execLdLB16S (f : SFields) (s : State) : Out := issueOne 0 (slotLdLB16S f) s

/-- ld.l of 4 bytes, sign-extended (05 R103) -/
def slotLdLB32S (f : SFields) (env : SEnv) (s : State) : SlotRes := loadSlotL 4 true f env s
/-- ld.l of 4 bytes, sign-extended (05 R103), issued alone. -/
def execLdLB32S (f : SFields) (s : State) : Out := issueOne 0 (slotLdLB32S f) s

/-- st.l of 1 byte (05 R103) -/
def slotStLB8 (f : SFields) (env : SEnv) (s : State) : SlotRes := storeSlotL 1 f env s
/-- st.l of 1 byte (05 R103), issued alone. -/
def execStLB8 (f : SFields) (s : State) : Out := issueOne 0 (slotStLB8 f) s

/-- st.l of 2 bytes (05 R103) -/
def slotStLB16 (f : SFields) (env : SEnv) (s : State) : SlotRes := storeSlotL 2 f env s
/-- st.l of 2 bytes (05 R103), issued alone. -/
def execStLB16 (f : SFields) (s : State) : Out := issueOne 0 (slotStLB16 f) s

/-- st.l of 4 bytes (05 R103) -/
def slotStLB32 (f : SFields) (env : SEnv) (s : State) : SlotRes := storeSlotL 4 f env s
/-- st.l of 4 bytes (05 R103), issued alone. -/
def execStLB32 (f : SFields) (s : State) : Out := issueOne 0 (slotStLB32 f) s

/-- st.l of 8 bytes (05 R103) -/
def slotStLB64 (f : SFields) (env : SEnv) (s : State) : SlotRes := storeSlotL 8 f env s
/-- st.l of 8 bytes (05 R103), issued alone. -/
def execStLB64 (f : SFields) (s : State) : Out := issueOne 0 (slotStLB64 f) s

/-- ld.g of 1 byte, zero-extended (05 R104, R105) -/
def slotLdGB8N (f : SFields) (env : SEnv) (s : State) : SlotRes := loadSlotG 1 false f env s
/-- ld.g of 1 byte, zero-extended (05 R104, R105), issued alone. -/
def execLdGB8N (f : SFields) (s : State) : Out := issueOne 0 (slotLdGB8N f) s

/-- ld.g of 2 bytes, zero-extended (05 R104, R105) -/
def slotLdGB16N (f : SFields) (env : SEnv) (s : State) : SlotRes := loadSlotG 2 false f env s
/-- ld.g of 2 bytes, zero-extended (05 R104, R105), issued alone. -/
def execLdGB16N (f : SFields) (s : State) : Out := issueOne 0 (slotLdGB16N f) s

/-- ld.g of 4 bytes, zero-extended (05 R104, R105) -/
def slotLdGB32N (f : SFields) (env : SEnv) (s : State) : SlotRes := loadSlotG 4 false f env s
/-- ld.g of 4 bytes, zero-extended (05 R104, R105), issued alone. -/
def execLdGB32N (f : SFields) (s : State) : Out := issueOne 0 (slotLdGB32N f) s

/-- ld.g of 8 bytes, zero-extended (05 R104, R105) -/
def slotLdGB64 (f : SFields) (env : SEnv) (s : State) : SlotRes := loadSlotG 8 false f env s
/-- ld.g of 8 bytes, zero-extended (05 R104, R105), issued alone. -/
def execLdGB64 (f : SFields) (s : State) : Out := issueOne 0 (slotLdGB64 f) s

/-- ld.g of 1 byte, sign-extended (05 R104, R105) -/
def slotLdGB8S (f : SFields) (env : SEnv) (s : State) : SlotRes := loadSlotG 1 true f env s
/-- ld.g of 1 byte, sign-extended (05 R104, R105), issued alone. -/
def execLdGB8S (f : SFields) (s : State) : Out := issueOne 0 (slotLdGB8S f) s

/-- ld.g of 2 bytes, sign-extended (05 R104, R105) -/
def slotLdGB16S (f : SFields) (env : SEnv) (s : State) : SlotRes := loadSlotG 2 true f env s
/-- ld.g of 2 bytes, sign-extended (05 R104, R105), issued alone. -/
def execLdGB16S (f : SFields) (s : State) : Out := issueOne 0 (slotLdGB16S f) s

/-- ld.g of 4 bytes, sign-extended (05 R104, R105) -/
def slotLdGB32S (f : SFields) (env : SEnv) (s : State) : SlotRes := loadSlotG 4 true f env s
/-- ld.g of 4 bytes, sign-extended (05 R104, R105), issued alone. -/
def execLdGB32S (f : SFields) (s : State) : Out := issueOne 0 (slotLdGB32S f) s

/-- st.g of 1 byte (05 R104, R105) -/
def slotStGB8 (f : SFields) (env : SEnv) (s : State) : SlotRes := storeSlotG 1 f env s
/-- st.g of 1 byte (05 R104, R105), issued alone. -/
def execStGB8 (f : SFields) (s : State) : Out := issueOne 0 (slotStGB8 f) s

/-- st.g of 2 bytes (05 R104, R105) -/
def slotStGB16 (f : SFields) (env : SEnv) (s : State) : SlotRes := storeSlotG 2 f env s
/-- st.g of 2 bytes (05 R104, R105), issued alone. -/
def execStGB16 (f : SFields) (s : State) : Out := issueOne 0 (slotStGB16 f) s

/-- st.g of 4 bytes (05 R104, R105) -/
def slotStGB32 (f : SFields) (env : SEnv) (s : State) : SlotRes := storeSlotG 4 f env s
/-- st.g of 4 bytes (05 R104, R105), issued alone. -/
def execStGB32 (f : SFields) (s : State) : Out := issueOne 0 (slotStGB32 f) s

/-- st.g of 8 bytes (05 R104, R105) -/
def slotStGB64 (f : SFields) (env : SEnv) (s : State) : SlotRes := storeSlotG 8 f env s
/-- st.g of 8 bytes (05 R104, R105), issued alone. -/
def execStGB64 (f : SFields) (s : State) : Out := issueOne 0 (slotStGB64 f) s

end Sys2Proof.Machine
end

