-- ==== Sys2Proof/Machine/Bundle.lean ====
section
/-! DEFINITION. The Caller: the fetch, the checks and the branch tree of a bundle, its issue, the loop engine, and the
choice of a context (spec 02 R34 to R53, 04 R82 to R84, 14 R306, R314, 16 R346). -/
namespace Sys2Proof.Machine

/-- A slot's operation as it runs in a bundle. -/
abbrev SlotRun := SEnv → State → SlotRes

/-- What each code of the scalar and Ferry map runs (04 R85), part 1. -/
def scalarMeans1 : List (Nat × (SFields → SlotRun)) :=
  [(0x01, slotAdd), (0x02, slotSub), (0x03, slotMul), (0x04, slotMulhS), (0x05, slotMulhN), (0x06, slotDivS),
   (0x07, slotDivN), (0x08, slotRemS), (0x09, slotRemN), (0x0A, slotAnd), (0x0B, slotOr), (0x0C, slotXor),
   (0x0D, slotAndn), (0x0E, slotShl), (0x0F, slotShr), (0x10, slotSra), (0x11, slotMinS), (0x12, slotMinN),
   (0x13, slotMaxS), (0x14, slotMaxN), (0x15, slotClz), (0x16, slotPopc), (0x17, slotSel), (0x18, slotMadd)]

/-- What each code of the scalar and Ferry map runs (04 R85), part 2. -/
def scalarMeans2 : List (Nat × (SFields → SlotRun)) :=
  [(0x19, slotLea), (0x1A, slotLi), (0x1B, slotLih), (0x21, slotAddI), (0x22, slotSubI), (0x23, slotMulI),
   (0x24, slotMulhSI), (0x25, slotMulhNI), (0x26, slotDivSI), (0x27, slotDivNI), (0x28, slotRemSI),
   (0x29, slotRemNI), (0x2A, slotAndI), (0x2B, slotOrI), (0x2C, slotXorI), (0x2D, slotAndnI), (0x2E, slotShlI),
   (0x2F, slotShrI), (0x30, slotSraI), (0x31, slotMinSI), (0x32, slotMinNI), (0x33, slotMaxSI), (0x34, slotMaxNI),
   (0x35, slotCand)]

/-- What each code of the scalar and Ferry map runs (04 R85), part 3. -/
def scalarMeans3 : List (Nat × (SFields → SlotRun)) :=
  [(0x36, slotCor), (0x37, slotCnot), (0x38, slotCmpEq), (0x39, slotCmpNe), (0x3A, slotCmpLtS), (0x3B, slotCmpLeS),
   (0x3C, slotCmpLtN), (0x3D, slotCmpLeN), (0x40, slotCmpEqI), (0x41, slotCmpNeI), (0x42, slotCmpLtSI),
   (0x43, slotCmpLeSI), (0x44, slotCmpLtNI), (0x45, slotCmpLeNI), (0x46, slotCatm), (0x47, slotCwait),
   (0x48, slotLdLB8N), (0x49, slotLdLB16N), (0x4A, slotLdLB32N), (0x4B, slotLdLB64), (0x4C, slotLdLB8S),
   (0x4D, slotLdLB16S), (0x4E, slotLdLB32S), (0x50, slotStLB8)]

/-- What each code of the scalar and Ferry map runs (04 R85), part 4. -/
def scalarMeans4 : List (Nat × (SFields → SlotRun)) :=
  [(0x51, slotStLB16), (0x52, slotStLB32), (0x53, slotStLB64), (0x54, slotLpset), (0x55, slotCall), (0x56, slotRet),
   (0x57, slotJmpx), (0x58, slotLdGB8N), (0x59, slotLdGB16N), (0x5A, slotLdGB32N), (0x5B, slotLdGB64),
   (0x5C, slotLdGB8S), (0x5D, slotLdGB16S), (0x5E, slotLdGB32S), (0x60, slotStGB8), (0x61, slotStGB16),
   (0x62, slotStGB32), (0x63, slotStGB64), (0x64, slotSnext), (0x65, slotSpawn), (0x66, slotSpawnNb),
   (0x67, slotSync), (0x68, slotMerge), (0x69, slotTend)]

/-- What each code of the scalar and Ferry map runs (04 R85), part 5. -/
def scalarMeans5 : List (Nat × (SFields → SlotRun)) :=
  [(0x6A, slotTbar), (0x6B, slotEvarm), (0x6C, slotEvdis), (0x6D, slotTwany), (0x6E, slotEvret), (0x6F, slotCrd),
   (0x70, slotCwr), (0x71, slotPhase), (0x72, slotFence), (0x73, slotFbar), (0x74, slotBrk), (0x75, slotTrap),
   (0x76, slotNop), (0x77, slotFstop), (0x78, slotFdef), (0x79, slotFring), (0x7A, slotFcode), (0x7B, slotFwalk),
   (0x7C, slotFcopy), (0x7D, slotFpage), (0x7E, slotFwait), (0x7F, slotFstat)]

/-- What each code of the scalar and Ferry map runs (04 R85). -/
def scalarMeans : List (Nat × (SFields → SlotRun)) :=
  scalarMeans1 ++ scalarMeans2 ++ scalarMeans3 ++ scalarMeans4 ++ scalarMeans5

/-! ### Fields of a bundle -/

/-- A scalar slot as it stands in a bundle: its number, code, guard and fields. -/
structure ScalarSlot where
  slot  : Nat
  op    : Nat
  guard : BitVec 5
  f     : SFields

/-- The scalar slots present. -/
def bundleScalars (b : Bundle) : List ScalarSlot :=
  (if b.s0p then [⟨0, slotOp b.s0, slotGuard b.s0, slotFields b.s0 (b.ext 0)⟩] else []) ++
  (if b.s1p then [⟨1, slotOp b.s1, slotGuard b.s1, slotFields b.s1 (b.ext 1)⟩] else [])

/-- How a code uses its destination field (05 R95, R96). -/
def dstUse (op : Nat) : FieldUse :=
  let ranges : List (Nat × Nat) := [(0x01, 0x1B), (0x21, 0x34), (0x46, 0x46), (0x48, 0x4E), (0x55, 0x55), (0x58, 0x5E),
    (0x65, 0x66), (0x6F, 0x6F), (0x7B, 0x7D), (0x7F, 0x7F)]
  if ranges.any (fun r => r.1 ≤ op && op ≤ r.2) then .x
  else if (0x35 ≤ op && op ≤ 0x3D) || (0x40 ≤ op && op ≤ 0x45) then .c
  else .none

/-- The registers a scalar slot writes: x registers but x0, and c bits from 64 on. -/
def ScalarSlot.dests (o : ScalarSlot) : List Nat :=
  (match dstUse o.op with
   | .x => if o.f.dst.toNat = 0 then [] else [o.f.dst.toNat]
   | .c => [64 + o.f.dst.toNat % 16]
   | _ => []) ++ (if o.op = 0x66 then [64 + o.f.imm.toNat % 8] else [])

/-- Whether a code transfers control (02 R42). -/
def isTransfer (op : Nat) : Bool := op == 0x55 || op == 0x56 || op == 0x57 || op == 0x64 || op == 0x69

/-! ### The branch tree (02 R48, R49) -/

/-- A node of a tree: a leaf with its number, or a test with its children. -/
inductive TNode where
  | leaf (j : Nat)
  | test (c : Bool) (ti : Nat) (yes no : TNode)
deriving DecidableEq, Repr, Inhabited

/-- The shape bits of a test: its true child is a test, and its false child is one. -/
def treeShape (b : BitVec 56) (j : Nat) : Bool × Bool := (b.getLsbD (52 - 2 * j), b.getLsbD (51 - 2 * j))
/-- The field of a test. -/
def treeTest (b : BitVec 56) (j : Nat) : Nat := fieldNat b (44 - 7 * j) (38 - 7 * j)

/-- The node that begins with test `j` and leaf `l` in pre-order, and the numbers after it; `none` where it needs more
than `n` tests. -/
def treeNode (b : BitVec 56) (n fuel : Nat) (isTest : Bool) (j l : Nat) : Option (TNode × Nat × Nat) :=
  if !isTest then some (.leaf l, j, l + 1)
  else if n ≤ j then none
  else match fuel with
  | 0 => none
  | f + 1 =>
    match treeNode b n f (treeShape b j).1 (j + 1) l with
    | none => none
    | some (y, j1, l1) =>
      match treeNode b n f (treeShape b j).2 j1 l1 with
      | none => none
      | some (z, j2, l2) => some (.test (treeTest b j / 64 == 0) (treeTest b j % 64) y z, j2, l2)

/-- The leaves of a tree that have a branch target: those whose `fall` bit is clear. -/
def branchLeaves (b : BitVec 56) (n : Nat) : List Nat := (List.range (n + 1)).filter (fun j => !b.getLsbD (12 + j))

/-- The tree of a valid B slot; `none` where it breaks a rule of 02 R49. `own` is whether B owns the X word. -/
def treeOf (b : BitVec 56) (own : Bool) : Option TNode :=
  let n := fieldNat b 55 53
  if 4 < n then none
  else if (List.range 4).any (fun j => n ≤ j && (treeShape b j != (false, false) || treeTest b j != 0)) then none
  else if (List.range n).any (fun j => treeTest b j < 64 && 15 < treeTest b j) then none
  else if (if own then 5 else 1) < (branchLeaves b n).length then none
  else match treeNode b n 5 (n != 0) 0 0 with
    | some (t, j, _) => if j = n then some t else none
    | none => none

/-- The tests of a tree: whether it is of a c bit, and its index. -/
def TNode.tests (t : TNode) : List (Bool × Nat) :=
  match t with
  | .leaf _ => []
  | .test c ti y n => (c, ti) :: (y.tests ++ n.tests)

/-- The leaf a tree takes (02 R50). -/
def TNode.take (t : TNode) (x : Ctx) : Nat :=
  match t with
  | .leaf j => j
  | .test c ti y n => if (if c then x.getC ti else x.getX ti != 0) then y.take x else n.take x

/-- The target of a leaf: none where it falls through (02 R49). -/
def leafTarget (b : BitVec 56) (x : W32) (n leaf : Nat) (pc : Word) : Option Word :=
  match (List.range (n + 1)).find? (fun i => (branchLeaves b n)[i]? == some leaf) with
  | none => none
  | some 0 => some (pc + 32 * (b.extractLsb' 0 12).signExtend 64)
  | some (i + 1) => some (pc + 32 * (x.extractLsb' (8 * i) 8).signExtend 64)

/-! ### The checks of a bundle (02 R42, R49, 04 R83) -/

/-- Whether the guards of two slots can select the same leaf. -/
def guardsMeet (b : Bundle) (n : Nat) (g h : BitVec 5) : Bool :=
  !b.bp || (List.range (n + 1)).any (fun j => g.getLsbD j && h.getLsbD j)

/-- The slot that makes a bundle illegal, in the order of 02 R42 (log 43); `none` for a legal one. -/
def bundleBad (b : Bundle) : Option Nat :=
  let n := fieldNat b.b 55 53
  let ss := bundleScalars b
  let own := b.xown.toNat
  let clash := match ss with
    | [p, q] => guardsMeet b n p.guard q.guard && p.dests.any (fun d => q.dests.contains d)
    | _ => false
  if b.rsv then some 7
  else if (own == 1 && !b.s0p) || (own == 2 && !b.s1p) || (own == 3 && !b.bp) then some (if own = 3 then 3 else own - 1)
  else if b.s0p && isFerryCode (slotOp b.s0) then some 0
  else if clash then some 1
  else if b.bp && (treeOf b.b (own == 3)).isNone then some 3
  else match ss.find? (fun o => b.bp && isTransfer o.op && (branchLeaves b.b n).any (fun j => o.guard.getLsbD j)) with
    | some o => some o.slot
    | none => none

/-! ### Guards (02 R47) -/

/-- Whether a guard executes: `leaf` is the taken leaf of a bundle with a tree. -/
def guardOn (leaf : Option Nat) (x : Ctx) (g : BitVec 5) : Bool :=
  match leaf with
  | some j => g.getLsbD j
  | none =>
    let n := g.toNat % 16
    n == 15 || (x.getC n != g.getLsbD 4)

/-- Whether a predicate guard reads a condition bit whose answer is awaited (05 R113). -/
def guardHolds (leaf : Option Nat) (x : Ctx) (g : BitVec 5) : Bool :=
  leaf.isNone && g.toNat % 16 != 15 && x.cAwaited (g.toNat % 16)

/-! ### The loop engine (02 R52, R53) -/

/-- The stage predicates cleared. -/
def Ctx.clearStages (x : Ctx) : Ctx := { x with c := x.c &&& 0x80FF }

/-- Whether a stage predicate of the loop is set. -/
def Ctx.anyStage (x : Ctx) : Bool := (List.range x.stages).any (fun i => x.c.getLsbD (8 + i))

/-- The stage predicates rotate, and an iteration starts where one is left and no request is visible. -/
def Ctx.rotate (x : Ctx) : Ctx :=
  let start := x.next < x.trip && !x.preSeen && !x.drain
  let moved := ((x.c &&& 0x7F00) <<< 1) &&& BitVec.ofNat 16 (2 ^ (8 + x.stages) - 1) &&& 0x7F00
  { x with
    c := (x.c &&& 0x80FF) ||| moved ||| (if start then 0x100 else 0)
    next := if start then x.next + 1 else x.next
    drain := x.drain || (!start && x.preSeen) }

/-- What a loop-end bundle of an active loop does: the context after it, and the next PC. -/
def loopEnd (branch : Option Word) (pc : Word) (x : Ctx) : Ctx × Word :=
  match branch with
  | some a => ({ x.clearStages with active := false, drain := false }, a)
  | none =>
    let y := x.rotate
    if y.anyStage then (y, y.lpstart)
    else if y.drain && y.next != y.trip then
      if y.preSeen then
        ({ y.clearStages with wait := (match y.wait with
            | .none => .loopStop | .released => .loopStop | .phase => .loopStop | .fbind => .loopStop | .tbar _ => .loopStop
            | w => w) }, y.lpstart)
      else ({ y.clearStages.refill with wait := y.wait }, y.lpstart)
    else ({ y with active := false, drain := false }, pc + 32)

/-! ### The issue of a bundle -/

/-! #### Ports (02 R37, R46) -/

/-- Whether a code reads x registers through its sources A and B (05 R95 to R124, 09 R236). -/
def srcAPort (op : Nat) : Bool :=
  let ranges : List (Nat × Nat) := [(0x01, 0x19), (0x21, 0x34), (0x38, 0x3D), (0x40, 0x4E), (0x50, 0x5E), (0x60, 0x63),
    (0x65, 0x66), (0x6B, 0x6B), (0x70, 0x70), (0x78, 0x7E)]
  ranges.any (fun r => r.1 ≤ op && op ≤ r.2)
def srcBPort (op : Nat) : Bool :=
  let ranges : List (Nat × Nat) := [(0x01, 0x14), (0x17, 0x19), (0x38, 0x3D), (0x46, 0x46), (0x50, 0x53), (0x60, 0x63),
    (0x6B, 0x6B), (0x79, 0x79)]
  ranges.any (fun r => r.1 ≤ op && op ≤ r.2)

/-- The x ports that an executing scalar operation takes; `madd` and `lih` read their destination too (05 R95). -/
def ScalarSlot.ports (o : ScalarSlot) : Nat :=
  bit (srcAPort o.op && o.f.sa.toNat != 0) + bit (srcBPort o.op && o.f.sb.toNat != 0) +
    bit ((o.op == 0x18 || o.op == 0x1B) && o.f.dst.toNat != 0)

/-- The ports that the operands of a figure take: those its job reads and no latch holds. -/
def engineNeeds (pre : Ctx) (f : EFields) (j : Job) : List (Nat × Nat) :=
  (List.range 4).flatMap (fun i =>
    let o := (eOps f).getD i default
    let out := match j.kind with | .routine _ e => natField (entryRole e i) 5 4 == 1 | _ => false
    match o.kind.toNat with
    | 2 => if out || o.idx = 0 || (!j.parts.isEmpty && j.parts.all (fun p => pre.latched p i o)) then [] else [(8, 1)]
    | n => if 2 < n then [] else
      (j.parts.filter (fun p => j.reads.contains (p, n == 1, o.idx.toNat) && !pre.latched p i o)).map (fun p => (4 * n + p, 1)))

/-- The reads of a bundle by port. -/
def addNeeds (l : List (Nat × Nat)) : Tab Nat := l.foldl (fun (t : Tab Nat) e => t.set 0 e.1 (Tab.get t 0 e.1 + e.2)) []

/-- Whether the ports that earlier bundles leave in this cycle cover the reads of a bundle; one that needs more than a
cycle's reads of a port takes all of them first (log 94). -/
def Core.portsFor (c : Core) (needs : Tab Nat) : Bool :=
  needs.all (fun e => Tab.get c.debt 0 e.1 + min e.2 (portRate e.1) ≤ portRate e.1)

/-- The cycles over which a bundle takes its reads. -/
def readCycles (needs : Tab Nat) : Nat := needs.foldl (fun m e => max m ((e.2 + portRate e.1 - 1) / portRate e.1)) 1

/-- What comes of the attempt to issue a bundle. -/
inductive Issue where
  | issued (s : State) (needs : Tab Nat)
  | trapped (s : State)
  | held (s : State)

/-- The waits that a bundle's operations may leave together: the one that outlasts the others. Those of `phase`, `fbind`
and `tbar` hold the context even where another stands in its place (`ctxFree`). -/
def CtxWait.rank (w : CtxWait) : Nat :=
  match w with
  | .stepEnd _ => 4 | .twany _ _ => 3 | .enter _ _ => 3 | .evret => 3 | .tbar _ => 2 | .none => 0 | .released => 0 | _ => 1

/-- The first hold of a list of results. -/
def holdIn (rs : List (Nat × SlotRes)) : Option (Nat × State) :=
  rs.findSome? (fun r => match r.2 with | .hold s => some (r.1, s) | _ => none)

/-- The first trap of a list of results. -/
def trapIn (rs : List (Nat × SlotRes)) : Option (Nat × Trap) :=
  rs.findSome? (fun r => match r.2 with | .trap t => some (r.1, t) | _ => none)

/-- Bundles that have run so far: the state, the target of a transfer, and the traps found after issue. -/
structure Ran where
  s    : State
  pc   : Option Word
  late : List (Nat × Trap)

/-- Run the executing operations in slot order on one another's states; each reads the context as it stood before the
bundle (02 R43). Of two control transfers that execute in one bundle the later slot's gives the PC: the spec does not say
which does, and the choice is the model's (DESIGN CHOICE, log 102). -/
def runSlots (env : Nat → SEnv) (ops : List (Nat × SlotRun)) (a : Ran) : Except (Nat × SlotRes) Ran :=
  match ops with
  | [] => .ok a
  | (n, op) :: r =>
    match op (env n) a.s with
    | .ok s1 pc late =>
      let k := (env n).core
      let c := (env n).ctx
      let w0 := (a.s.ctx k c).wait
      let s2 := if w0 != (env n).pre.wait && (s1.ctx k c).wait.rank < w0.rank then s1.modCtx k c (fun x => { x with wait := w0 }) else s1
      runSlots env r ⟨s2, pc.orElse (fun _ => a.pc), a.late ++ late.toList.map (fun t => (n, t))⟩
    | x => .error (n, x)

/-- Whether an operation's wait at its bundle is a pre-emption point: cwait and fwait (16 R346). -/
def waitPoint (ss : List ScalarSlot) (slot : Nat) : Bool := ss.any (fun o => o.slot == slot && (o.op == 0x47 || o.op == 0x7E))

/-- Issue a fetched bundle of a context (02 R34 to R53): the checks of the bundle, its tree, its executing slots, the
loop engine and the next PC. `s` is the state before the bundle, to which a trap or a hold returns. -/
def issueBundle (k c : Nat) (b : Bundle) (s : State) : Issue :=
  let pre := s.ctx k c
  let trapAt (slot : Nat) (t : Trap) : Issue :=
    .trapped (s.takeTrap k c ⟨0, 0, slot, pre.pc, pre.cmd, none⟩ t.cls t.addr (BitVec.ofNat 64 t.det))
  match bundleBad b with
  | some slot => trapAt slot ⟨.illegalBundle, 0, 0⟩
  | none =>
    let tree := if b.bp then treeOf b.b (b.xown == 3) else none
    let tests := match tree with | some t => t.tests | none => []
    let leaf := tree.map (fun t => t.take pre)
    let target := match leaf with | some j => leafTarget b.b b.x (fieldNat b.b 55 53) j pre.pc | none => none
    let ss := (bundleScalars b).filter (fun o => !pre.skip.contains o.slot)
    let on (g : BitVec 5) : Bool := guardOn leaf pre g
    let waits (g : BitVec 5) : Bool := guardHolds leaf pre g
    let eOn := b.ep && !pre.skip.contains 2
    if tests.any (fun t => if t.1 then pre.cAwaited t.2 else !pre.full t.2) ||
        ss.any (fun o => waits o.guard) || (eOn && waits (engineGuard b.e)) then .held s
    else
      let run := ss.filter (fun o => on o.guard)
      let ops : List (Nat × SlotRun) :=
        run.map (fun o => (o.slot, match codeRow scalarMeans o.op with
          | some mk => mk o.f | none => fun _ _ => .trap trapIllegal)) ++
        (if eOn && on (engineGuard b.e) then
          [(2, match engineSlot (decodeEngine b.e) with | some f => f | none => fun _ _ => .trap trapIllegal)] else [])
      let env (n : Nat) : SEnv := ⟨k, c, pre, n, b.lend, target.isSome, s⟩
      let rs := ops.map (fun o => (o.1, o.2 (env o.1) s))
      let hold (slot : Nat) (s1 : State) : Issue :=
        .held (if pre.preSeen && waitPoint run slot then s1.modCtx k c (fun x => { x with wait := .prePoint }) else s1)
      match holdIn rs, trapIn rs with
      | some (slot, s1), _ => hold slot s1
      | none, some (slot, t) => trapAt slot t
      | none, none =>
        match runSlots env ops ⟨s, none, []⟩ with
        | .error (slot, .hold s1) => hold slot (s.modCtx k c (fun x => { x with wait := (s1.ctx k c).wait }))
        | .error (slot, .trap t) => trapAt slot t
        | .error (_, .ok ..) => .held s
        | .ok r =>
          let go := r.pc.orElse (fun _ => target)
          let s1 := if pre.skip.contains 2 then
              -- a bundle finished after the emulation of its figure: the outputs are on their way (04 R92)
              r.s.modCtx k c (fun x => (x.results.filter (fun q => q.slot == 2 && q.cmd == pre.cmd && q.inst.isNone)).foldl
                (fun (y : Ctx) q => y.markEmpty q.reg) x)
            else r.s
          let le : Ctx × Word := if b.lend && pre.active then loopEnd target pre.pc (s1.ctx k c) else (s1.ctx k c, go.getD (pre.pc + 32))
          let s2 := finishIssue (env 0) (s1.setCtx k c le.1) (some le.2) r.late.head?
          let s3 := (r.late.drop 1).foldl (fun (x : State) q =>
            x.takeTrap k c ⟨0, 0, q.1, pre.pc, pre.cmd, none⟩ q.2.cls q.2.addr (BitVec.ofNat 64 q.2.det)) s2
          let s4 := s3.modCore k (fun co => { co with lastIssued := co.lastIssued.set 0 pre.pri (c + 1) })
          let back := match go with | some a => decide (a.toNat ≤ pre.pc.toNat) | none => false
          let s5 := (if pre.preSeen && !pre.active && back then
              s4.modCtx k c (fun x => if x.wait == .none then { x with wait := .prePoint } else x)
            else s4)
          .issued s5 (addNeeds (tests.flatMap (fun t => if !t.1 && t.2 != 0 then [(8, 1)] else []) ++
            run.flatMap (fun o => [(8, o.ports)]) ++
            (if (s5.core k).nextJob = (s.core k).nextJob then [] else
              match (s5.core k).job (s.core k).nextJob with
              | some j => engineNeeds pre (engineFields b.e) j | none => [])))

/-- Fetch the bundle at a context's PC (02 R43, 22 R426). -/
def State.fetchBundle (s : State) (k c : Nat) (pc : Word) : Except Trap (Bundle × State) :=
  let x := s.ctx k c
  if pc.toNat % 32 ≠ 0 then .error (trapAlign pc .fetch 32)
  else match s.fetchLine k x.asid x.priv false (s.core k).fetched pc with
    | .error t => .error t
    | .ok l =>
      .ok (decodeBundle (l.data.extractLsb' (8 * (pc.toNat % 128)) 256),
        if l.keep then l.s.modCore k (fun co => { co with fetched := co.fetched.put (codeKey x.asid (x.priv % 2) pc.toNat) l.data })
        else l.s)

/-- The child whose stopped merge a context takes (14 R314): one that waits in sync does, and where none of the
parent's contexts waits, the first that would issue. -/
def State.mergeDue (s : State) (x : Ctx) : Option Nat :=
  match x.task with
  | none => none
  | some t =>
    let waiting := (s.task t).places.any (fun e => (s.ctx e.1 e.2).wait == .sync && !(s.ctx e.1 e.2).stopped)
    if x.wait == .sync || !waiting then (s.children t).find? (fun ch => (s.task ch).mstat.isSome) else none

/-- A failed child's spawn index that a context takes (14 R306). -/
def State.spawnFailDue (s : State) (x : Ctx) : Option (Nat × Nat) :=
  match x.task with
  | none => none
  | some t => (s.task t).spFail.head?.map (fun ix => (t, ix))

/-- Try to issue the next bundle of a context (02 R37 to R40): the traps taken before it, its fetch, and its issue. -/
def State.tryIssue (s : State) (k c : Nat) : Issue :=
  let x := s.ctx k c
  let at_ (engine slot : Nat) (inst : Option Nat) : TrapAt := ⟨engine, 0, slot, x.pc, x.cmd, inst⟩
  match s.mergeDue x with
  | some ch =>
    let status := (s.task ch).mstat.getD 0
    .trapped (((s.modTask ch (fun t => { t with mstat := none })).modCtx k c (fun y => { y with wait := .none })).takeTrap k c
      (at_ 5 7 (some ch)) .merge 0 status)
  | none =>
    if x.wait = .sync then .held s
    else match s.spawnFailDue x with
    | some (t, ix) =>
      .trapped ((s.modTask t (fun y => { y with spFail := y.spFail.drop 1 })).takeTrap k c (at_ 0 7 none) .illegalOp 0
        (BitVec.ofNat 64 (2 ^ 16 + ix)))
    | none =>
      match s.fetchBundle k c x.pc with
      | .error t => .trapped (s.takeTrap k c (at_ 0 4 none) t.cls t.addr (BitVec.ofNat 64 t.det))
      | .ok (b, s1) => issueBundle k c b s1

/-! ### The choice of a context (02 R37) -/

/-- Whether a context may issue: a step runs on it, no trap or pre-emption stops it, and no wait of an earlier bundle
holds it; on a resume, an instance that was killed has restarted first (12 R282). A context that waits in sync is let through for a merge that it takes (14 R314). -/
def State.ctxFree (s : State) (k c : Nat) : Bool :=
  let x := s.ctx k c
  let co := s.core k
  x.running && !x.stopped && x.preStop.isNone && x.issued != s.cycle + 1 && decide (x.busy ≤ s.cycle) &&
  (x.wait == .none || x.wait == .released || (x.wait == .sync && (s.mergeDue x).isSome)) &&
  !co.bundleHeld c && !co.jobs.any (fun j => j.ctx == c && j.redo) &&
  (x.ev.inh || (s.troupeCtxs x).all (fun m => decide (x.tbar ≤ (s.ctx m.1 m.2).tbar)))

/-- The contexts that may issue: by priority, then in ascending number after the one of that priority that issued most
recently. -/
def State.candidates (s : State) (k : Nat) : List Nat :=
  (List.range 8).flatMap (fun p =>
    ((List.range 8).map (fun d => (Tab.get (s.core k).lastIssued 0 p + d) % 8)).filter (fun c =>
      (s.ctx k c).pri == p && s.ctxFree k c))

/-- Whether the core's Caller has a place left for a bundle in this cycle (02 R37). -/
def State.callerFree (s : State) (k : Nat) : Bool := (s.core k).caller.1 != s.cycle + 1 || decide ((s.core k).caller.2 < 2)

/-- The Caller has issued one more bundle in this cycle. -/
def State.countIssue (s : State) (k : Nat) : State :=
  s.modCore k (fun c => { c with caller := (s.cycle + 1, if c.caller.1 = s.cycle + 1 then c.caller.2 + 1 else 1) })

/-- Try to issue the next bundle of a context within this cycle's ports: the state after, and whether a bundle has taken
a place of the cycle. One that traps takes its place too (log 94). -/
def State.issueCtx (s : State) (k c : Nat) : State × Bool :=
  match s.tryIssue k c with
  | .held s1 => (s1, false)
  | .trapped s1 => (s1.countIssue k, true)
  | .issued s1 needs =>
    if (s.core k).portsFor needs then
      (((s1.countIssue k).modCtx k c (fun x => { x with busy := s.cycle + readCycles needs })).modCore k (fun co =>
        { co with debt := needs.foldl (fun (t : Tab Nat) e => t.set 0 e.1 (Tab.get t 0 e.1 + e.2)) co.debt }), true)
    else (s, false)

/-- Issue the bundles of the first ready contexts of a list, at most two in the cycle (02 R37, R38). -/
def State.issueReady (s : State) (k : Nat) (cs : List Nat) : State :=
  match cs with
  | [] => s
  | c :: r => if s.callerFree k then (s.issueCtx k c).1.issueReady k r else s

/-- BUNDLE_ISSUE (02 R37, R38): once in a cycle, the core's Caller issues the bundles of up to two ready contexts, the one
chosen first before the other; or none where every one waits. -/
def execBundleIssue (core : Nat) (s : State) : Out :=
  match s.candidates core with
  | [] => .fault .notEnabled
  | cs =>
    if (s.core core).caller.1 = s.cycle + 1 then .fault .notEnabled
    else .next ((s.modCore core (fun c => { c with caller := (s.cycle + 1, 0) })).issueReady core cs)

/-- SPAWN_UNPARK (05 R112): an entry of the die's pool is free, and one of the parked bundles that fit issues; which of
several the spec does not say (log 44). -/
def execSpawnUnpark (die : Nat) (s : State) : Out :=
  let ready := (s.dieCtxs die).filter (fun e =>
    let x := s.ctx e.1 e.2
    x.parked && !x.stopped && x.preStop.isNone && x.issued != s.cycle + 1 && decide (x.busy ≤ s.cycle) && s.callerFree e.1 &&
      s.poolRoom die (x.task.getD 0))
  if ready.isEmpty then .fault .notEnabled
  else
    let e := ready.getD ((Config.freeWord s.fresh 0).toNat % ready.length) (0, 0)
    let s1 : State := { s with fresh := s.fresh + 1 }
    let s2 := ((s1.modCtx e.1 e.2 (fun x => { x with wait := .none })).issueCtx e.1 e.2).1
    let t := (s.ctx e.1 e.2).task.getD 0
    .next (if s2.parkedN (s2.task t) = 0 then s2.modTask t (fun x => { x with parkedAt := none }) else s2)

/-! ### Retired operations (04 R92, 12 R283) -/

/-- The context whose record is a RETIRED_OP not passed on. -/
def State.retiredRec (s : State) (k c : Nat) : Option TrapRec :=
  (s.ctx k c).recs.find? (fun r => r.cls == .retiredOp && r.seq.isNone && !r.passed)

/-- The record is passed on to the software's handler. -/
def State.passOn (s : State) (k c : Nat) (r : TrapRec) : State :=
  s.modCtx k c (fun x => { x with recs := x.recs.map (fun q => if q = r then { q with passed := true } else q) })

/-- The record is withdrawn, and its address space counts an emulation. -/
def State.emulatedRec (s : State) (k c : Nat) (r : TrapRec) : State :=
  (s.modCtx k c (fun x => { x with recs := x.recs.erase r, stopped := !(x.recs.erase r).isEmpty })).modSpace r.asid
    (fun sp => { sp with emulated := sp.emulated + 1 })

/-- The retired figure that the engine slot of a bundle issues, directly or through `fig`: its number and fields. -/
def retiredFigure (b : Bundle) (x : Ctx) : Option (Nat × EFields) :=
  match decodeEngine b.e with
  | .retiredFigureIssue n f => some (n.toNat, f)
  | .fig f =>
    let n := (x.getX (f.mod.toNat % 64)).toNat
    if n = 0x21 ∨ n = 0x22 then some (n, { f with mod := 0 }) else none
  | _ => none

/-- The emulation of a retired figure: the routine of its entry runs as an instance with the bundle's operands; the
context waits for it, and then its bundle is finished with the engine slot disabled. -/
def State.emulateFigure (s : State) (k c : Nat) (r : TrapRec) : Option State :=
  let x := s.ctx k c
  match s.fetchBundle k c r.pc with
  | .error _ => none
  | .ok (b, s1) =>
    match retiredFigure b x with
    | none => none
    | some (n, f) =>
      let e := s.figEntry x.asid n
      let id := (s.core k).nextJob
      if entryKind e ≠ 3 then none
      else match issueRoutine n e f ⟨k, c, x, 2, b.lend, false, s1⟩ s1 with
        | .hold _ => none
        | .trap t => some ((s1.emulatedRec k c r).takeTrap k c ⟨0, 0, 2, r.pc, r.cmd, none⟩ t.cls t.addr (BitVec.ofNat 64 t.det))
        | .ok s2 _ _ =>
          some ((s2.emulatedRec k c r).modCtx k c (fun y => { y with wait := .emulated id, skip := 2 :: x.skip, empty := x.empty }))

/-- The destination register of a retired lane word (03 R74). -/
def retiredDst (w0 : W32) : Nat := fieldNat w0 20 14

/-- The emulation of a retired lane opcode for the pass of a strand, which its trap has left where it stood: each active
lane's destination takes a value of the withdrawn operation, which the spec does not give (log 11), and every lane of the
pass advances. A fault, of the fetch of its words or of a destination that the gang lacks, is a trap of the gang (12 R283). -/
def State.emulateLane (s : State) (k p sl : Nat) (j : Job) (r : TrapRec) : Option State :=
  let st := s.strand k p sl
  let pc := (st.lane (fieldNat r.status 51 47)).pc
  let here := st.lanesAt pc
  let fault (x : State) (t : Trap) : State :=
    ((x.resumeGang k j.id).emulatedRec k j.ctx r).gangTrap k j.id p st.index (fieldNat r.status 51 47) pc t.cls t.addr t.det
  match s.fetchLane k p st.gang (maskClass false here) pc with
  | .error t => some (fault s t)
  | .ok (w0, w1, s1) =>
    let m := passRetiredLaneOpcode w0 w1
    let d := retiredDst w0
    let pass := here.filter (fun l => (st.lane l).issuable m)
    let act := pass.filter (fun l => (st.lane l).guard m)
    let s2 := s1.modStrand k p sl (fun x => { x with
      issued := s.cycle
      lanes := x.lanes.map (fun l =>
        if !pass.contains l.1 then l
        else (l.1, { l.2 with
          pc := pc + BitVec.ofNat 64 m.size
          idle := 0
          v := if act.contains l.1 then l.2.v.set 0 d ((Config.freeWord s1.fresh (l.1 + 1)).setWidth 32) else l.2.v })) })
    let s3 := if act.isEmpty then s2 else s2.gangFlags k st.gang ((Config.freeWord s1.fresh 0).toNat % 32)
    if pass.isEmpty then none
    else if !act.isEmpty && !vOk st.nregs (d, false) then some (fault s1 trapIllegal)
    else some { (s3.resumeGang k j.id).emulatedRec k j.ctx r with fresh := s1.fresh + 1 }

/-- RETIRED_OP_EMULATION (04 R92): the firmware handler takes a RETIRED_OP of a context, or of a gang by the strand
whose pass raised it; with no emulation installed it passes the record on. -/
def execRetiredOpEmulation (core : Nat) (who : Waiter) (installed : Bool) (s : State) : Out :=
  match who with
  | .ctx c =>
    (match s.retiredRec core c with
     | none => .fault .notEnabled
     | some r =>
       if r.inst.isSome then .fault .notEnabled
       else if !installed then .next (s.passOn core c r)
       else match s.emulateFigure core c r with | some s1 => .next s1 | none => .fault .notEnabled)
  | .strand p sl =>
    match (s.core core).job (s.strand core p sl).gang with
    | none => .fault .notEnabled
    | some j =>
      match s.retiredRec core j.ctx with
      | none => .fault .notEnabled
      | some r =>
        if r.inst ≠ some j.id ∨ fieldNat r.status 55 52 ≠ (s.strand core p sl).index ∨ r.eidx ≠ p then .fault .notEnabled
        else if !installed then .next (s.passOn core j.ctx r)
        else match s.emulateLane core p sl j r with | some s1 => .next s1 | none => .fault .notEnabled

end Sys2Proof.Machine
end

