-- ==== Sys2Proof/Machine/MemRows.lean ====
section
/-! DEFINITION. What happens in global memory and translation on its own: writes that arrive, phases that complete, walks,
invalidations, ring registers, soft errors and PCIe links (spec 11 R256 to R258, 15 R317, 16 R332 to R342, 22 R414). -/
namespace Sys2Proof.Machine

/-! ### Writes and phases (11 R256 to R258) -/

/-- The index in a write set, newest first, of the `n`-th write that has not arrived. -/
def pendingWrite (ws : List WEntry) (i n : Nat) : Option Nat :=
  match ws with
  | [] => none
  | w :: r => if w.arrived then pendingWrite r (i + 1) n else if n = 0 then some i else pendingWrite r (i + 1) (n - 1)

/-- WRITE_ARRIVAL (11 R256, R260): the `n`-th byte of a core's write set that has not arrived reaches its home early. The
core's writes to one byte arrive in their order. -/
def execWriteArrival (core n : Nat) (s : State) : Out :=
  let ws := (s.core core).writes
  match pendingWrite ws 0 n with
  | none => .fault .notEnabled
  | some i =>
    let w := ws.getD i default
    if (ws.drop (i + 1)).any (fun x => x.addr == w.addr && !x.arrived) then .fault .notEnabled
    else .next ((s.homeByte w.addr w.val).modCore core (fun c => { c with writes := c.writes.set i { w with arrived := true } }))

/-- The new snapshot of a phase.a (11 R257): each location holds its home value, or, where the core itself has not written
it, perhaps still that of the time of issue (log 9). -/
def mixSnapshot (s : State) (old : Memory) (ws : List WEntry) : Memory :=
  ((Tab.keys old ++ Tab.keys s.mem).eraseDups).foldl (fun (m : Memory) a =>
    if !ws.any (fun w => w.addr == a) && Config.freeBit s.fresh a then m.setByte a (old.byte a) else m) s.mem

/-- The waiters of a phase go on. -/
def State.endPhaseWait (s : State) (k : Nat) (ph : PhaseOp) : State :=
  match ph.who with
  | .ctx c => s.modCtx k c (fun x => { x with wait := if x.wait = .phase then .none else x.wait })
  | .strand p sl => s.modStrand k p sl (fun st => { st with lanes := st.lanes.map (fun e =>
      if ph.lanes.contains e.1 && e.2.wait == .phase then (e.1, { e.2 with wait := .none }) else e) })

/-- A phase of the core that is still in progress when the `n`-th, of old home values `old`, takes a snapshot: what it may
still take is no older, location by location, than what that snapshot holds (11 R258, R260). Phases stand in order of
issue. -/
def PhaseOp.after (q : PhaseOp) (earlier : Bool) (s : State) (old : Memory) (ws : List WEntry) : PhaseOp :=
  { q with old := mixSnapshot s (if earlier then old else q.old) ws }

/-- PHASE_COMPLETE (11 R258): the `n`-th phase of a core completes its publication, then takes its snapshot. -/
def execPhaseComplete (core n : Nat) (s : State) : Out :=
  match (s.core core).phases[n]? with
  | none => .fault .notEnabled
  | some ph =>
    let s1 := if ph.pub then s.publish core else s
    let s2 := if ph.snap then
        { s1.modCore core (fun c => { c with
            snapshot := mixSnapshot s1 ph.old c.writes, writes := c.writes.filter (fun w => !w.arrived)
            phases := c.phases.mapIdx (fun i q => q.after (decide (i < n)) s1 ph.old c.writes) }) with
          fresh := s1.fresh + 1 }
      else s1
    .next ((s2.modCore core (fun c => { c with phases := c.phases.eraseIdx n })).endPhaseWait core ph)

/-! ### Translation (16 R333, R338) -/

/-- TLB_MISS_WALK (16 R333): a walk for an address that no entry of the core's TLB covers. A fault found is not cached. The
access it serves is a later step's, which needs no walk of its own then (log 39). -/
def execTlbMissWalk (core asid : Nat) (va : Word) (s : State) : Out :=
  if numCores ≤ core ∨ va.toNat / 2 ^ 54 ≠ 0 ∨ (s.space asid).ptbase.toNat % 2 = 0 ∨ ((s.core core).tlbFind asid va.toNat).isSome then
    .fault .notEnabled
  else
    match s.walk asid va.toNat with
    | .error _ => .next s
    | .ok w => .next (s.fillTlb core asid va.toNat w false).1

/-- TLBINV_WRITE (16 R338): held while an invalidation is in progress. -/
def execTlbinvWrite (issuer : Issuer) (value : Word) (s : State) : Out :=
  if s.tlbBusy then .fault .notEnabled else .next (s.regWrite issuer 0x208 value)

/-- Whether the invalidation in progress covers a TLB entry (16 R338). -/
def State.tlbCovers (s : State) (e : TlbEntry) : Bool :=
  let v := s.tlbinv.toNat
  match natField v 2 1 with
  | 0 => e.asid == s.tlbinvAsid && e.va / 2 ^ e.bits == natField v 53 15 * 2 ^ 15 / 2 ^ e.bits
  | 1 => e.asid == s.tlbinvAsid
  | _ => true

/-- TLBINV_COMPLETE (16 R334, R338): every covered entry is dropped, and BUSY clears. -/
def execTlbinvComplete (s : State) : Out :=
  if !s.tlbBusy then .fault .notEnabled
  else
    .next { s with
      cores := s.cores.map (fun e => (e.1, { e.2 with tlb := e.2.tlb.filter (fun t => !s.tlbCovers t) }))
      tlbinv := BitVec.ofNat 64 (s.tlbinv.toNat % 2 ^ 63) }

/-- TRAPRING_WRITE (16 R342): a write of TRAPRING, or of DBGRING. -/
def execTrapringWrite (issuer : Issuer) (dbg : Bool) (value : Word) (s : State) : Out :=
  .next (s.regWrite issuer (if dbg then 0x205 else 0x204) value)

/-! ### Errors (15 R317, 16 R332, 06 R143, 22 R414) -/

/-- SOFT_ERROR (15 R317, 16 R332, 06 R143): a stored word or line becomes uncorrectable. -/
def execSoftError (place : ErrPlace) (s : State) : Out :=
  match place with
  | .line a =>
    (match s.phys a with
     | .tierH => .next { s with badLines := a / 64 :: s.badLines.filter (· != a / 64) }
     | .tierC => .next { s with badLines := a / 64 :: s.badLines.filter (· != a / 64) }
     | _ => .fault .notEnabled)
  | .landing k off =>
    if numCores ≤ k ∨ off < 0x1000 ∨ 0x800000 ≤ off then .fault .notEnabled
    else .next (s.modCore k (fun c => { c with badLand := off / 8 :: c.badLand.filter (· != off / 8) }))
  | .operandBuffer k p off =>
    if numCores ≤ k ∨ 4 ≤ p then .fault .notEnabled
    else .next (s.modPart k p (fun x => { x with badObuf := off :: x.badObuf.filter (· != off) }))
  | .accumulator k p z row =>
    if numCores ≤ k ∨ 4 ≤ p ∨ 8 ≤ z ∨ 128 ≤ row then .fault .notEnabled
    else .next (s.modPart k p (fun x => { x with badAcc := (z * 128 + row) :: x.badAcc.filter (· != z * 128 + row) }))

/-- PCIE_LINK_DOWN (22 R414): a port's link goes down or comes back; one that failed at boot, or port 1 in recovery, does
not (23 R430, R431). -/
def execPcieLinkDown (port : Nat) (up : Bool) (s : State) : Out :=
  let bad := (Tab.get s.purser.steps default 3).units / 2 ^ port % 2 == 1 || (s.purser.mode == 1 && port == 1)
  if 2 ≤ port || (up && bad) then .fault .notEnabled else .next (s.modPort port (fun p => { p with down := !up }))

end Sys2Proof.Machine
end

