-- ==== Sys2Proof/Machine/HostRows.lean ====
section
/-! DEFINITION. What a host does: registers in BAR 0, memory in BAR 2, AtomicOps, and the queue registers (spec 22 R410 to
R419). -/
namespace Sys2Proof.Machine

/-! ### BAR 0 (22 R412) -/

/-- Whether an issuer exists. -/
def issuerOk (i : Issuer) : Bool :=
  match i with
  | .host p => decide (p < 2)
  | .ctx k c => decide (k < numCores) && decide (c < 8)
  | .strand k p sl => decide (k < numCores) && decide (p < 4) && decide (sl < 32)

/-- A message waiting at an entry that is no longer masked is sent (log 37). -/
def Port.flushPending (p : Port) (vec : Nat) : Port :=
  if p.pba.contains vec && !p.masked vec then { p with pba := p.pba.filter (· != vec), sent := vec :: p.sent } else p

/-- The port that owns a queue (22 R416). -/
def HostQueue.owner (q : HostQueue) : Nat := fieldNat q.qctl 59 59
def HostQueue.en (q : HostQueue) : Bool := fieldNat q.qctl 63 63 == 1
/-- A refused write sets ERR (22 R415, R416). -/
def HostQueue.setErr (q : HostQueue) : HostQueue := { q with qctl := q.qctl ||| BitVec.ofNat 64 (2 ^ 62) }

/-- REGISTER_WRITE (00 R8, R9): a write of a register. A system register takes the fields that are not reserved, where they are in range (16 R337, log 62); an
MSI-X entry, BAR2WIN and a queue's BASE are a host's alone. -/
def execRegisterWrite (issuer : Issuer) (reg : RegId) (value : Word) (s : State) : Out :=
  if !issuerOk issuer then .fault .notEnabled
  else match reg with
  | .sys n =>
    if !isSysReg n || (n == 0x208 && s.tlbBusy) then .fault .notEnabled
    else .next (s.regWrite issuer n value)
  | .bar2win =>
    (match issuer with
     | .host p => .next (s.modPort p (fun x => { x with win := fieldNat value 47 36 }))
     | _ => .fault .notEnabled)
  | .qbase q =>
    (match issuer with
     | .host p =>
       if 64 ≤ q then .fault .notEnabled
       else .next (s.modQueue q (fun x =>
         if x.owner ≠ p then x.setErr
         else if x.en then x
         else { x with qbase := BitVec.ofNat 64 (fieldNat value 47 12 * 4096) }))
     | _ => .fault .notEnabled)
  | .msix e w =>
    (match issuer with
     | .host p =>
       if 256 ≤ e ∨ 2 ≤ w then .fault .notEnabled
       else .next (s.modPort p (fun x => ({ x with msix := x.msix.put (2 * e + w) value } : Port).flushPending e))
     | _ => .fault .notEnabled)

/-- READ_CLEAR (00 R8, 19 R379): a read of a counter returns it and clears it. A host's read completes with it. -/
def execReadClear (issuer : Issuer) (n : Nat) (s : State) : Out :=
  if !issuerOk issuer || !(0x229 ≤ n && n ≤ 0x22B) then .fault .notEnabled
  else
    let v := s.sysRead issuer 0 n
    match issuer with
    | .host p => .next (v.2.modPort p (fun x => { x with rdata := v.1.toNat, ur := false }))
    | _ => .next v.2

/-- The registers of a queue by their offset (22 R415). -/
def HostQueue.reg (q : HostQueue) (off : Nat) : Nat :=
  match off with
  | 0 => q.qctl.toNat
  | 8 => q.qbase.toNat
  | 16 => q.qtail
  | 24 => q.qhead
  | 32 => q.qdone
  | 40 => q.nfail % 2 ^ 32 * 2 ^ 32 + q.cause % 2 ^ 8 * 2 ^ 24 + q.ftask % 2 ^ 20
  | _ => 0

/-- The 64-bit word of BAR 0 at an offset, as a read through a port returns it, and the state after: an RC register clears
(00 R8). Reserved offsets read as zero (22 R412). ASID is a context's own: a host reads a free value there (log 37). -/
def State.bar0Word (s : State) (port off : Nat) : Nat × State :=
  if off = 0 then (s.devid port, s)
  else if 0x1000 ≤ off ∧ off < 0x1800 then
    let n := 0x200 + (off - 0x1000) / 8
    if n = 0x210 then ((Config.freeWord s.fresh 0).toNat % 2 ^ 16, { s with fresh := s.fresh + 1 })
    else if isSysReg n then let v := s.sysRead (.host port) 0 n; (v.1.toNat, v.2)
    else (0, s)
  else if 0x10000 ≤ off ∧ off < 0x11000 then ((s.queue ((off - 0x10000) / 64)).reg (off % 64), s)
  else if 0x20000 ≤ off ∧ off < 0x21000 then (((s.port port).msixWord ((off - 0x20000) / 8)).toNat, s)
  else if 0x21000 ≤ off ∧ off < 0x21020 then
    ((List.range 64).foldl (fun x i => x + bit ((s.port port).pba.contains ((off - 0x21000) * 8 + i)) * 2 ^ i) 0, s)
  else if off = 0x30000 then ((s.port port).win * 2 ^ 36, s)
  else (0, s)

/-- Whether an offset of BAR 0 holds a register that a write can change; the write of it has a row of its own. -/
def bar0Written (off : Nat) : Bool :=
  (0x1000 ≤ off && off < 0x1800 && isSysReg (0x200 + (off - 0x1000) / 8)) ||
    (0x10000 ≤ off && off < 0x11000 && decide (off % 64 < 24)) || (0x20000 ≤ off && off < 0x21000) ||
    (0x30000 ≤ off && off < 0x30008)

/-- BAR0_ACCESS_ERROR (22 R412): an access that is not 32 or 64 bits wide and naturally aligned completes with Unsupported
Request. Any other read completes with the register's data, whole or one half; a write of a reserved or read-only offset is
ignored, and a write of another register is that register's own row. -/
def execBar0AccessError (port off size : Nat) (wr : Bool) (s : State) : Out :=
  if 2 ≤ port ∨ 0x100000 ≤ off then .fault .notEnabled
  else if ¬((size = 4 ∨ size = 8) ∧ off % size = 0) then
    .next (s.modPort port (fun p => { p with ur := true, rdata := if wr then p.rdata else 0 }))
  else if wr then (if bar0Written off then .fault .notEnabled else .next s)
  else
    let v := s.bar0Word port (off / 8 * 8)
    .next (v.2.modPort port (fun p => { p with ur := false, rdata := v.1 / 2 ^ (off % 8 * 8) % 2 ^ (8 * size) }))

/-! ### BAR 2 (22 R413) -/

/-- Whether a host can reach a BAR 2 range through a port. -/
def State.bar2Ok (s : State) (port off size : Nat) : Bool :=
  decide (port < 2) && !(s.port port).down && decide (1 ≤ size) && decide (off + size ≤ 2 ^ 36)

/-- The device physical address of a BAR 2 offset. -/
def State.bar2Addr (s : State) (port off : Nat) : Nat := (s.port port).win * 2 ^ 36 + off

/-- Whether every byte of a range lies in tier H or tier C. -/
def State.inTiers (s : State) (a size : Nat) : Bool :=
  let ok (b : Nat) : Bool := match s.phys b with | .tierH => true | .tierC => true | _ => false
  ok a && ok (a + size - 1)

/-- The lines of a range. -/
def linesOf (a size : Nat) : List Nat := (List.range ((a + size + 63) / 64 - a / 64)).map (fun i => a / 64 + i)

/-- The home value of a range for a host; where a line is uncorrectable the value is free (log 34). -/
def State.homeRead (s : State) (a size : Nat) : Nat × State :=
  if (linesOf a size).any (fun l => s.lineBad (64 * l)) then
    ((List.range size).foldl (fun x i => x + (Config.freeWord s.fresh i).toNat % 256 * 256 ^ i) 0, { s with fresh := s.fresh + 1 })
  else (s.mem.read a size, s)

/-- A host's access completes with data. -/
def State.complete (s : State) (port v : Nat) : State := s.modPort port (fun p => { p with rdata := v, ur := false })

/-- HOST_BAR2_READ (22 R413) -/
def execHostBar2Read (port off size : Nat) (s : State) : Out :=
  let a := s.bar2Addr port off
  if !s.bar2Ok port off size then .fault .notEnabled
  else if !s.inTiers a size then .next (s.countDiscard.complete port (2 ^ (8 * size) - 1))
  else
    let v := s.homeRead a size
    .next (v.2.complete port v.1)

/-- HOST_BAR2_WRITE (22 R413): the write arrives at its home. -/
def execHostBar2Write (port off : Nat) (data : List Byte) (s : State) : Out :=
  let a := s.bar2Addr port off
  if !s.bar2Ok port off data.length then .fault .notEnabled
  else if !s.inTiers a data.length then .next s.countDiscard
  else .next (s.homeWrite a data)

/-- The result of an AtomicOp: 0 FetchAdd, 1 Swap, 2 CAS with the comparand `a` (22 R410). -/
def pcieAtomic (op n old : Nat) (a b : Word) : Nat :=
  let w := 2 ^ (8 * n)
  match op with
  | 0 => (old + a.toNat) % w
  | 1 => a.toNat % w
  | _ => if old = a.toNat % w then b.toNat % w else old

/-- HOST_ATOMICOP (22 R413): performed at the home; a misaligned one completes with Unsupported Request (log 37). -/
def execHostAtomicop (port off : Nat) (wide : Bool) (op : Nat) (a b : Word) (s : State) : Out :=
  let n := if wide then 8 else 4
  let at_ := s.bar2Addr port off
  if !s.bar2Ok port off n || decide (2 < op) then .fault .notEnabled
  else if off % n ≠ 0 then .next (s.modPort port (fun p => { p with ur := true }))
  else if !s.inTiers at_ n then .next (s.countDiscard.complete port (2 ^ (8 * n) - 1))
  else
    let v := s.homeRead at_ n
    .next ((v.2.homeWrite at_ (bytesOf n (pcieAtomic op n v.1 a b))).complete port v.1)

/-! ### Queues (22 R415 to R417) -/

/-- The fields of QCTL that a write sets: all but ERR and the reserved bits. -/
def qctlFields (v : Word) : Nat := v.toNat % 2 ^ 64 / 2 ^ 63 * 2 ^ 63 + fieldNat v 61 35 * 2 ^ 35

/-- Whether the Purser refuses a QCTL write (22 R416, 23 R431). -/
def State.qctlRefused (s : State) (q : HostQueue) (v : Word) : Bool :=
  let en := fieldNat v 63 63 == 1
  let n := fieldNat v 39 35
  let baseOk := match s.phys (fieldNat q.qbase 47 12 * 4096) with | .tierH => true | .host _ => true | _ => false
  (en && !baseOk) || decide (2 ≤ fieldNat v 61 60) || decide (n < 4) || decide (16 < n) ||
    (q.en && fieldNat v 61 35 != fieldNat q.qctl 61 35) || (en && s.purser.mode == 1)

/-- Apply a QCTL write (22 R416): ERR clears where a 1 is written. -/
def State.applyQctl (s : State) (i : Nat) (v : Word) : State :=
  s.modQueue i (fun q =>
    if s.qctlRefused q v then q.setErr
    else { q with qctl := BitVec.ofNat 64 (qctlFields v + (if fieldNat v 62 62 = 1 then 0 else fieldNat q.qctl 62 62 * 2 ^ 62)) })

/-- QCTL_WRITE (22 R415, R416): a write of QCTL, which the Purser applies later; through the other port while the queue is
enabled it is discarded. Writes are applied in their order. -/
def execQctlWrite (port q : Nat) (value : Word) (s : State) : Out :=
  if 2 ≤ port ∨ 64 ≤ q then .fault .notEnabled
  else
    let s1 := match (s.queue q).wait with
      | some v => s.applyQctl q v
      | none => s
    .next (s1.modQueue q (fun x => if x.en && x.owner != port then { x.setErr with wait := none } else { x with wait := some value, since := s.cycle }))

/-- QCTL_APPLY (22 R416) -/
def execQctlApply (q : Nat) (s : State) : Out :=
  match (s.queue q).wait with
  | none => .fault .notEnabled
  | some v => .next ((s.applyQctl q v).modQueue q (fun x => { x with wait := none }))

/-- QTAIL_WRITE (22 R415, R417) -/
def execQtailWrite (port q : Nat) (value : Word) (s : State) : Out :=
  if 2 ≤ port ∨ 64 ≤ q then .fault .notEnabled
  else .next (s.modQueue q (fun x =>
    if x.owner ≠ port then x.setErr
    else if 2 ^ fieldNat x.qctl 39 35 < (value.toNat % 2 ^ 32 + 2 ^ 32 - x.qhead) % 2 ^ 32 then x.setErr
    else { x with qtail := value.toNat % 2 ^ 32 }))

end Sys2Proof.Machine
end

