-- ==== Sys2Proof/Machine/Sha.lean ====
section
/-! DEFINITION. SHA-256, the digest that the Purser measures and signs with (23 R437, R438; the function itself is that of
FIPS 180-4, log 12). -/
namespace Sys2Proof.Machine

/-- The constants of the rounds: the first 32 bits of the fraction of the cube roots of the first 64 primes. -/
def shaK : List W32 :=
  [0x428a2f98, 0x71374491, 0xb5c0fbcf, 0xe9b5dba5, 0x3956c25b, 0x59f111f1, 0x923f82a4, 0xab1c5ed5] ++
  [0xd807aa98, 0x12835b01, 0x243185be, 0x550c7dc3, 0x72be5d74, 0x80deb1fe, 0x9bdc06a7, 0xc19bf174] ++
  [0xe49b69c1, 0xefbe4786, 0x0fc19dc6, 0x240ca1cc, 0x2de92c6f, 0x4a7484aa, 0x5cb0a9dc, 0x76f988da] ++
  [0x983e5152, 0xa831c66d, 0xb00327c8, 0xbf597fc7, 0xc6e00bf3, 0xd5a79147, 0x06ca6351, 0x14292967] ++
  [0x27b70a85, 0x2e1b2138, 0x4d2c6dfc, 0x53380d13, 0x650a7354, 0x766a0abb, 0x81c2c92e, 0x92722c85] ++
  [0xa2bfe8a1, 0xa81a664b, 0xc24b8b70, 0xc76c51a3, 0xd192e819, 0xd6990624, 0xf40e3585, 0x106aa070] ++
  [0x19a4c116, 0x1e376c08, 0x2748774c, 0x34b0bcb5, 0x391c0cb3, 0x4ed8aa4a, 0x5b9cca4f, 0x682e6ff3] ++
  [0x748f82ee, 0x78a5636f, 0x84c87814, 0x8cc70208, 0x90befffa, 0xa4506ceb, 0xbef9a3f7, 0xc67178f2]

/-- The eight words the digest starts from. -/
def shaStart : List W32 :=
  [0x6a09e667, 0xbb67ae85, 0x3c6ef372, 0xa54ff53a, 0x510e527f, 0x9b05688c, 0x1f83d9ab, 0x5be0cd19]

/-- The message schedule, newest word first, extended by `n` words. -/
def shaSchedule (n : Nat) (w : List W32) : List W32 :=
  match n with
  | 0 => w
  | m + 1 =>
    let a := w.getD 14 0
    let b := w.getD 1 0
    let s0 := a.rotateRight 7 ^^^ a.rotateRight 18 ^^^ (a >>> 3)
    let s1 := b.rotateRight 17 ^^^ b.rotateRight 19 ^^^ (b >>> 10)
    shaSchedule m ((w.getD 15 0 + s0 + w.getD 6 0 + s1) :: w)

/-- One round: the working words after a constant and a word of the schedule. -/
def shaRound (h : List W32) (kw : W32 × W32) : List W32 :=
  match h with
  | [a, b, c, d, e, f, g, x] =>
    let t1 := x + (e.rotateRight 6 ^^^ e.rotateRight 11 ^^^ e.rotateRight 25) + ((e &&& f) ^^^ (~~~e &&& g)) + kw.1 + kw.2
    let t2 := (a.rotateRight 2 ^^^ a.rotateRight 13 ^^^ a.rotateRight 22) + ((a &&& b) ^^^ (a &&& c) ^^^ (b &&& c))
    [t1 + t2, a, b, c, d + t1, e, f, g]
  | _ => h

/-- The big-endian number of a list of bytes. -/
def bigEndian (bs : List Byte) : Nat := bs.foldl (fun n b => n * 256 + b.toNat) 0

/-- The `n` 4-byte words of a list of bytes. -/
def shaWords (n : Nat) (bs : List Byte) : List W32 :=
  (List.range n).map (fun i => BitVec.ofNat 32 (bigEndian ((bs.drop (4 * i)).take 4)))

/-- The digest after `n` blocks of 64 bytes. -/
def shaBlocks (n : Nat) (h : List W32) (bs : List Byte) : List W32 :=
  match n with
  | 0 => h
  | m + 1 =>
    let w := (shaSchedule 48 (shaWords 16 bs).reverse).reverse
    shaBlocks m (List.zipWith (· + ·) h ((shaK.zip w).foldl shaRound h)) (bs.drop 64)

/-- The message with its padding: a one bit, zeros, and its length in bits. -/
def shaPad (bs : List Byte) : List Byte :=
  bs ++ [(0x80 : Byte)] ++ List.replicate ((119 - bs.length % 64) % 64) (0 : Byte) ++ (bytesOf 8 (8 * bs.length)).reverse

/-- SHA-256 of a list of bytes: the 32 bytes of the digest. -/
def sha256 (bs : List Byte) : List Byte :=
  let p := shaPad bs
  (shaBlocks (p.length / 64) shaStart p).flatMap (fun w => (bytesOf 4 w.toNat).reverse)

end Sys2Proof.Machine
end

