-- ==== Sys2Proof/Machine/PurserRows.lean ====
section
/-! DEFINITION. What the Purser does: boot and its record, power, the error history, sparing and attestation (spec 23 R429
to R438). -/
namespace Sys2Proof.Machine

/-- The Purser's clock, in ns: it runs on through resets. -/
def State.purserTime (s : State) : Nat := s.purser.clock + s.devtime

def State.modPurser (s : State) (f : Purser → Purser) : State := { s with purser := f s.purser }

/-! ### The error history (23 R435, R436) -/

/-- KIND of a unit. -/
def errKind (u : ErrUnit) : Nat :=
  match u with
  | .hbmLine _ => 1 | .landingWord .. => 2 | .operandWord .. => 3 | .accumWord .. => 4 | .core _ => 5 | .link _ => 6
  | .bootUnit .. => 7

/-- WHERE of a unit (log 40): CTXID's fields for a core, with the offset above them. -/
def errWhere (u : ErrUnit) : Nat :=
  let at_ (k p off : Nat) : Nat := ctxId k p % 2 ^ 18 + off * 2 ^ 18
  (match u with
   | .hbmLine a => a
   | .landingWord k off => at_ k 0 off
   | .operandWord k p off => at_ k p off
   | .accumWord k p off => at_ k p off
   | .core k => at_ k 0 0
   | .link port => port / 9 * 256 + port % 9
   | .bootUnit step unit => step * 256 + unit) % 2 ^ 48

/-- Write an entry at the next index (23 R436). -/
def State.histEntry (s : State) (u : ErrUnit) (st count : Nat) (status : Word) : State :=
  let i := s.purser.histNext
  let nx := (i + 1) % 30720
  let a := 0x10000 + 32 * i
  let s1 := s.purserWrite a 8 (s.purser.bootcnt % 2 ^ 32 * 2 ^ 32 + s.devtime / 2 ^ 32 % 2 ^ 32)
  let s2 := s1.purserWrite (a + 8) 8 (errKind u * 2 ^ 60 + st * 2 ^ 56 + min count 255 * 2 ^ 48 + errWhere u)
  let s3 := (s2.purserWrite (a + 16) 8 status.toNat).purserWrite (a + 24) 8 0
  (s3.purserWrite 0x10018 8 nx).modPurser (fun p => { p with histNext := nx })

/-- The window of a unit in ns, its threshold, and whether corrected errors count toward it (23 R435). -/
def errLimit (u : ErrUnit) : Nat × Nat × Bool :=
  match u with
  | .hbmLine _ => (86400000000000, 2, true)
  | .landingWord .. => (3600000000000, 2, true)
  | .operandWord .. => (3600000000000, 2, true)
  | .accumWord .. => (3600000000000, 2, true)
  | .core _ => (86400000000000, 4, false)
  | .link _ => (60000000000, 1000, true)
  | .bootUnit .. => (0, 2, false)

/-- The counts of a unit within its window, with one more if the error counts. -/
def State.errTimes (s : State) (u : ErrUnit) (corrected : Bool) : List Nat :=
  let old := match s.purser.errors.find? (fun e => e.unit == u) with | some e => e.times | none => []
  let kept := old.filter (fun t => decide (s.purserTime ≤ t + (errLimit u).1))
  if corrected == (errLimit u).2.2 then s.purserTime :: kept else kept

/-- Whether a unit has been classed as lasting and waits for its repair. -/
def State.isLasting (s : State) (u : ErrUnit) : Bool := s.purser.errors.any (fun e => e.unit == u && e.lasting)

/-- What a lasting unit brings about: a line's row is to be spared, a core is skipped from the next boot, a link stays down
from its next training; the others wait for the next boot (23 R435). -/
def State.unitLasting (s : State) (u : ErrUnit) : State :=
  s.modPurser (fun p => match u with
    | .hbmLine a => { p with sparing := a / 64 :: p.sparing.filter (· != a / 64) }
    | .core k => { p with lasting := (7, k) :: p.lasting.filter (· != (7, k)) }
    | .link n => { p with downLinks := n :: p.downLinks.filter (· != n) }
    | _ => p)

/-- ERROR_HISTORY_ENTRY (23 R435, R436): an error is counted against its unit and entered, transient or lasting. `recurred`:
an uncorrectable error that came back after a rewrite. -/
def execErrorHistoryEntry (unit : ErrUnit) (corrected recurred : Bool) (status : Word) (s : State) : Out :=
  let ts := s.errTimes unit corrected
  let lasting := decide ((errLimit unit).2.1 ≤ ts.length) || (recurred && !corrected)
  let s1 := s.modPurser (fun p => { p with errors := ⟨unit, ts, lasting || s.isLasting unit⟩ :: p.errors.filter (fun e => e.unit != unit) })
  let s2 := s1.histEntry unit (if lasting then 2 else 1) ts.length status
  .next (if lasting then s2.unitLasting unit else s2)

/-- The stack of a tier H address (log 41). -/
def stackOf (a : Nat) : Nat := a / 0xC00000000

/-- ROW_SPARE (23 R435): the row of a lasting line is copied to a spare row, uncorrectable lines remaining so; when the
stack has none left, the line's 32 KiB frame is retired. -/
def execRowSpare (addr : Nat) (s : State) : Out :=
  if !s.purser.sparing.contains (addr / 64) then .fault .notEnabled
  else
    let k := stackOf addr
    let used := Tab.get s.purser.spares 0 k
    let s1 := s.modPurser (fun p => { p with sparing := p.sparing.filter (· != addr / 64) })
    if used < 512 then
      .next ((s1.modPurser (fun p => { p with spares := p.spares.put k (used + 1), errors := p.errors.filter (fun e => e.unit != .hbmLine addr) })).histEntry
        (.hbmLine addr) 3 0 0)
    else .next ((s1.modPurser (fun p => { p with retired := addr / 2 ^ 15 :: p.retired.filter (· != addr / 2 ^ 15) })).histEntry (.hbmLine addr) 5 0 0)

/-! ### Boot (23 R430, R431) -/

/-- The limit of a step, in µs. -/
def bootLimit (n : Nat) : Nat :=
  match n with
  | 1 => 50000 | 2 => 200000 | 3 => 500000 | 4 => 100000 | 5 => 2000000 | 6 => 300000 | 7 => 1000000 | 8 => 1000000
  | 9 => 2000000 | _ => 50000

/-- The number of units of a unit step; 0 for a required step. -/
def bootUnits (n : Nat) : Nat := match n with | 3 => 2 | 5 => 16 | 7 => 288 | 8 => 4 | 9 => 18 | _ => 0

/-- Whether a step has an alternate. -/
def bootAlt (n : Nat) : Bool := n == 2 || n == 4 || n == 6

/-- The units of a step that failed, or were skipped, in the attempt that the record describes. -/
def Purser.badUnits (p : Purser) (n : Nat) : List Nat :=
  if n = 7 then p.coreMap else (List.range (bootUnits n)).filter (fun u => (Tab.get p.steps default n).units / 2 ^ u % 2 == 1)

/-- The units of a step that are skipped. -/
def Purser.skipped (p : Purser) (n : Nat) : List Nat := (p.lasting.filter (fun e => e.1 == n)).map Prod.snd

/-- The bits of a list of units. -/
def unitBits (us : List Nat) : Nat := us.foldl (fun a u => Nat.lor a (2 ^ u)) 0

/-- Extend a measurement register (23 R437). -/
def Purser.extend (p : Purser) (m : Nat) (image : List Byte) : Purser :=
  let old := Tab.get p.meas 0 m
  { p with meas := p.meas.put m (BitVec.ofNat 256 (numOf (sha256 (bytesOf 32 old.toNat ++ sha256 image)))) }

/-- A required step: its record, and whether the attempt goes on. With NEXT 1 it runs on its alternate at once. -/
def requiredStep (n : Nat) (next : Nat) (o : BootOutcome) : BootStep × Bool :=
  if next = 1 then (if o.failed then (⟨o.time, 1, 2, 0⟩, false) else (⟨o.time, 1, 3, 0⟩, true))
  else if !o.failed then (⟨o.time, 0, 1, 0⟩, true)
  else if bootAlt n && o.altPassed then (⟨o.time, 1, 3, 0⟩, true)
  else (⟨o.time, 0, 2, 0⟩, false)

/-- A unit step: failed units are those found failing among the ones not skipped; one that failed in the previous attempt
too is lasting (23 R431, log 110). -/
def State.unitStep (s : State) (n : Nat) (o : BootOutcome) : State :=
  let p := s.purser
  let skip := p.skipped n
  let bad := (List.range (bootUnits n)).filter (fun u => o.units.contains u && !skip.contains u)
  let twice := bad.filter (fun u => (p.badUnits n).contains u)
  let all := (List.range (bootUnits n)).filter (fun u => skip.contains u || bad.contains u)
  let rec_ : BootStep :=
    ⟨o.time, (if skip.isEmpty && twice.isEmpty then 0 else 2), (if all.isEmpty then 1 else 4), (if n = 7 then 0 else unitBits all)⟩
  let s1 := s.modPurser (fun q => { q with
    steps := q.steps.put n rec_, lasting := twice.map (fun u => (n, u)) ++ q.lasting
    coreMap := if n = 7 then all else q.coreMap, deadStacks := if n = 5 then all else q.deadStacks })
  twice.foldl (fun (x : State) u => x.histEntry (if n = 7 then .core u else .bootUnit n u) 2 2 0) s1

/-- The boot record in the Purser area (23 R431). -/
def State.writeBootRecord (s : State) : State :=
  let p := s.purser
  let s1 := (List.range 7).foldl (fun (x : State) i => x.purserWrite (8 + 8 * i) 8 0)
    (s.purserWrite 0 8 (p.bootcnt % 2 ^ 32 * 2 ^ 32 + p.attempt * 2 ^ 24 + p.mode))
  let s2 := (List.range 10).foldl (fun (x : State) i =>
    let e := Tab.get p.steps default (i + 1)
    (x.purserWrite (0x40 + 16 * i) 8 (e.time % 2 ^ 32 * 2 ^ 32 + e.next * 256 + e.state)).purserWrite (0x48 + 16 * i) 8 e.units) s1
  s2.purserWrite 0x100 64 (unitBits p.coreMap)

/-- The units that failed take their effect: stacks disable their dies, cores fail, ports and links are down (23 R430). -/
def State.bootEffects (s : State) : State :=
  let p := s.purser
  let down (k : Nat) : Bool := p.coreMap.contains k || p.deadStacks.any (fun st => st / 2 == coreDie k)
  let s1 := (List.range numCores).foldl (fun (x : State) k => if down k then x.modCore k (fun c => { c with failed := true }) else x) s
  [0, 1].foldl (fun (x : State) i => x.modPort i (fun q => { q with
    down := (p.badUnits 3).contains i || (p.mode == 1 && i == 1) })) s1

/-- Lasting words of the on-chip memories are remapped at a boot (23 R435): a Landing bank has 16 spare lines. -/
def State.remapUnits (s : State) : State :=
  (s.purser.errors.filter (fun e => e.lasting)).foldl (fun (x : State) e =>
    let drop (q : Purser) : Purser := { q with errors := q.errors.filter (fun z => z.unit != e.unit) }
    match e.unit with
    | .landingWord k off =>
      let b := 64 * k + off / 128 % 64
      let used := Tab.get x.purser.landUsed 0 b
      if used < 16 then ((x.modPurser (fun q => { drop q with landUsed := q.landUsed.put b (used + 1) })).histEntry e.unit 3 e.times.length 0)
      else x.histEntry e.unit 4 e.times.length 0
    | .operandWord .. => (x.modPurser drop).histEntry e.unit 3 e.times.length 0
    | .accumWord .. => (x.modPurser drop).histEntry e.unit 3 e.times.length 0
    | _ => x) s

/-- The attempt ends (23 R430, R431): a failed one leaves the ports down until the next; after the third the device is in
recovery. -/
def State.bootEnd (s : State) (ok : Bool) : State :=
  let n := if ok then 0 else min 3 (s.purser.attempt + 1)
  let s1 := s.modPurser (fun p => { p with
    attempt := n, mode := (if n = 3 then 1 else 0), current := none, todo := [] })
  let s2 := s1.writeBootRecord
  let s3 := s2.modPurser (fun p => p.extend 2 (s2.mem.readList 0 0x140))
  if ok then s3.remapUnits.bootEffects
  else if n = 3 then s3.bootEffects
  else [0, 1].foldl (fun (x : State) i => x.modPort i (fun q => { q with down := true })) s3

/-- What a step that has passed leaves in the Purser: the measurement of the image it loaded (23 R437). -/
def Purser.measure (p : Purser) (n : Nat) : Purser :=
  let slot := if (Tab.get p.steps default n).state = 3 then 1 else 0
  if n = 2 then p.extend 0 (Config.firmwareImage slot) else if n = 6 then p.extend 1 (Config.firmwareImage (2 + slot)) else p

/-- Run one step of the boot; `false` when the attempt has ended. -/
def State.bootStep (s : State) (n : Nat) (o : BootOutcome) : State × Bool :=
  if bootUnits n = 0 then
    let r := requiredStep n (Tab.get s.purser.steps default n).next o
    ((s.modPurser (fun p => { p with steps := p.steps.put n r.1 })).modPurser (fun p => if r.2 then p.measure n else p), r.2)
  else (s.unitStep n o, true)

/-- Run the steps from `n` on; a step that exceeds its limit is left running (BOOT_STEP_LIMIT_EXPIRY). What a step finds
comes from outside (log 14); a step with nothing given passes. `fuel` bounds the steps. -/
def State.bootFrom (s : State) (n : Nat) (os : List BootOutcome) (fuel : Nat) : State :=
  match fuel with
  | 0 => s.bootEnd true
  | f + 1 =>
    let o := os.headD default
    if bootLimit n < o.time then s.modPurser (fun p => { p with current := some n, todo := os })
    else
      let r := s.bootStep n o
      if r.2 then r.1.bootFrom (n + 1) (os.drop 1) f else r.1.bootEnd false

/-- The steps of a record that a new attempt has not run yet: state 0, what they leave to it kept (23 R431). -/
def BootStep.forget (b : BootStep) : BootStep := { b with state := 0, time := 0 }

/-- DEVICE_RESET (23 R430): the state after reset, then the boot steps. The Purser's own store and its area stay; the rest of
memory holds nothing (log 42). The model's own counters run on. -/
def execDeviceReset (outcomes : List BootOutcome) (s : State) : Out :=
  let p := s.purser
  let p1 : Purser := { p with
    bootcnt := p.bootcnt + 1, clock := p.clock + s.devtime, current := none, todo := [], discards := 0, meas := [], served := 0
    polls := 0, powers := 0, deadStacks := [], steps := p.steps.map (fun e => (e.1, e.2.forget)) }
  let s1 : State := { State.reset with
    fabric := { Fabric.init with peer := s.fabric.peer, cwdim := s.fabric.cwdim }
    purser := p1, mem := s.mem.filter (fun e => decide (e.1 < 0x100000)), tick := s.tick, fresh := s.fresh, agenda := s.agenda }
  .next (s1.bootFrom 1 outcomes 10)

/-- BOOT_STEP_LIMIT_EXPIRY (23 R430): the running step exceeds its limit and counts as failed; the boot goes on. -/
def execBootStepLimitExpiry (step : Nat) (s : State) : Out :=
  if s.purser.current ≠ some step then .fault .notEnabled
  else
    let os := s.purser.todo
    let o : BootOutcome := { os.headD default with failed := true, time := bootLimit step }
    let s1 := s.modPurser (fun p => { p with current := none, todo := [] })
    let r := s1.bootStep step o
    .next (if r.2 then r.1.bootFrom (step + 1) (os.drop 1) (10 - step) else r.1.bootEnd false)

/-! ### Power (23 R432 to R434) -/

/-- BLOCK_HOLD (23 R432, R433): for some cycles, from this one on, a block of a die starts no new work. Blocks 0 to 143 are
its partitions, four to a core, 144 to 179 the Landings of its cores, 180 its router and 181 and 182 the port routers, which
hold packets alone (log 105); holds of the other blocks change only timing that the model leaves open (log 4). -/
def execBlockHold (die block cycles : Nat) (s : State) : Out :=
  if 8 ≤ die then .fault .notEnabled
  else if block < 144 then
    .next (s.modPart (36 * die + block / 4) (block % 4) (fun x => { x with hold := x.hold + cycles }))
  else if block < 180 then .next (s.modCore (36 * die + (block - 144)) (fun c => { c with hold := c.hold + cycles }))
  else if block < 183 then
    let r := if block = 180 then die else block - 173
    .next { s with fabric := { s.fabric with holds := s.fabric.holds.put r (Tab.get s.fabric.holds 0 r + cycles) } }
  else .next s

/-- The caps of the package and of the five rows of blocks, in mW (00 R5, 23 R432). -/
def powerCap (i : Nat) : Nat := [6400000, 3200000, 1500000, 700000, 500000, 500000].getD i 0

/-- POWER_STATUS_UPDATE (23 R434): the readings are free values within the caps (log 13). -/
def execPowerStatusUpdate (s : State) : Out :=
  let n := s.devtime / 10000000
  if n ≤ s.purser.powers then .fault .notEnabled
  else
    let s1 := (List.range 16).foldl (fun (x : State) i =>
      x.purserWrite (0x8000 + 8 * i) 8 (if i < 6 then Config.powerReading s.tick i % (powerCap i + 1)
        else if i < 8 then 0 else (s.die (i - 8)).heldCyc)) s
    .next (s1.modPurser (fun p => { p with powers := n }))

/-! ### Attestation (23 R438) -/

/-- Write a list of bytes of the Purser area. -/
def State.purserBytes (s : State) (a : Nat) (bs : List Byte) : State := { s with mem := s.mem.writeList a bs }

/-- ATTESTATION_POLL (23 R438): a request number that differs from the last one served gets its report, the signature before
the number. -/
def execAttestationPoll (s : State) : Out :=
  let n := s.devtime / 100000
  if n ≤ s.purser.polls then .fault .notEnabled
  else
    let s0 := s.modPurser (fun p => { p with polls := n })
    let req := s.mem.read 0x1020 8
    if req = 0 ∨ req = s.purser.served.toNat then .next s0
    else
      let head : List Byte := bytesOf 8 req ++ bytesOf 8 (s.devid 0) ++ bytesOf 16 s.purser.bootcnt ++ s.mem.readList 0x1000 32 ++
        (List.range 8).flatMap (fun i => bytesOf 32 (Tab.get s.purser.meas 0 i).toNat) ++ List.replicate 64 (0 : Byte)
      let s1 := s0.purserBytes 0x2008 (head.drop 8)
      let s2 := (s1.purserBytes 0x4030 (Config.certificate.take 16336)).purserBytes 0x2180 ((Config.signature (sha256 head)).take 7856)
      .next ((s2.purserWrite 0x2000 8 req).modPurser (fun p => { p with served := BitVec.ofNat 64 req }))

end Sys2Proof.Machine
end

