-- ==== Sys2Proof/Machine/Rest.lean ====
section
/-! DEFINITION. Strands at rest, and the entry of their handlers (spec 08 R199 to R201, 10 R250). -/
namespace Sys2Proof.Machine

/-- The park of a strand in `wany`: the common PC after it. -/
def Strand.park? (st : Strand) : Option Word :=
  (st.lanes.find? (fun l => !l.2.exited && l.2.wait == .wany)).map (fun l => l.2.pc)

/-- Whether the lanes of a strand that stand together at a PC are held there by a queue, on the destination of an unserved
pop or at a push without room, or by a fence (08 R191, R196, R201). -/
def State.heldAt (s : State) (k p slot : Nat) (st : Strand) (pc : Word) : Bool :=
  let x := (s.laneAt k p st.gang (maskClass false (st.lanesAt pc)) pc).1
  let onPop := match x with
    | .ok m => m.2.waits && st.lanes.any (fun l => !l.2.exited &&
        !({ l.2 with pendV := (s.core k).popRegs p slot l.1, pendP := [] } : Lane).issuable m.2)
    | .error _ => false
  onPop || (match s.subsetAt k p slot st pc, x with
    | some b, .ok m => (match b.try_ s k p, m.1 with | .waits _, _ => true | .holds, .laneFence _ => true | _, _ => false)
    | _, _ => false)

/-- The common PC of a strand at rest (08 R201). -/
def State.restPc (s : State) (k p slot : Nat) (st : Strand) : Option Word :=
  match st.lanes.filter (fun l => !l.2.exited) with
  | [] => none
  | l0 :: r =>
    if (l0 :: r).all (fun l => l.2.pc == l0.2.pc && l.2.wait == .none &&
        !l.2.pendV.any (fun v => decide (120 ≤ v) && decide (v < 128)) && !l.2.pendP.contains 6) && !st.fret &&
        !s.heldAt k p slot st l0.2.pc
    then some l0.2.pc else none

/-- The slot that a strand can take, and the resume address (10 R250): parked in `wany` one of its list, at rest an
asynchronous one. -/
def State.strandEntry (s : State) (k p slot : Nat) : Option (Nat × Word) :=
  let st := s.strand k p slot
  let pick (r : BitVec 16) (pc : Word) : Option (Nat × Word) := if r = 0 then none else some (lowestBit r, pc)
  if (Tab.find (s.part k p).strands slot).isNone || st.stopped || st.finished || st.ev.inh then none
  else match st.park? with
    | some pc => pick (st.ev.ready st.listW) pc
    | none =>
      if st.ev.ready st.ev.asyncMask = 0 then none
      else (s.restPc k p slot st).bind (pick (st.ev.ready st.ev.asyncMask))

/-- STRAND_HANDLER_ENTRY (08 R199 to R201): a strand parked in wany takes a slot of its list, or one at rest an
asynchronous slot. -/
def execStrandHandlerEntry (core part slot : Nat) (s : State) : Out :=
  match s.strandEntry core part slot with
  | none => .fault .notEnabled
  | some (j, pc) => .next (s.modStrand core part slot (fun x => x.enterHandler j pc))

end Sys2Proof.Machine
end

