-- ==== Sys2Proof/Machine/Dispatch.lean ====
section
/-! DEFINITION. One arm for each instruction: the call of its meaning. -/
namespace Sys2Proof.Machine

/-- The meaning of every instruction and happening. -/
def exec (i : Instr) (s : State) : Host.Outcome State Fault Refusal :=
  match i with
  | .issuePass core part => Sys2Proof.Machine.execIssuePass core part s
  | .bundleIssue core => Sys2Proof.Machine.execBundleIssue core s
  | .tres f => Sys2Proof.Machine.execTres f s
  | .trel f => Sys2Proof.Machine.execTrel f s
  | .tcfg f => Sys2Proof.Machine.execTcfg f s
  | .tld f => Sys2Proof.Machine.execTld f s
  | .tldX8 f => Sys2Proof.Machine.execTldX8 f s
  | .tldX16 f => Sys2Proof.Machine.execTldX16 f s
  | .tst f => Sys2Proof.Machine.execTst f s
  | .tzero f => Sys2Proof.Machine.execTzero f s
  | .zclr f => Sys2Proof.Machine.execZclr f s
  | .zld f => Sys2Proof.Machine.execZld f s
  | .zdrain f => Sys2Proof.Machine.execZdrain f s
  | .fbind f => Sys2Proof.Machine.execFbind f s
  | .fig f => Sys2Proof.Machine.execFig f s
  | .mmaBf16 f => Sys2Proof.Machine.execMmaBf16 f s
  | .mmaF16 f => Sys2Proof.Machine.execMmaF16 f s
  | .mmaE4m3 f => Sys2Proof.Machine.execMmaE4m3 f s
  | .mmaE5m2 f => Sys2Proof.Machine.execMmaE5m2 f s
  | .mmaI8 f => Sys2Proof.Machine.execMmaI8 f s
  | .mmaMx8 f => Sys2Proof.Machine.execMmaMx8 f s
  | .mmaMx6 f => Sys2Proof.Machine.execMmaMx6 f s
  | .mmaMx4 f => Sys2Proof.Machine.execMmaMx4 f s
  | .mmaI4 f => Sys2Proof.Machine.execMmaI4 f s
  | .mmaI4e f => Sys2Proof.Machine.execMmaI4e f s
  | .mmaF64 f => Sys2Proof.Machine.execMmaF64 f s
  | .tcvt f => Sys2Proof.Machine.execTcvt f s
  | .tadd f => Sys2Proof.Machine.execTadd f s
  | .tmul f => Sys2Proof.Machine.execTmul f s
  | .tfma f => Sys2Proof.Machine.execTfma f s
  | .tscale f => Sys2Proof.Machine.execTscale f s
  | .tmaxr f => Sys2Proof.Machine.execTmaxr f s
  | .tsumr f => Sys2Proof.Machine.execTsumr f s
  | .texp2 f => Sys2Proof.Machine.execTexp2 f s
  | .tmask f => Sys2Proof.Machine.execTmask f s
  | .tsel f => Sys2Proof.Machine.execTsel f s
  | .tquant f => Sys2Proof.Machine.execTquant f s
  | .tdequant f => Sys2Proof.Machine.execTdequant f s
  | .ttrans f => Sys2Proof.Machine.execTtrans f s
  | .hardBoundFigure n f => Sys2Proof.Machine.execHardBoundFigure n f s
  | .routineBoundFigure n f => Sys2Proof.Machine.execRoutineBoundFigure n f s
  | .unboundFigureIssue n f => Sys2Proof.Machine.execUnboundFigureIssue n f s
  | .retiredFigureIssue n f => Sys2Proof.Machine.execRetiredFigureIssue n f s
  | .iadd f => Sys2Proof.Machine.execIadd f s
  | .isub f => Sys2Proof.Machine.execIsub f s
  | .imul f => Sys2Proof.Machine.execImul f s
  | .laneAnd f => Sys2Proof.Machine.execLaneAnd f s
  | .laneOr f => Sys2Proof.Machine.execLaneOr f s
  | .laneXor f => Sys2Proof.Machine.execLaneXor f s
  | .laneShl f => Sys2Proof.Machine.execLaneShl f s
  | .laneShr f => Sys2Proof.Machine.execLaneShr f s
  | .laneSra f => Sys2Proof.Machine.execLaneSra f s
  | .imin f => Sys2Proof.Machine.execImin f s
  | .imax f => Sys2Proof.Machine.execImax f s
  | .mov f => Sys2Proof.Machine.execMov f s
  | .lanePopc f => Sys2Proof.Machine.execLanePopc f s
  | .laneClz f => Sys2Proof.Machine.execLaneClz f s
  | .not f => Sys2Proof.Machine.execNot f s
  | .fadd f => Sys2Proof.Machine.execFadd f s
  | .fsub f => Sys2Proof.Machine.execFsub f s
  | .fmul f => Sys2Proof.Machine.execFmul f s
  | .fmin f => Sys2Proof.Machine.execFmin f s
  | .fmax f => Sys2Proof.Machine.execFmax f s
  | .fabs f => Sys2Proof.Machine.execFabs f s
  | .fneg f => Sys2Proof.Machine.execFneg f s
  | .dadd f => Sys2Proof.Machine.execDadd f s
  | .dsub f => Sys2Proof.Machine.execDsub f s
  | .dmul f => Sys2Proof.Machine.execDmul f s
  | .laneLdL f => Sys2Proof.Machine.execLaneLdL f s
  | .laneStL f => Sys2Proof.Machine.execLaneStL f s
  | .exit f => Sys2Proof.Machine.execExit f s
  | .laneNop f => Sys2Proof.Machine.execLaneNop f s
  | .yield f => Sys2Proof.Machine.execYield f s
  | .iaddLong f => Sys2Proof.Machine.execIaddLong f s
  | .isubLong f => Sys2Proof.Machine.execIsubLong f s
  | .imulLong f => Sys2Proof.Machine.execImulLong f s
  | .laneAndLong f => Sys2Proof.Machine.execLaneAndLong f s
  | .laneOrLong f => Sys2Proof.Machine.execLaneOrLong f s
  | .laneXorLong f => Sys2Proof.Machine.execLaneXorLong f s
  | .laneShlLong f => Sys2Proof.Machine.execLaneShlLong f s
  | .laneShrLong f => Sys2Proof.Machine.execLaneShrLong f s
  | .laneSraLong f => Sys2Proof.Machine.execLaneSraLong f s
  | .iminLong f => Sys2Proof.Machine.execIminLong f s
  | .imaxLong f => Sys2Proof.Machine.execImaxLong f s
  | .movLong f => Sys2Proof.Machine.execMovLong f s
  | .lanePopcLong f => Sys2Proof.Machine.execLanePopcLong f s
  | .laneClzLong f => Sys2Proof.Machine.execLaneClzLong f s
  | .notLong f => Sys2Proof.Machine.execNotLong f s
  | .faddLong f => Sys2Proof.Machine.execFaddLong f s
  | .fsubLong f => Sys2Proof.Machine.execFsubLong f s
  | .fmulLong f => Sys2Proof.Machine.execFmulLong f s
  | .fminLong f => Sys2Proof.Machine.execFminLong f s
  | .fmaxLong f => Sys2Proof.Machine.execFmaxLong f s
  | .fabsLong f => Sys2Proof.Machine.execFabsLong f s
  | .fnegLong f => Sys2Proof.Machine.execFnegLong f s
  | .daddLong f => Sys2Proof.Machine.execDaddLong f s
  | .dsubLong f => Sys2Proof.Machine.execDsubLong f s
  | .dmulLong f => Sys2Proof.Machine.execDmulLong f s
  | .laneLdLLong f => Sys2Proof.Machine.execLaneLdLLong f s
  | .laneStLLong f => Sys2Proof.Machine.execLaneStLLong f s
  | .exitLong f => Sys2Proof.Machine.execExitLong f s
  | .laneNopLong f => Sys2Proof.Machine.execLaneNopLong f s
  | .yieldLong f => Sys2Proof.Machine.execYieldLong f s
  | .imulh f => Sys2Proof.Machine.execImulh f s
  | .imad f => Sys2Proof.Machine.execImad f s
  | .iabs f => Sys2Proof.Machine.execIabs f s
  | .ineg f => Sys2Proof.Machine.execIneg f s
  | .rot f => Sys2Proof.Machine.execRot f s
  | .brev f => Sys2Proof.Machine.execBrev f s
  | .bfe f => Sys2Proof.Machine.execBfe f s
  | .bfi f => Sys2Proof.Machine.execBfi f s
  | .prmt f => Sys2Proof.Machine.execPrmt f s
  | .laneSel f => Sys2Proof.Machine.execLaneSel f s
  | .setp f => Sys2Proof.Machine.execSetp f s
  | .laneLea f => Sys2Proof.Machine.execLaneLea f s
  | .movi f => Sys2Proof.Machine.execMovi f s
  | .dot4 f => Sys2Proof.Machine.execDot4 f s
  | .ffma f => Sys2Proof.Machine.execFfma f s
  | .fsetp f => Sys2Proof.Machine.execFsetp f s
  | .frcp f => Sys2Proof.Machine.execFrcp f s
  | .frsq f => Sys2Proof.Machine.execFrsq f s
  | .fsqrt f => Sys2Proof.Machine.execFsqrt f s
  | .fexp2 f => Sys2Proof.Machine.execFexp2 f s
  | .flog2 f => Sys2Proof.Machine.execFlog2 f s
  | .fsin f => Sys2Proof.Machine.execFsin f s
  | .fcos f => Sys2Proof.Machine.execFcos f s
  | .dfma f => Sys2Proof.Machine.execDfma f s
  | .dmin f => Sys2Proof.Machine.execDmin f s
  | .dmax f => Sys2Proof.Machine.execDmax f s
  | .dsetp f => Sys2Proof.Machine.execDsetp f s
  | .drcp f => Sys2Proof.Machine.execDrcp f s
  | .cvt f => Sys2Proof.Machine.execCvt f s
  | .cvtMx f => Sys2Proof.Machine.execCvtMx f s
  | .laneLdG f => Sys2Proof.Machine.execLaneLdG f s
  | .laneStG f => Sys2Proof.Machine.execLaneStG f s
  | .ldC f => Sys2Proof.Machine.execLdC f s
  | .ldt f => Sys2Proof.Machine.execLdt f s
  | .stt f => Sys2Proof.Machine.execStt f s
  | .ldx f => Sys2Proof.Machine.execLdx f s
  | .stx f => Sys2Proof.Machine.execStx f s
  | .atom f => Sys2Proof.Machine.execAtom f s
  | .atomCas f => Sys2Proof.Machine.execAtomCas f s
  | .red f => Sys2Proof.Machine.execRed f s
  | .qpush f => Sys2Proof.Machine.execQpush f s
  | .qpop f => Sys2Proof.Machine.execQpop f s
  | .qlen f => Sys2Proof.Machine.execQlen f s
  | .bra f => Sys2Proof.Machine.execBra f s
  | .brx f => Sys2Proof.Machine.execBrx f s
  | .laneCall f => Sys2Proof.Machine.execLaneCall f s
  | .laneRet f => Sys2Proof.Machine.execLaneRet f s
  | .join f => Sys2Proof.Machine.execJoin f s
  | .gbar f => Sys2Proof.Machine.execGbar f s
  | .barv f => Sys2Proof.Machine.execBarv f s
  | .barw f => Sys2Proof.Machine.execBarw f s
  | .vote f => Sys2Proof.Machine.execVote f s
  | .shfl f => Sys2Proof.Machine.execShfl f s
  | .matchLanes f => Sys2Proof.Machine.execMatchLanes f s
  | .laneFence f => Sys2Proof.Machine.execLaneFence f s
  | .lanePhase f => Sys2Proof.Machine.execLanePhase f s
  | .laneEvarm f => Sys2Proof.Machine.execLaneEvarm f s
  | .laneEvdis f => Sys2Proof.Machine.execLaneEvdis f s
  | .wany f => Sys2Proof.Machine.execWany f s
  | .laneEvret f => Sys2Proof.Machine.execLaneEvret f s
  | .mbsend f => Sys2Proof.Machine.execMbsend f s
  | .bxfer f => Sys2Proof.Machine.execBxfer f s
  | .rget f => Sys2Proof.Machine.execRget f s
  | .ratom f => Sys2Proof.Machine.execRatom f s
  | .rslotAlloc f => Sys2Proof.Machine.execRslotAlloc f s
  | .rslotPut f => Sys2Proof.Machine.execRslotPut f s
  | .rslotGet f => Sys2Proof.Machine.execRslotGet f s
  | .rslotFree f => Sys2Proof.Machine.execRslotFree f s
  | .renq f => Sys2Proof.Machine.execRenq f s
  | .laneFig f => Sys2Proof.Machine.execLaneFig f s
  | .fret f => Sys2Proof.Machine.execFret f s
  | .laneCrd f => Sys2Proof.Machine.execLaneCrd f s
  | .laneCwr f => Sys2Proof.Machine.execLaneCwr f s
  | .laneTrap f => Sys2Proof.Machine.execLaneTrap f s
  | .laneBrk f => Sys2Proof.Machine.execLaneBrk f s
  | .laneFbar f => Sys2Proof.Machine.execLaneFbar f s
  | .retiredLaneOpcode w0 w1 => Sys2Proof.Machine.execRetiredLaneOpcode w0 w1 s
  | .longLatencyResult core ctx n => Sys2Proof.Machine.execLongLatencyResult core ctx n s
  | .add f => Sys2Proof.Machine.execAdd f s
  | .sub f => Sys2Proof.Machine.execSub f s
  | .mul f => Sys2Proof.Machine.execMul f s
  | .mulhS f => Sys2Proof.Machine.execMulhS f s
  | .mulhN f => Sys2Proof.Machine.execMulhN f s
  | .divS f => Sys2Proof.Machine.execDivS f s
  | .divN f => Sys2Proof.Machine.execDivN f s
  | .remS f => Sys2Proof.Machine.execRemS f s
  | .remN f => Sys2Proof.Machine.execRemN f s
  | .and f => Sys2Proof.Machine.execAnd f s
  | .or f => Sys2Proof.Machine.execOr f s
  | .xor f => Sys2Proof.Machine.execXor f s
  | .andn f => Sys2Proof.Machine.execAndn f s
  | .shl f => Sys2Proof.Machine.execShl f s
  | .shr f => Sys2Proof.Machine.execShr f s
  | .sra f => Sys2Proof.Machine.execSra f s
  | .minS f => Sys2Proof.Machine.execMinS f s
  | .minN f => Sys2Proof.Machine.execMinN f s
  | .maxS f => Sys2Proof.Machine.execMaxS f s
  | .maxN f => Sys2Proof.Machine.execMaxN f s
  | .clz f => Sys2Proof.Machine.execClz f s
  | .popc f => Sys2Proof.Machine.execPopc f s
  | .sel f => Sys2Proof.Machine.execSel f s
  | .madd f => Sys2Proof.Machine.execMadd f s
  | .lea f => Sys2Proof.Machine.execLea f s
  | .li f => Sys2Proof.Machine.execLi f s
  | .lih f => Sys2Proof.Machine.execLih f s
  | .addI f => Sys2Proof.Machine.execAddI f s
  | .subI f => Sys2Proof.Machine.execSubI f s
  | .mulI f => Sys2Proof.Machine.execMulI f s
  | .mulhSI f => Sys2Proof.Machine.execMulhSI f s
  | .mulhNI f => Sys2Proof.Machine.execMulhNI f s
  | .divSI f => Sys2Proof.Machine.execDivSI f s
  | .divNI f => Sys2Proof.Machine.execDivNI f s
  | .remSI f => Sys2Proof.Machine.execRemSI f s
  | .remNI f => Sys2Proof.Machine.execRemNI f s
  | .andI f => Sys2Proof.Machine.execAndI f s
  | .orI f => Sys2Proof.Machine.execOrI f s
  | .xorI f => Sys2Proof.Machine.execXorI f s
  | .andnI f => Sys2Proof.Machine.execAndnI f s
  | .shlI f => Sys2Proof.Machine.execShlI f s
  | .shrI f => Sys2Proof.Machine.execShrI f s
  | .sraI f => Sys2Proof.Machine.execSraI f s
  | .minSI f => Sys2Proof.Machine.execMinSI f s
  | .minNI f => Sys2Proof.Machine.execMinNI f s
  | .maxSI f => Sys2Proof.Machine.execMaxSI f s
  | .maxNI f => Sys2Proof.Machine.execMaxNI f s
  | .cand f => Sys2Proof.Machine.execCand f s
  | .cor f => Sys2Proof.Machine.execCor f s
  | .cnot f => Sys2Proof.Machine.execCnot f s
  | .cmpEq f => Sys2Proof.Machine.execCmpEq f s
  | .cmpNe f => Sys2Proof.Machine.execCmpNe f s
  | .cmpLtS f => Sys2Proof.Machine.execCmpLtS f s
  | .cmpLeS f => Sys2Proof.Machine.execCmpLeS f s
  | .cmpLtN f => Sys2Proof.Machine.execCmpLtN f s
  | .cmpLeN f => Sys2Proof.Machine.execCmpLeN f s
  | .cmpEqI f => Sys2Proof.Machine.execCmpEqI f s
  | .cmpNeI f => Sys2Proof.Machine.execCmpNeI f s
  | .cmpLtSI f => Sys2Proof.Machine.execCmpLtSI f s
  | .cmpLeSI f => Sys2Proof.Machine.execCmpLeSI f s
  | .cmpLtNI f => Sys2Proof.Machine.execCmpLtNI f s
  | .cmpLeNI f => Sys2Proof.Machine.execCmpLeNI f s
  | .catm f => Sys2Proof.Machine.execCatm f s
  | .cwait f => Sys2Proof.Machine.execCwait f s
  | .ldLB8N f => Sys2Proof.Machine.execLdLB8N f s
  | .ldLB16N f => Sys2Proof.Machine.execLdLB16N f s
  | .ldLB32N f => Sys2Proof.Machine.execLdLB32N f s
  | .ldLB64 f => Sys2Proof.Machine.execLdLB64 f s
  | .ldLB8S f => Sys2Proof.Machine.execLdLB8S f s
  | .ldLB16S f => Sys2Proof.Machine.execLdLB16S f s
  | .ldLB32S f => Sys2Proof.Machine.execLdLB32S f s
  | .stLB8 f => Sys2Proof.Machine.execStLB8 f s
  | .stLB16 f => Sys2Proof.Machine.execStLB16 f s
  | .stLB32 f => Sys2Proof.Machine.execStLB32 f s
  | .stLB64 f => Sys2Proof.Machine.execStLB64 f s
  | .lpset f => Sys2Proof.Machine.execLpset f s
  | .call f => Sys2Proof.Machine.execCall f s
  | .ret f => Sys2Proof.Machine.execRet f s
  | .jmpx f => Sys2Proof.Machine.execJmpx f s
  | .ldGB8N f => Sys2Proof.Machine.execLdGB8N f s
  | .ldGB16N f => Sys2Proof.Machine.execLdGB16N f s
  | .ldGB32N f => Sys2Proof.Machine.execLdGB32N f s
  | .ldGB64 f => Sys2Proof.Machine.execLdGB64 f s
  | .ldGB8S f => Sys2Proof.Machine.execLdGB8S f s
  | .ldGB16S f => Sys2Proof.Machine.execLdGB16S f s
  | .ldGB32S f => Sys2Proof.Machine.execLdGB32S f s
  | .stGB8 f => Sys2Proof.Machine.execStGB8 f s
  | .stGB16 f => Sys2Proof.Machine.execStGB16 f s
  | .stGB32 f => Sys2Proof.Machine.execStGB32 f s
  | .stGB64 f => Sys2Proof.Machine.execStGB64 f s
  | .snext f => Sys2Proof.Machine.execSnext f s
  | .spawn f => Sys2Proof.Machine.execSpawn f s
  | .spawnNb f => Sys2Proof.Machine.execSpawnNb f s
  | .sync f => Sys2Proof.Machine.execSync f s
  | .merge f => Sys2Proof.Machine.execMerge f s
  | .tend f => Sys2Proof.Machine.execTend f s
  | .tbar f => Sys2Proof.Machine.execTbar f s
  | .evarm f => Sys2Proof.Machine.execEvarm f s
  | .evdis f => Sys2Proof.Machine.execEvdis f s
  | .twany f => Sys2Proof.Machine.execTwany f s
  | .evret f => Sys2Proof.Machine.execEvret f s
  | .crd f => Sys2Proof.Machine.execCrd f s
  | .cwr f => Sys2Proof.Machine.execCwr f s
  | .phase f => Sys2Proof.Machine.execPhase f s
  | .fence f => Sys2Proof.Machine.execFence f s
  | .fbar f => Sys2Proof.Machine.execFbar f s
  | .brk f => Sys2Proof.Machine.execBrk f s
  | .trap f => Sys2Proof.Machine.execTrap f s
  | .nop f => Sys2Proof.Machine.execNop f s
  | .fstop f => Sys2Proof.Machine.execFstop f s
  | .fdef f => Sys2Proof.Machine.execFdef f s
  | .fring f => Sys2Proof.Machine.execFring f s
  | .fcode f => Sys2Proof.Machine.execFcode f s
  | .fwalk f => Sys2Proof.Machine.execFwalk f s
  | .fcopy f => Sys2Proof.Machine.execFcopy f s
  | .fpage f => Sys2Proof.Machine.execFpage f s
  | .fwait f => Sys2Proof.Machine.execFwait f s
  | .fstat f => Sys2Proof.Machine.execFstat f s
  | .retiredOpEmulation core who installed => Sys2Proof.Machine.execRetiredOpEmulation core who installed s
  | .troupeRendezvous task => Sys2Proof.Machine.execTroupeRendezvous task s
  | .engineJobStart core job => Sys2Proof.Machine.execEngineJobStart core job s
  | .engineJobComplete core job => Sys2Proof.Machine.execEngineJobComplete core job s
  | .engineErrorStop core job => Sys2Proof.Machine.execEngineErrorStop core job s
  | .fbindComplete core ctx => Sys2Proof.Machine.execFbindComplete core ctx s
  | .strandRotation core part => Sys2Proof.Machine.execStrandRotation core part s
  | .laneResultArrival core part slot n => Sys2Proof.Machine.execLaneResultArrival core part slot n s
  | .hangDetect core part slot => Sys2Proof.Machine.execHangDetect core part slot s
  | .hangctlWrite core part value => Sys2Proof.Machine.execHangctlWrite core part value s
  | .joinCompletion core part slot addr => Sys2Proof.Machine.execJoinCompletion core part slot addr s
  | .joinTimeout core part slot addr => Sys2Proof.Machine.execJoinTimeout core part slot addr s
  | .qpushServe core q => Sys2Proof.Machine.execQpushServe core q s
  | .qpopServe core q => Sys2Proof.Machine.execQpopServe core q s
  | .redPerform core part slot n => Sys2Proof.Machine.execRedPerform core part slot n s
  | .strandFinish core part slot => Sys2Proof.Machine.execStrandFinish core part slot s
  | .routineGangStart core inst part => Sys2Proof.Machine.execRoutineGangStart core inst part s
  | .instanceComplete core inst => Sys2Proof.Machine.execInstanceComplete core inst s
  | .landingBankServe core bank => Sys2Proof.Machine.execLandingBankServe core bank s
  | .writeArrival core n => Sys2Proof.Machine.execWriteArrival core n s
  | .transferStart core ch => Sys2Proof.Machine.execTransferStart core ch s
  | .transferComplete core ch n => Sys2Proof.Machine.execTransferComplete core ch n s
  | .ferryPageFault core ch => Sys2Proof.Machine.execFerryPageFault core ch s
  | .ferryHaltError core ch => Sys2Proof.Machine.execFerryHaltError core ch s
  | .fpageComplete core ch => Sys2Proof.Machine.execFpageComplete core ch s
  | .tlbMissWalk core asid va => Sys2Proof.Machine.execTlbMissWalk core asid va s
  | .eventFire core who slot => Sys2Proof.Machine.execEventFire core who slot s
  | .timerSlotExpiry core who slot => Sys2Proof.Machine.execTimerSlotExpiry core who slot s
  | .evpostWrite core who value => Sys2Proof.Machine.execEvpostWrite core who value s
  | .handlerEntry core ctx => Sys2Proof.Machine.execHandlerEntry core ctx s
  | .strandHandlerEntry core part slot => Sys2Proof.Machine.execStrandHandlerEntry core part slot s
  | .savedTierDelivery task slot => Sys2Proof.Machine.execSavedTierDelivery task slot s
  | .stepStart core ctx => Sys2Proof.Machine.execStepStart core ctx s
  | .stepEnd core ctx => Sys2Proof.Machine.execStepEnd core ctx s
  | .launchRecordTake queue => Sys2Proof.Machine.execLaunchRecordTake queue s
  | .taskDispatch die => Sys2Proof.Machine.execTaskDispatch die s
  | .staggerExpiry die launch => Sys2Proof.Machine.execStaggerExpiry die launch s
  | .spawnUnpark die => Sys2Proof.Machine.execSpawnUnpark die s
  | .spawnAnswer core ctx => Sys2Proof.Machine.execSpawnAnswer core ctx s
  | .spawnDeadlockDetect die => Sys2Proof.Machine.execSpawnDeadlockDetect die s
  | .viewFill task => Sys2Proof.Machine.execViewFill task s
  | .childMerge task => Sys2Proof.Machine.execChildMerge task s
  | .syncRelease core ctx => Sys2Proof.Machine.execSyncRelease core ctx s
  | .trapRecordWrite core ctx => Sys2Proof.Machine.execTrapRecordWrite core ctx s
  | .trapringWrite issuer dbg value => Sys2Proof.Machine.execTrapringWrite issuer dbg value s
  | .tlbinvWrite issuer value => Sys2Proof.Machine.execTlbinvWrite issuer value s
  | .tlbinvComplete => Sys2Proof.Machine.execTlbinvComplete s
  | .preemptWrite issuer value => Sys2Proof.Machine.execPreemptWrite issuer value s
  | .preemptStop core ctx => Sys2Proof.Machine.execPreemptStop core ctx s
  | .graceExpiry core ctx => Sys2Proof.Machine.execGraceExpiry core ctx s
  | .deviceSwap task => Sys2Proof.Machine.execDeviceSwap task s
  | .taskRestore task => Sys2Proof.Machine.execTaskRestore task s
  | .retry issuer value => Sys2Proof.Machine.execRetry issuer value s
  | .skip issuer value => Sys2Proof.Machine.execSkip issuer value s
  | .replay issuer value => Sys2Proof.Machine.execReplay issuer value s
  | .discard issuer value => Sys2Proof.Machine.execDiscard issuer value s
  | .abort issuer value => Sys2Proof.Machine.execAbort issuer value s
  | .ferry issuer value => Sys2Proof.Machine.execFerry issuer value s
  | .restore issuer value => Sys2Proof.Machine.execRestore issuer value s
  | .checkpointStream core ctx item => Sys2Proof.Machine.execCheckpointStream core ctx item s
  | .cwentWrite issuer value => Sys2Proof.Machine.execCwentWrite issuer value s
  | .cwswapWrite issuer value => Sys2Proof.Machine.execCwswapWrite issuer value s
  | .cwswapSwitch => Sys2Proof.Machine.execCwswapSwitch s
  | .registerWrite issuer reg value => Sys2Proof.Machine.execRegisterWrite issuer reg value s
  | .readClear issuer n => Sys2Proof.Machine.execReadClear issuer n s
  | .linkTraining port up dly cyc => Sys2Proof.Machine.execLinkTraining port up dly cyc s
  | .stopSignal router port ch on => Sys2Proof.Machine.execStopSignal router port ch on s
  | .circuitFlitArrival router port circ p last => Sys2Proof.Machine.execCircuitFlitArrival router port circ p last s
  | .circuitFlitDepart router port => Sys2Proof.Machine.execCircuitFlitDepart router port s
  | .packetFlitSend router port => Sys2Proof.Machine.execPacketFlitSend router port s
  | .requestTimeout core n => Sys2Proof.Machine.execRequestTimeout core n s
  | .replyArrival core p => Sys2Proof.Machine.execReplyArrival core p s
  | .refusalArrival core p => Sys2Proof.Machine.execRefusalArrival core p s
  | .bulkPacketArrival p => Sys2Proof.Machine.execBulkPacketArrival p s
  | .bulkAckArrival core p => Sys2Proof.Machine.execBulkAckArrival core p s
  | .remoteRequestServe p => Sys2Proof.Machine.execRemoteRequestServe p s
  | .mailboxArrival p => Sys2Proof.Machine.execMailboxArrival p s
  | .combineRelease router n => Sys2Proof.Machine.execCombineRelease router n s
  | .rslotAllocServe p => Sys2Proof.Machine.execRslotAllocServe p s
  | .rslotPutArrival p => Sys2Proof.Machine.execRslotPutArrival p s
  | .rslotTimeout pr slot => Sys2Proof.Machine.execRslotTimeout pr slot s
  | .noticeArrival p => Sys2Proof.Machine.execNoticeArrival p s
  | .rslotFreeArrival p => Sys2Proof.Machine.execRslotFreeArrival p s
  | .enqueueArrival p => Sys2Proof.Machine.execEnqueueArrival p s
  | .enqueueRetry core n => Sys2Proof.Machine.execEnqueueRetry core n s
  | .bar0AccessError port off size wr => Sys2Proof.Machine.execBar0AccessError port off size wr s
  | .hostBar2Read port off size => Sys2Proof.Machine.execHostBar2Read port off size s
  | .hostBar2Write port off data => Sys2Proof.Machine.execHostBar2Write port off data s
  | .hostAtomicop port off wide op a b => Sys2Proof.Machine.execHostAtomicop port off wide op a b s
  | .qctlWrite port q value => Sys2Proof.Machine.execQctlWrite port q value s
  | .qctlApply q => Sys2Proof.Machine.execQctlApply q s
  | .qtailWrite port q value => Sys2Proof.Machine.execQtailWrite port q value s
  | .deviceReset outcomes => Sys2Proof.Machine.execDeviceReset outcomes s
  | .bootStepLimitExpiry step => Sys2Proof.Machine.execBootStepLimitExpiry step s
  | .blockHold die block cycles => Sys2Proof.Machine.execBlockHold die block cycles s
  | .powerStatusUpdate => Sys2Proof.Machine.execPowerStatusUpdate s
  | .errorHistoryEntry unit corrected recurred status => Sys2Proof.Machine.execErrorHistoryEntry unit corrected recurred status s
  | .rowSpare addr => Sys2Proof.Machine.execRowSpare addr s
  | .attestationPoll => Sys2Proof.Machine.execAttestationPoll s
  | .phaseComplete core n => Sys2Proof.Machine.execPhaseComplete core n s
  | .rslotGetTimeout core n => Sys2Proof.Machine.execRslotGetTimeout core n s
  | .timedOutTagRelease core tag => Sys2Proof.Machine.execTimedOutTagRelease core tag s
  | .singleStep core part slot pc => Sys2Proof.Machine.execSingleStep core part slot pc s
  | .softError place => Sys2Proof.Machine.execSoftError place s
  | .pcieLinkDown port up => Sys2Proof.Machine.execPcieLinkDown port up s

end Sys2Proof.Machine
end

