-- ==== Sys2Proof/Machine/Time.lean ====
section
/-! DEFINITION. Time: what the end of a core cycle does (spec 02 R38, R46, R53, 03 R63, R69 to R71, 10 R246, R250, 23 R433). -/
namespace Sys2Proof.Machine

/-- Whether the hang detector counts a cycle for a lane (03 R70, R72): it does not in `wany`, in a phase, which counts as a
pending register (08 R191), or while a register is pending other than as the destination of an unserved pop. A lane that
has issued `fret` has not exited, and is counted (log 104). -/
def Core.counts (c : Core) (part slot : Nat) (st : Strand) (l : Nat) (x : Lane) : Bool :=
  let pops := c.popRegs part slot l
  !x.exited && !st.stopped && x.wait != .wany && x.wait != .phase && x.pendP.isEmpty && x.pendV.all (fun r => pops.contains r)

/-- A strand at the end of a cycle: what has fired becomes pending (10 R246), and the lanes' counts rise. A cycle in which
the partition holds counts for none of its bounds (23 R433). -/
def Core.endStrand (c : Core) (part : Nat) (held : Bool) (slot : Nat) (st : Strand) : Strand :=
  { st with
    ev := { st.ev.pass with since := if held then st.ev.since.map (· + 1) else st.ev.since }
    readyAt := if held then st.readyAt + 1 else st.readyAt
    lanes := if held then st.lanes else st.lanes.map (fun l =>
      (l.1, if c.counts part slot st l.1 l.2 then { l.2 with idle := l.2.idle + 1 } else l.2)) }

/-- A partition at the end of a cycle; a limit written in it takes effect (03 R71). -/
def Core.endPart (c : Core) (p : Nat) (x : Part) : Part :=
  { x with
    strands := x.strands.map (fun e => (e.1, c.endStrand p (0 < x.hold) e.1 e.2))
    hangLimit := x.hangNew.getD x.hangLimit, hangNew := none, hold := x.hold - 1 }

/-- A context at the end of a cycle: results that have arrived can be read from now on (02 R38), and a request raised in it
is seen (02 R53). -/
def Ctx.endCycle (c : Ctx) : Ctx := { c with ev := c.ev.pass, late := [], preNew := false }

/-- A core at the end of a cycle: its ports serve their reads (02 R46), its channels' watermarks become those at the next
cycle's start (09 R240), and the age of a request at a holding bank stands (23 R433). -/
def Core.endCycle (c : Core) : Core :=
  { c with
    ctxs := c.ctxs.map (fun e => (e.1, e.2.endCycle))
    parts := c.parts.map (fun e => (e.1, c.endPart e.1 e.2))
    ctrOld := []
    chans := c.chans.map (fun e => (e.1, { e.2 with seen := e.2.wm }))
    debt := c.debt.map (fun e => (e.1, e.2 - portRate e.1))
    bankQ := if 0 < c.hold then c.bankQ.map (fun q => { q with since := q.since.map (· + 1) }) else c.bankQ
    hold := c.hold - 1 }

/-- Since when a waiter could take an event (10 R250), given whether it can now. -/
def EvState.track (e : EvState) (cycle : Nat) (can : Bool) : EvState :=
  { e with since := if can then some (e.since.getD cycle) else none }

/-- The start of a cycle in a partition: its active set, and the strands that could take an event. -/
def State.startPart (s : State) (k p : Nat) : State :=
  (s.settle k p).modPart k p (fun x => { x with
    strands := x.strands.map (fun e => (e.1, { e.2 with ev := e.2.ev.track s.cycle (s.strandEntry k p e.1).isSome })) })

/-- The start of a cycle in a core. -/
def State.startCore (s : State) (k : Nat) : State :=
  ((s.core k).parts.map Prod.fst).foldl (fun (x : State) p => x.startPart k p)
    (s.modCore k (fun c => { c with ctxs := c.ctxs.map (fun e => (e.1, { e.2 with ev := e.2.ev.track s.cycle (c.entry? s.cycle e.1).isSome })) }))

/-- The cycles that a die's partitions have held gain those that hold in this one (23 R434). -/
def State.countHolds (s : State) : State :=
  s.cores.foldl (fun (x : State) e =>
    let n := (e.2.parts.filter (fun p => decide (0 < p.2.hold))).length
    if n = 0 then x else x.modDie (coreDie e.1) (fun d => { d with heldCyc := d.heldCyc + n })) s

/-- One core cycle passes. The new one begins with its first fabric cycle (19 R379). -/
def State.passCycle (s : State) : State :=
  let s1 := s.countHolds
  (s1.cores.map Prod.fst).foldl (fun (x : State) k => x.startCore k)
    { s1 with
      cycle := s1.cycle + 1, cores := s1.cores.map (fun e => (e.1, e.2.endCycle))
      fabric := { s1.fabric with
        lag := fabUpTo (s1.cycle + 1) - fabUpTo s1.cycle - 1, holds := s1.fabric.holds.map (fun e => (e.1, e.2 - 1)) } }

/-- What passes when nothing more happens: the fabric cycle, where the core cycle has another one, or else the core
cycle. -/
def State.passTime (s : State) : State :=
  if 0 < s.fabric.lag then { s with fabric := { s.fabric with lag := s.fabric.lag - 1 } } else s.passCycle

/-- `n` core cycles pass. -/
def State.advance (s : State) (n : Nat) : State :=
  match n with
  | 0 => s
  | k + 1 => s.passCycle.advance k

end Sys2Proof.Machine
end

