-- ==== Sys2Proof/Machine/Due.lean ====
section
/-! DEFINITION. What must happen before the cycle ends: happenings whose rule fixes their cycle, or a bound that is over; and
the next step of the device (spec 23 R442; logs 3, 4). -/
namespace Sys2Proof.Machine

/-- A happening of the opcode table, its operands given. -/
abbrev Happening := State → Out

/-- The slots of a waiter that fire in this cycle (10 R245, R246). -/
def State.eventDues (s : State) (k : Nat) (w : Waiter) : List Happening :=
  (List.range 16).flatMap (fun j =>
    let e := (s.evOf k w).slotAt j
    if !s.mayFire k w j then []
    else if s.levelTrue k w e then [execEventFire k w j]
    else if s.timerTrue e then [execTimerSlotExpiry k w j] else [])

/-- Whether the 12 cycles of an entry are over (10 R250). -/
def EvState.overdue (e : EvState) (cycle : Nat) : Bool := match e.since with | some c => decide (c + 12 ≤ cycle) | none => false

/-- What is due of a context: its slots; the entry of a parked one at once, and of another within 12 cycles (10 R250); its
stop at a pre-emption point (16 R346), and the end of a grace period (16 R347). -/
def State.ctxDues (s : State) (k c : Nat) : List Happening :=
  let x := s.ctx k c
  s.eventDues k (.ctx c) ++
  (if (match x.wait with | .twany .. => true | _ => false) || x.ev.overdue s.cycle then [execHandlerEntry k c] else []) ++
  (if x.preStop.isSome then [execGraceExpiry k c] else if x.preSeen && x.atPoint then [execPreemptStop k c] else [])

/-- What is due of a strand: its slots, its joins (03 R68), the hang detector (03 R70), and its entries (10 R250). -/
def State.strandDues (s : State) (k p sl : Nat) : List Happening :=
  let st := s.strand k p sl
  s.eventDues k (.strand p sl) ++
  st.joins.flatMap (fun j => [execJoinCompletion k p sl j.addr.toNat, execJoinTimeout k p sl j.addr.toNat]) ++
  [execHangDetect k p sl] ++
  (if st.park?.isSome || st.ev.overdue s.cycle then [execStrandHandlerEntry k p sl] else [])

/-- What is due of a partition: a rotation (03 R63), and a pass of a strand that has been ready in the active set for 64
cycles, by which every strand with a ready lane issues within 256 (03 R69, log 4). -/
def State.partDues (s : State) (k p : Nat) : List Happening :=
  let x := s.part k p
  x.strands.flatMap (fun e => s.strandDues k p e.1) ++ [execStrandRotation k p] ++
  (if x.strands.any (fun e => e.2.active && decide (e.2.readyAt + 64 ≤ s.cycle)) then [execIssuePass k p] else [])

/-- What is due of a core: queues with room or entries (08 R196), requests at the bound of their bank (09 R218), phases at
their bound of 20 µs (11 R258), an fbind at its bound of 2 µs (06 R148), and the limits of its fabric requests (19 R381, R387). -/
def State.coreDues (s : State) (k : Nat) (c : Core) : List Happening :=
  (c.ctxs.filter (fun e => decide (e.1 < 8))).flatMap (fun e => s.ctxDues k e.1) ++
  c.parts.flatMap (fun e => s.partDues k e.1) ++
  c.queues.flatMap (fun e => [execQpushServe k e.1, execQpopServe k e.1]) ++
  (c.bankQ.filter (fun q => q.aged s.cycle)).map (fun q => execLandingBankServe k q.bank) ++
  ((List.range c.phases.length).filter (fun i => decide ((c.phases.getD i default).since + 28000 ≤ s.cycle))).map (fun i => execPhaseComplete k i) ++
  (c.fbinds.filter (fun e => decide (e.2 + 2800 ≤ s.cycle))).map (fun e => execFbindComplete k e.1) ++
  (List.range c.requests.length).map (fun i => execRequestTimeout k i) ++
  (if c.parts.any (fun e => e.2.strands.any (fun t => !t.2.results.isEmpty)) then [execRslotGetTimeout k 0] else []) ++
  c.coolTags.map (fun e => execTimedOutTagRelease k e.1)

/-- What is due of the Causeway in a fabric cycle: an armed switch of the tables (19 R378), the limits of slots (19 R385),
the windows of combining (19 R383), circuit flits that arrive and those whose slot has come (19 R376), and the packet flits
that the outputs give the rest of the cycle to (19 R377). -/
def State.fabricDues (s : State) : List Happening :=
  let f := s.fabric
  (if f.arm then [execCwswapSwitch] else []) ++
  (f.slots.filter (fun e => e.2.used && !e.2.done)).map (fun e => execRslotTimeout (e.1 / 64) (e.1 % 64)) ++
  (List.range f.combine.length).flatMap (fun i => (List.range 10).map (fun r => execCombineRelease r i)) ++
  f.cflight.map (fun c => execCircuitFlitArrival c.router c.inp c.circ c.pkt c.last) ++
  ((f.cflits.map (fun c => c.router)).eraseDups.flatMap (fun r => (List.range 18).map (fun o => execCircuitFlitDepart r o))) ++
  f.transit.map (fun t => execPacketFlitSend t.router t.out)

/-- What may be due in this cycle, in the order in which it is tried: those whose condition does not hold do nothing. -/
def State.dues (s : State) : List Happening :=
  s.cores.flatMap (fun e => s.coreDues e.1 e.2) ++ s.fabricDues ++
  (s.queues.filter (fun q => q.2.wait.isSome && decide (q.2.since + 2800 ≤ s.cycle))).map (fun q => execQctlApply q.1) ++
  s.dies.flatMap (fun d => d.2.stagger.map (fun e => execStaggerExpiry d.1 e.1)) ++
  [execPowerStatusUpdate, execAttestationPoll]

/-- The state after the first happening that is due; `none` where none is. -/
def State.runDue (s : State) : Option State :=
  s.dues.findSome? (fun h => match h s with | .next t => some t | _ => none)

/-- The happening that a turn names runs, where it is well-formed and its condition holds. -/
def State.runTurn (s : State) (i : Instr) : Out :=
  if i.wf then (match exec i s with | .fault .notEnabled => .next s | o => o) else .next s

/-- One step of the device. The agenda says what comes next and after how many cycles. Where it is empty, what is due in the
cycle happens first; then either the cycle ends, or any happening may come in it (logs 3, 4). -/
def State.takeStep (s : State) : Out :=
  let s0 : State := { s with tick := s.tick + 1 }
  match s.agenda with
  | (n, i) :: r => exec i { (s.advance n) with tick := s.tick + 1, agenda := r }
  | [] =>
    match s0.runDue with
    | some t => .next t
    | none => if Config.cycleEnds s.tick then .next s0.passTime else s0.runTurn (Config.nextTurn s.tick)

end Sys2Proof.Machine
end

