-- ==== Sys2Proof/Machine/Place.lean ====
section
/-! DEFINITION. How a program is placed so that its first instruction is the next to run (log 6): a page of code and its
translation, and a resident strand, or a running context, whose PC stands there. -/
namespace Sys2Proof.Machine

/-- The physical addresses used: tables of the three levels and the page of code (16 R327 to R329). -/
def placeTable (level : Nat) : Nat := 0x200000 + 0x10000 * level
def placeCode : Nat := 0x240000

/-- Address space 0 maps virtual page 0 to the page of code: readable, writable, executable, accessed and dirty. -/
def State.placePage (s : State) (n w : Nat) : State :=
  let m1 := s.mem.write (placeTable 1) 8 (placeTable 2 + 1)
  let m2 := m1.write (placeTable 2) 8 (placeTable 3 + 1)
  let m3 := m2.write (placeTable 3) 8 (placeCode + 0x2CF)
  ({ s with mem := m3.write placeCode n w } : State).modSpace 0 (fun sp => { sp with ptbase := BitVec.ofNat 64 (placeTable 1 + 1) })

/-- The instance whose gang the strand is: a figure bound to a routine at address 0 (12 R270, R275). -/
def placeJob : Job :=
  { id := 0, ctx := 0, task := 0, kind := .routine 0x80 (2 ^ 63), parts := [0], ops := [], reads := [], writes := [], tcrs := [],
    atys := [], foot := [], started := true, readDone := false, err := false, scope := 0, restarts := 0, copied := [],
    spoiled := [], scratch := 0, gangs := [(0, [0])], done := [], xout := [], slotNo := 2, pc := 0, cmd := 0, parent := none,
    byStrand := 0, rdv := false, rdvNo := 0, kstart := 0, killed := false, redo := false }

/-- A strand in the active set, of which lane 0 alone has not exited, at PC 0. -/
def placeStrand (cycle : Nat) : Strand :=
  { Strand.init with
    nregs := 128, active := true, entered := cycle, issued := cycle
    lanes := (0, Lane.init) :: (List.range 31).map (fun i => (i + 1, { Lane.init with exited := true })) }

/-- A lane instruction stands where the strand in slot 0 of partition 0 of core 0 fetches next, and that partition's next
pass comes after two cycles. -/
def State.placeLane (s : State) (n w : Nat) : State :=
  let s1 := (s.placePage n w).modCore 0 (fun c => { c with jobs := [placeJob], nextJob := 1 })
  { s1.setStrand 0 0 0 (placeStrand s.cycle) with agenda := [(2, .issuePass 0 0)] }

/-- A bundle stands where context 0 of core 0 fetches next, and that core's Caller issues next. -/
def State.placeBundle (s : State) (n w : Nat) : State :=
  { (s.placePage n w).modCtx 0 0 (fun c => { c with running := true, pc := 0 }) with agenda := [(0, .bundleIssue 0)] }

/-- Place an instruction of at most 64 bits for a lane, and a longer one for a context. -/
def State.placeWord (s : State) (nbits w : Nat) : State := if nbits ≤ 64 then s.placeLane 8 w else s.placeBundle 32 w

end Sys2Proof.Machine
end

