-- ==== Sys2Proof/Machine/Step.lean ====
section
/-! DEFINITION. The step of the device: the next happening, at its time (spec 23 R442; logs 3, 4, 6). -/
namespace Sys2Proof.Machine

/-- One step: what the agenda says comes next; else what is due in the cycle, the end of the cycle, or any happening that
may come (`State.takeStep`). -/
def step (s : State) : Host.Outcome State Fault Refusal := s.takeStep

/-- The state with an instruction stored where the next step fetches: the two words of a lane instruction, or the
bundle, with what lets the next step run it (log 6). -/
def State.withFetchWord (s : State) (nbits w : Nat) : State := s.placeWord nbits w

end Sys2Proof.Machine
end

