-- ==== Sys2Proof/Safety.lean ====
section
/-! DEFINITION. What counts as a safe run of the device, and the invariant that its steps keep. -/
namespace Sys2Proof.Safety
open Sys2Proof.Machine

/-- A run of `n` steps is safe when no step of it ends in a refusal: every instruction and happening has a meaning. -/
def safeRun (n : Nat) (s : State) : Prop := ∀ r, Host.Core.run Sys2Proof.core n s ≠ Host.Outcome.refused r

end Sys2Proof.Safety
end

