-- ==== Sys2Proof/Certificates/Slice0/Obligations.lean ====
section
/-! DEFINITION. The statements of this model, and the words they are said in. An instruction of the tile stream is
stated as it issues alone (log 7); a happening as it happens. -/
namespace Sys2Proof.Claim
open Sys2Proof Sys2Proof.Machine

/-! ### Words of the statements about the tile stream -/

/-- The context whose turn it is. -/
def me (s : State) : Ctx := s.ctx s.turn.core s.turn.ctx

/-- A context after its bundle has issued: the PC stands at the next bundle, one more bundle counts, and no other issues in
this cycle (02 R37, R38, 16 R340). -/
def advanced (s : State) (c : Ctx) : Ctx := { c with pc := c.pc + 32, cmd := c.cmd + 1, skip := [], issued := s.cycle + 1 }

/-- The state after a bundle has issued that does `f` to its own context. -/
def ran (s : State) (f : Ctx → Ctx) : State := s.modCtx s.turn.core s.turn.ctx (fun c => advanced s (f c))

/-- x[r] takes a value: it is full, and an operand latch that held it is invalid (02 R33, R46). -/
def put (r : BitVec 6) (v : Word) (c : Ctx) : Ctx := (c.setX r.toNat v).dropLatch 2 r.toNat

/-- x[r] awaits a value captured at issue (02 R33). -/
def awaiting (r : BitVec 6) (v va : Word) (lines : List Nat) (slot : Nat) (c : Ctx) : Ctx :=
  { (c.markEmpty r.toNat).dropLatch 2 r.toNat with results := c.results ++
    [⟨r.toNat, c.ev.inh && 56 ≤ r.toNat, v, none, none, none, lines, va, c.pc, slot, c.cmd⟩] }

/-- A source x register can be read: it is full. -/
abbrev full (s : State) (r : BitVec 6) : Prop := (me s).full r.toNat = true

/-- A destination x register can be written: it is full, or no result for it is outstanding or has arrived in this cycle
(02 R35, R38). -/
abbrev free (s : State) (r : BitVec 6) : Prop := (me s).full r.toNat = true ∨ (me s).awaits r.toNat = false

/-- The context waits for nothing. -/
abbrev idle (s : State) : Prop := (me s).wait = .none

/-- A source field that the instruction leaves unused (05 R95). -/
abbrev unusedA (f : SFields) : Prop := f.ma = false ∧ f.sa = 0
abbrev unusedB (f : SFields) : Prop := f.mb = false ∧ f.sb = 0

/-- x[r] as a source. -/
def xa (s : State) (f : SFields) : Word := (me s).getX f.sa.toNat
def xb (s : State) (f : SFields) : Word := (me s).getX f.sb.toNat
def xd (s : State) (f : SFields) : Word := (me s).getX f.dst.toNat

/-- A condition bit as a destination (05 R96). -/
abbrev condDst (f : SFields) : Prop := f.dst.toNat < 8

/-- c[n] takes a value. -/
def putC (n : BitVec 6) (v : Bool) (c : Ctx) : Ctx := c.setC n.toNat v

/-- The context stops with a trap of its bundle in a slot, and nothing else happens (02 R39, 16 R343). -/
def trapped (s : State) (slot : Nat) (cls : TrapClass) (addr : Word) (det : Nat) : State :=
  s.takeTrap s.turn.core s.turn.ctx ⟨0, 0, slot, (me s).pc, (me s).cmd, none⟩ cls addr (BitVec.ofNat 64 det)

/-- Nothing of the device but the context whose turn it is has changed. -/
def onlyMe (s t : State) : Prop :=
  { t with cores := [] } = { s with cores := [] } ∧
  (∀ k, k ≠ s.turn.core → t.core k = s.core k) ∧
  { t.core s.turn.core with ctxs := [] } = { s.core s.turn.core with ctxs := [] } ∧
  (∀ c, c ≠ s.turn.ctx → t.ctx s.turn.core c = s.ctx s.turn.core c)

/-- Every byte of global memory, every byte and counter of every Landing, reads as before. -/
def sameMemory (s t : State) : Prop :=
  (∀ a, t.mem.byte a = s.mem.byte a) ∧ (∀ k a, (t.core k).landing.byte a = (s.core k).landing.byte a) ∧
  (∀ k n, Tab.get (t.core k).counters 0 n = Tab.get (s.core k).counters 0 n)

/-- The parts of a context that no register operation writes: all but the x registers, the condition bits, the operand
latches, the PC, the count of bundles, a SKIP, the cycle of the last issue, and a stop. -/
def rest (c : Ctx) : Ctx :=
  { c with x := [], empty := [], c := 0, latches := [], pc := 0, cmd := 0, skip := [], issued := 0, stopped := false, recs := [] }

/-- An instruction of no operand in use (05 R95). -/
abbrev noOperands (f : SFields) : Prop := f.dst = 0 ∧ unusedA f ∧ unusedB f

/-- The context after a bundle that sends it to `pc`. -/
def wentTo (s : State) (pc : Word) (f : Ctx → Ctx) : State :=
  s.modCtx s.turn.core s.turn.ctx (fun c => { advanced s (f c) with pc := pc })

/-- Every child that the context's task has spawned has merged (05 R114). -/
def childless (s : State) : Bool := match (me s).task with | some t => s.allMerged t | none => true

/-- The members of the context's troupe. -/
def members (s : State) : List (Nat × Nat) := match (me s).task with | some t => (s.task t).places | none => []

/-- The x registers and condition bits are those of before. -/
def sameRegs (s t : State) : Prop :=
  (∀ r, (me t).getX r = (me s).getX r ∧ (me t).full r = (me s).full r) ∧ (∀ n, (me t).getC n = (me s).getC n)

/-! ### Words of the statements about memory instructions -/

/-- The effective address of a scalar access (05 R102, R104). -/
def ea (s : State) (f : SFields) : Word := xa s f + sImmS f

/-- Whether an aperture of the core maps a Landing address for accesses of `n` bytes: the counter window takes 8 alone. -/
def landMapped (k a n : Nat) : Bool :=
  decide (a < 2 ^ 32) && (match landingPlace k a with
    | some p => decide (0x1000 ≤ p.2) || n == 8
    | none => false)

/-- Whether a Landing access of `n` bytes passes the checks of R102: it is mapped and aligned. -/
def landOk (k a n : Nat) : Bool := landMapped k a n && a % n == 0

/-- The core and offset that the effective address reaches (09 R215, 14 R308). -/
def landAt (s : State) (f : SFields) : Nat × Nat := (s.core s.turn.core).landByteAt s.turn.core (me s).task (ea s f).toNat

/-- The state once the context's own stores that wait at the bank of a place of core `m` are served (09 R216, 11 R260). -/
def served (s : State) (m off : Nat) : State := s.ownStores s.turn.core s.turn.ctx m (bankOf off)

/-- The state once the context's own stores at the bank of the effective address are served. -/
def settled (s : State) (f : SFields) : State := served s (landAt s f).1 (landAt s f).2

/-- A store of the context to Landing that waits at its bank, in the lowest class (09 R217, R218). -/
def stored (s : State) (f : SFields) (n : Nat) : State :=
  s.bankPut (landAt s f).1
    ⟨bankOf (landAt s f).2, 5, none, s.turn.core, some s.turn.ctx, 0, [], [((landAt s f).2, bytesOf n (xb s f).toNat)]⟩

/-- The state once every Landing store that the context has issued is served at its bank (11 R260, R261). -/
def drained (s : State) : State := s.drainCtx s.turn.core s.turn.ctx

/-- No engine job of the context bars an access of `n` bytes at the effective address (05 R106). -/
abbrev unbarred (s : State) (f : SFields) (landing wr : Bool) (n : Nat) : Prop :=
  (s.core s.turn.core).footHolds s.turn.ctx landing wr (ea s f).toNat ((ea s f).toNat + n - 1) = false

/-- `n` bytes read as a number, extended to 64 bits (05 R103). -/
def extended (n : Nat) (sgn : Bool) (v : Nat) : Word :=
  if sgn then (BitVec.ofNat (8 * n) v).signExtend 64 else BitVec.ofNat 64 v

/-- An arrival counter. -/
def counter (s : State) (k j : Nat) : Word := Tab.get (s.core k).counters 0 j

/-- The translation of the effective address for the context. -/
def mapped (s : State) (f : SFields) (acc : Access) : Except Trap Xlate :=
  s.xlate (s.ctxAgent s.turn.core s.turn.ctx) acc (ea s f)

/-! ### Words of the statements about the Ferry -/

/-- The 128-byte record, and the 256-byte code table, that Landing holds at the effective address once the context's own
stores are served. -/
def record (s : State) (f : SFields) : BitVec 1024 :=
  BitVec.ofNat 1024 (numOf ((drained s).landBytes s.turn.core (me s).task (ea s f).toNat 128))
def codeTable (s : State) (f : SFields) : Memory :=
  Memory.writeList [] 0 (bytesOf 256 (numOf ((drained s).landBytes s.turn.core (me s).task (ea s f).toNat 256)))

/-- A layout register of the context. -/
def layout (s : State) (y : Nat) : BitVec 1024 := Tab.get (me s).y 0 y

/-- The index of dimension `d`, taken modulo the extent where the dimension wraps (09 R220). -/
def wrapped (r : BitVec 1024) (iv : List Int) (d : Nat) : Int :=
  if recWrap r d then iv.getD d 0 % (recExtent r d : Int) else iv.getD d 0

end Sys2Proof.Claim

open Sys2Proof Sys2Proof.Machine Sys2Proof.Claim

/-- 05 R97, R98: the register forms of the integer operations write their function of x[sa] and x[sb]. -/
def Sys2Proof.Claim.ScalarRegisterFormResults : Prop :=
  ∀ (s : State) (f : SFields), full s f.sa → full s f.sb → free s f.dst → idle s →
    exec (.add f) s = .next (ran s (put f.dst (xa s f + xb s f))) ∧
    exec (.sub f) s = .next (ran s (put f.dst (xa s f - xb s f))) ∧
    exec (.mul f) s = .next (ran s (put f.dst (xa s f * xb s f))) ∧
    exec (.mulhS f) s = .next (ran s (put f.dst (BitVec.ofInt 64 ((xa s f).toInt * (xb s f).toInt / 2 ^ 64)))) ∧
    exec (.mulhN f) s = .next (ran s (put f.dst (BitVec.ofNat 64 ((xa s f).toNat * (xb s f).toNat / 2 ^ 64)))) ∧
    exec (.and f) s = .next (ran s (put f.dst (xa s f &&& xb s f))) ∧
    exec (.or f) s = .next (ran s (put f.dst (xa s f ||| xb s f))) ∧
    exec (.xor f) s = .next (ran s (put f.dst (xa s f ^^^ xb s f))) ∧
    exec (.andn f) s = .next (ran s (put f.dst (xa s f &&& ~~~ (xb s f)))) ∧
    exec (.shl f) s = .next (ran s (put f.dst (xa s f <<< ((xb s f).toNat % 64)))) ∧
    exec (.shr f) s = .next (ran s (put f.dst (xa s f >>> ((xb s f).toNat % 64)))) ∧
    exec (.sra f) s = .next (ran s (put f.dst ((xa s f).sshiftRight ((xb s f).toNat % 64)))) ∧
    exec (.minS f) s = .next (ran s (put f.dst (BitVec.ofInt 64 (min (xa s f).toInt (xb s f).toInt)))) ∧
    exec (.minN f) s = .next (ran s (put f.dst (BitVec.ofNat 64 (min (xa s f).toNat (xb s f).toNat)))) ∧
    exec (.maxS f) s = .next (ran s (put f.dst (BitVec.ofInt 64 (max (xa s f).toInt (xb s f).toInt)))) ∧
    exec (.maxN f) s = .next (ran s (put f.dst (BitVec.ofNat 64 (max (xa s f).toNat (xb s f).toNat)))) ∧
    (full s f.dst → exec (.madd f) s = .next (ran s (put f.dst (xd s f + xa s f * xb s f)))) ∧
    (f.imm.toNat < 8 → exec (.lea f) s = .next (ran s (put f.dst (xa s f + xb s f <<< f.imm.toNat)))) ∧
    (f.imm.toNat < 16 → (me s).cAwaited f.imm.toNat = false →
      exec (.sel f) s = .next (ran s (put f.dst (if (me s).getC f.imm.toNat then xa s f else xb s f))))

/-- 05 R98: the one-source operations, and the two that take no source. -/
def Sys2Proof.Claim.ScalarOneSourceResults : Prop :=
  ∀ (s : State) (f : SFields), unusedB f → free s f.dst → idle s →
    (full s f.sa → exec (.clz f) s = .next (ran s (put f.dst (BitVec.ofNat 64 (63 + 1 - (if xa s f = 0 then 0 else Nat.log2 (xa s f).toNat + 1)))))) ∧
    (full s f.sa → exec (.popc f) s = .next (ran s (put f.dst (BitVec.ofNat 64 ((List.range 64).countP (fun i => (xa s f).getLsbD i)))))) ∧
    (unusedA f → exec (.li f) s = .next (ran s (put f.dst (sImmS f)))) ∧
    (unusedA f → f.x = none → full s f.dst → exec (.lih f) s = .next (ran s (put f.dst (f.imm ++ (xd s f).extractLsb' 0 48))))

/-- 05 R98, 02 R45: the immediate forms take the immediate in place of x[sb], sign-extended but for the bitwise ones. -/
def Sys2Proof.Claim.ScalarImmediateFormResults : Prop :=
  ∀ (s : State) (f : SFields), full s f.sa → unusedB f → free s f.dst → idle s →
    exec (.addI f) s = .next (ran s (put f.dst (xa s f + sImmS f))) ∧
    exec (.subI f) s = .next (ran s (put f.dst (xa s f - sImmS f))) ∧
    exec (.mulI f) s = .next (ran s (put f.dst (xa s f * sImmS f))) ∧
    exec (.mulhSI f) s = .next (ran s (put f.dst (BitVec.ofInt 64 ((xa s f).toInt * (sImmS f).toInt / 2 ^ 64)))) ∧
    exec (.mulhNI f) s = .next (ran s (put f.dst (BitVec.ofNat 64 ((xa s f).toNat * (sImmS f).toNat / 2 ^ 64)))) ∧
    exec (.andI f) s = .next (ran s (put f.dst (xa s f &&& sImmU f))) ∧
    exec (.orI f) s = .next (ran s (put f.dst (xa s f ||| sImmU f))) ∧
    exec (.xorI f) s = .next (ran s (put f.dst (xa s f ^^^ sImmU f))) ∧
    exec (.andnI f) s = .next (ran s (put f.dst (xa s f &&& ~~~ (sImmU f)))) ∧
    exec (.shlI f) s = .next (ran s (put f.dst (xa s f <<< ((sImmS f).toNat % 64)))) ∧
    exec (.shrI f) s = .next (ran s (put f.dst (xa s f >>> ((sImmS f).toNat % 64)))) ∧
    exec (.sraI f) s = .next (ran s (put f.dst ((xa s f).sshiftRight ((sImmS f).toNat % 64)))) ∧
    exec (.minSI f) s = .next (ran s (put f.dst (BitVec.ofInt 64 (min (xa s f).toInt (sImmS f).toInt)))) ∧
    exec (.minNI f) s = .next (ran s (put f.dst (BitVec.ofNat 64 (min (xa s f).toNat (sImmS f).toNat)))) ∧
    exec (.maxSI f) s = .next (ran s (put f.dst (BitVec.ofInt 64 (max (xa s f).toInt (sImmS f).toInt)))) ∧
    exec (.maxNI f) s = .next (ran s (put f.dst (BitVec.ofNat 64 (max (xa s f).toNat (sImmS f).toNat))))

/-- 05 R99: a division writes its quotient or remainder, and a zero divisor traps instead. -/
def Sys2Proof.Claim.ScalarDivisionResults : Prop :=
  ∀ (s : State) (f : SFields), full s f.sa → free s f.dst → idle s →
    (full s f.sb → xb s f ≠ 0 →
      exec (.divS f) s = .next (ran s (put f.dst (BitVec.ofInt 64 ((xa s f).toInt.tdiv (xb s f).toInt)))) ∧
      exec (.divN f) s = .next (ran s (put f.dst (xa s f / xb s f))) ∧
      exec (.remS f) s = .next (ran s (put f.dst (BitVec.ofInt 64 ((xa s f).toInt.tmod (xb s f).toInt)))) ∧
      exec (.remN f) s = .next (ran s (put f.dst (xa s f % xb s f)))) ∧
    (full s f.sb → xb s f = 0 →
      ∀ i ∈ [Instr.divS f, .divN f, .remS f, .remN f], exec i s = .next (trapped s 0 .divide 0 f.sb.toNat)) ∧
    (unusedB f → sImmS f ≠ 0 →
      exec (.divSI f) s = .next (ran s (put f.dst (BitVec.ofInt 64 ((xa s f).toInt.tdiv (sImmS f).toInt)))) ∧
      exec (.divNI f) s = .next (ran s (put f.dst (xa s f / sImmS f))) ∧
      exec (.remSI f) s = .next (ran s (put f.dst (BitVec.ofInt 64 ((xa s f).toInt.tmod (sImmS f).toInt)))) ∧
      exec (.remNI f) s = .next (ran s (put f.dst (xa s f % sImmS f)))) ∧
    (unusedB f → sImmS f = 0 →
      ∀ i ∈ [Instr.divSI f, .divNI f, .remSI f, .remNI f], exec i s = .next (trapped s 0 .divide 0 0))

/-- 05 R100: the compares write their condition bit. -/
def Sys2Proof.Claim.ScalarCompareResults : Prop :=
  ∀ (s : State) (f : SFields), condDst f → idle s →
    (full s f.sa → full s f.sb →
      exec (.cmpEq f) s = .next (ran s (putC f.dst (decide (xa s f = xb s f)))) ∧
      exec (.cmpNe f) s = .next (ran s (putC f.dst (decide (xa s f ≠ xb s f)))) ∧
      exec (.cmpLtS f) s = .next (ran s (putC f.dst (decide ((xa s f).toInt < (xb s f).toInt)))) ∧
      exec (.cmpLeS f) s = .next (ran s (putC f.dst (decide ((xa s f).toInt ≤ (xb s f).toInt)))) ∧
      exec (.cmpLtN f) s = .next (ran s (putC f.dst (decide ((xa s f).toNat < (xb s f).toNat)))) ∧
      exec (.cmpLeN f) s = .next (ran s (putC f.dst (decide ((xa s f).toNat ≤ (xb s f).toNat))))) ∧
    (full s f.sa → unusedB f →
      exec (.cmpEqI f) s = .next (ran s (putC f.dst (decide (xa s f = sImmS f)))) ∧
      exec (.cmpNeI f) s = .next (ran s (putC f.dst (decide (xa s f ≠ sImmS f)))) ∧
      exec (.cmpLtSI f) s = .next (ran s (putC f.dst (decide ((xa s f).toInt < (sImmS f).toInt)))) ∧
      exec (.cmpLeSI f) s = .next (ran s (putC f.dst (decide ((xa s f).toInt ≤ (sImmS f).toInt)))) ∧
      exec (.cmpLtNI f) s = .next (ran s (putC f.dst (decide ((xa s f).toNat < (sImmS f).toNat)))) ∧
      exec (.cmpLeNI f) s = .next (ran s (putC f.dst (decide ((xa s f).toNat ≤ (sImmS f).toNat)))))

/-- 02 R34, R35: an empty source with mode 0 makes the bundle wait, with mode 1 it raises EMPTY_READ; an awaited
destination makes the bundle wait, and so does an empty one that `madd` and `lih` read (05 R95). -/
def Sys2Proof.Claim.ScalarEmptyRegisters : Prop :=
  (∀ (s : State) (f : SFields), ∀ i ∈ [Instr.add f, .sub f, .mul f, .mulhS f, .mulhN f, .divS f, .divN f, .remS f, .remN f,
      .and f, .or f, .xor f, .andn f, .shl f, .shr f, .sra f, .minS f, .minN f, .maxS f, .maxN f, .madd f],
    (((me s).full f.sa.toNat = false ∧ f.ma = false) ∨ ((me s).full f.sb.toNat = false ∧ f.mb = false) →
      exec i s = .next s) ∧
    ((me s).full f.sa.toNat = false → f.ma = true → ((me s).full f.sb.toNat = true ∨ f.mb = true) → free s f.dst →
      i ≠ .madd f ∨ full s f.dst → exec i s = .next (trapped s 0 .emptyRead 0 f.sa.toNat)) ∧
    (full s f.sa → (me s).full f.sb.toNat = false → f.mb = true → free s f.dst →
      i ≠ .madd f ∨ full s f.dst → exec i s = .next (trapped s 0 .emptyRead 0 f.sb.toNat)) ∧
    (full s f.sa → full s f.sb → (me s).full f.dst.toNat = false → (me s).awaits f.dst.toNat = true → exec i s = .next s)) ∧
  (∀ (s : State) (f : SFields), (me s).full f.dst.toNat = false →
    exec (.madd f) s = .next s ∧ (unusedA f → unusedB f → f.x = none → exec (.lih f) s = .next s))

/-- 05 R98: the frame of the register operations. Whatever happens at the issue (the result, a wait, a trap), an
operation writes no x register but its destination, no condition bit, no other part of the context but its PC and its
stop, no other context, and no memory. -/
def Sys2Proof.Claim.ScalarRegisterFrame : Prop :=
  ∀ (s t : State) (f : SFields), ∀ i ∈ [Instr.add f, .sub f, .mul f, .mulhS f, .mulhN f, .divS f, .divN f, .remS f, .remN f,
      .and f, .or f, .xor f, .andn f, .shl f, .shr f, .sra f, .minS f, .minN f, .maxS f, .maxN f, .clz f, .popc f, .sel f,
      .madd f, .lea f, .li f, .lih f, .addI f, .subI f, .mulI f, .mulhSI f, .mulhNI f, .divSI f, .divNI f, .remSI f,
      .remNI f, .andI f, .orI f, .xorI f, .andnI f, .shlI f, .shrI f, .sraI f, .minSI f, .minNI f, .maxSI f, .maxNI f],
    idle s → exec i s = .next t →
      onlyMe s t ∧ sameMemory s t ∧ rest (me t) = rest (me s) ∧
      (∀ r, r ≠ f.dst.toNat → (me t).getX r = (me s).getX r ∧ (me t).full r = (me s).full r) ∧
      (∀ n, (me t).getC n = (me s).getC n) ∧ (me t).getX 0 = 0

/-- 05 R96, R100, R101: the frame of the compares and the condition operations: one condition bit, and nothing else. -/
def Sys2Proof.Claim.ScalarConditionFrame : Prop :=
  ∀ (s t : State) (f : SFields), ∀ i ∈ [Instr.cmpEq f, .cmpNe f, .cmpLtS f, .cmpLeS f, .cmpLtN f, .cmpLeN f, .cmpEqI f,
      .cmpNeI f, .cmpLtSI f, .cmpLeSI f, .cmpLtNI f, .cmpLeNI f, .cand f, .cor f, .cnot f],
    idle s → exec i s = .next t →
      onlyMe s t ∧ sameMemory s t ∧ rest (me t) = rest (me s) ∧
      (∀ r, (me t).getX r = (me s).getX r ∧ (me t).full r = (me s).full r) ∧
      (∀ n, n ≠ f.dst.toNat → (me t).getC n = (me s).getC n) ∧ (me t).getC 15 = true

/-- 05 R102, R103, 09 R216, R217: a Landing load of each size writes the extended value it reads, which the context's own
earlier stores at its bank precede; a Landing store of each size leaves the low bytes of x[sb] to be written where the address
goes, as a request of the lowest class at the bank. -/
def Sys2Proof.Claim.LandingLoadAndStoreResults : Prop :=
  ∀ (s : State) (f : SFields), full s f.sa → idle s →
    (∀ e ∈ [(Instr.ldLB8N f, 1, false), (.ldLB16N f, 2, false), (.ldLB32N f, 4, false), (.ldLB64 f, 8, false),
        (.ldLB8S f, 1, true), (.ldLB16S f, 2, true), (.ldLB32S f, 4, true)],
      unusedB f → free s f.dst → landOk s.turn.core (ea s f).toNat e.2.1 = true → unbarred s f true false e.2.1 →
      ((settled s f).core (landAt s f).1).landBad (landAt s f).2 e.2.1 = false →
      exec e.1 s = .next (ran (settled s f)
        (put f.dst (extended e.2.1 e.2.2 (((settled s f).core (landAt s f).1).landRead (landAt s f).2 e.2.1))))) ∧
    (∀ e ∈ [(Instr.stLB8 f, 1), (.stLB16 f, 2), (.stLB32 f, 4), (.stLB64 f, 8)],
      f.dst = 0 → full s f.sb → landOk s.turn.core (ea s f).toNat e.2 = true → unbarred s f true true e.2 →
      exec e.1 s = .next (ran (stored s f e.2) id))

/-- 05 R102: what a Landing access that fails its checks raises: LANDING_RANGE where nothing is mapped and for a counter
access of other than 8 bytes, else ALIGN; its address is in the record, and nothing is read or written. -/
def Sys2Proof.Claim.LandingAccessTraps : Prop :=
  ∀ (s : State) (f : SFields), full s f.sa → idle s →
    (∀ e ∈ [(Instr.ldLB8N f, 1), (.ldLB16N f, 2), (.ldLB32N f, 4), (.ldLB64 f, 8), (.ldLB8S f, 1), (.ldLB16S f, 2), (.ldLB32S f, 4)],
      unusedB f → free s f.dst →
      (landMapped s.turn.core (ea s f).toNat e.2 = false →
        exec e.1 s = .next (trapped s 0 .landingRange (ea s f) (Nat.log2 e.2))) ∧
      (landMapped s.turn.core (ea s f).toNat e.2 = true → (ea s f).toNat % e.2 ≠ 0 →
        exec e.1 s = .next (trapped s 0 .align (ea s f) (Nat.log2 e.2)))) ∧
    (∀ e ∈ [(Instr.stLB8 f, 1), (.stLB16 f, 2), (.stLB32 f, 4), (.stLB64 f, 8)],
      f.dst = 0 → full s f.sb →
      (landMapped s.turn.core (ea s f).toNat e.2 = false →
        exec e.1 s = .next (trapped s 0 .landingRange (ea s f) (2048 + Nat.log2 e.2))) ∧
      (landMapped s.turn.core (ea s f).toNat e.2 = true → (ea s f).toNat % e.2 ≠ 0 →
        exec e.1 s = .next (trapped s 0 .align (ea s f) (2048 + Nat.log2 e.2))))

/-- 05 R102, R103: the frame of the Landing accesses. A load writes its destination register alone; what it may bring
before it are the context's own stores at its bank. A store writes no byte and no counter yet, and adds no request but its
own to the banks. -/
def Sys2Proof.Claim.LandingAccessFrame : Prop :=
  ∀ (s t : State) (f : SFields), idle s →
    (∀ i ∈ [Instr.ldLB8N f, .ldLB16N f, .ldLB32N f, .ldLB64 f, .ldLB8S f, .ldLB16S f, .ldLB32S f], exec i s = .next t →
      (∃ u, (u = s ∨ u = settled s f) ∧ onlyMe u t ∧ sameMemory u t) ∧ rest (me t) = rest (me s) ∧
      (∀ r, r ≠ f.dst.toNat → (me t).getX r = (me s).getX r ∧ (me t).full r = (me s).full r) ∧
      (∀ n, (me t).getC n = (me s).getC n)) ∧
    (∀ e ∈ [(Instr.stLB8 f, 1), (.stLB16 f, 2), (.stLB32 f, 4), (.stLB64 f, 8)], exec e.1 s = .next t →
      sameMemory s t ∧ rest (me t) = rest (me s) ∧ sameRegs s t ∧
      (∀ k, k ≠ (landAt s f).1 → (t.core k).bankQ = (s.core k).bankQ) ∧
      ((t.core (landAt s f).1).bankQ = (s.core (landAt s f).1).bankQ ∨
        (t.core (landAt s f).1).bankQ = ((stored s f e.2).core (landAt s f).1).bankQ))

/-- 05 R107, R108: catm adds x[sb] to a counter and returns what it held; cwait holds its bundle until the counter, as it
stood at the start of the cycle, has reached the unsigned immediate. -/
def Sys2Proof.Claim.CounterInstructions : Prop :=
  ∀ (s : State) (f : SFields), full s f.sa → idle s →
    (full s f.sb → free s f.dst → (ea s f).toNat ≤ 0xFFF → (ea s f).toNat % 8 = 0 →
      ∀ u, u = served s s.turn.core (ea s f).toNat →
      exec (.catm f) s = .next (ran (u.modCore s.turn.core (fun c => { c with
          counters := c.counters.set 0 ((ea s f).toNat / 8) (Tab.get c.counters 0 ((ea s f).toNat / 8) + xb s f)
          ctrOld := if (Tab.find c.ctrOld ((ea s f).toNat / 8)).isSome then c.ctrOld
            else c.ctrOld.put ((ea s f).toNat / 8) (Tab.get c.counters 0 ((ea s f).toNat / 8)) }))
        (put f.dst (counter u s.turn.core ((ea s f).toNat / 8))))) ∧
    (full s f.sb → free s f.dst → 0xFFF < (ea s f).toNat → exec (.catm f) s = .next (trapped s 0 .landingRange (ea s f) 0x1803)) ∧
    (full s f.sb → free s f.dst → (ea s f).toNat ≤ 0xFFF → (ea s f).toNat % 8 ≠ 0 →
      exec (.catm f) s = .next (trapped s 0 .align (ea s f) 0x1803)) ∧
    (f.dst = 0 → unusedB f → (xa s f).toNat ≤ 0xFFF → (xa s f).toNat % 8 = 0 →
      exec (.cwait f) s =
        .next (if ((s.core s.turn.core).counterAtStart ((xa s f).toNat / 8)).toNat < (sImmU f).toNat then s else ran s id))

/-- 05 R104, R105, 11 R257: a global load of each size empties its destination and awaits the extended value of the
core's view at the translated address; a global store of each size enters the core's write set there. -/
def Sys2Proof.Claim.GlobalLoadAndStoreResults : Prop :=
  ∀ (s : State) (f : SFields) (x : Xlate), full s f.sa → idle s → (ea s f).toNat < 2 ^ 54 →
    (∀ e ∈ [(Instr.ldGB8N f, 1, false), (.ldGB16N f, 2, false), (.ldGB32N f, 4, false), (.ldGB64 f, 8, false),
        (.ldGB8S f, 1, true), (.ldGB16S f, 2, true), (.ldGB32S f, 4, true)],
      unusedB f → free s f.dst → (ea s f).toNat % e.2.1 = 0 → unbarred s f false false e.2.1 → mapped s f .read = .ok x →
      exec e.1 s = .next (ran x.s (awaiting f.dst (extended e.2.1 e.2.2 ((x.s.core s.turn.core).viewRead x.pa e.2.1)) (ea s f)
        (readUnits x.pa x.poisoned) 0))) ∧
    (∀ e ∈ [(Instr.stGB8 f, 1), (.stGB16 f, 2), (.stGB32 f, 4), (.stGB64 f, 8)],
      f.dst = 0 → full s f.sb → (ea s f).toNat % e.2 = 0 → unbarred s f false true e.2 → mapped s f .write = .ok x →
      exec e.1 s = .next (ran (x.s.plainStore s.turn.core (.ctx s.turn.ctx, 0) x.pa (bytesOf e.2 (xb s f).toNat)) id))

/-- 05 R104, 16 R331, R341: what a global access that fails its checks raises: PAGE above 2^54, then ALIGN, then the trap
of the translation; and nothing is read or written. -/
def Sys2Proof.Claim.GlobalAccessTraps : Prop :=
  ∀ (s : State) (f : SFields) (t : Trap), full s f.sa → idle s →
    (∀ e ∈ [(Instr.ldGB8N f, 1), (.ldGB16N f, 2), (.ldGB32N f, 4), (.ldGB64 f, 8), (.ldGB8S f, 1), (.ldGB16S f, 2), (.ldGB32S f, 4)],
      unusedB f → free s f.dst →
      ((ea s f).toNat / 2 ^ 54 ≠ 0 → exec e.1 s = .next (trapped s 0 .page (ea s f) (3 * 2 ^ 13))) ∧
      ((ea s f).toNat / 2 ^ 54 = 0 → (ea s f).toNat % e.2 ≠ 0 → exec e.1 s = .next (trapped s 0 .align (ea s f) (Nat.log2 e.2))) ∧
      ((ea s f).toNat / 2 ^ 54 = 0 → (ea s f).toNat % e.2 = 0 → unbarred s f false false e.2 → mapped s f .read = .error t →
        exec e.1 s = .next (trapped s 0 t.cls t.addr t.det))) ∧
    (∀ e ∈ [(Instr.stGB8 f, 1), (.stGB16 f, 2), (.stGB32 f, 4), (.stGB64 f, 8)],
      f.dst = 0 → full s f.sb →
      ((ea s f).toNat / 2 ^ 54 ≠ 0 → exec e.1 s = .next (trapped s 0 .page (ea s f) (3 * 2 ^ 13 + 2048))) ∧
      ((ea s f).toNat / 2 ^ 54 = 0 → (ea s f).toNat % e.2 ≠ 0 → exec e.1 s = .next (trapped s 0 .align (ea s f) (2048 + Nat.log2 e.2))) ∧
      ((ea s f).toNat / 2 ^ 54 = 0 → (ea s f).toNat % e.2 = 0 → unbarred s f false true e.2 → mapped s f .write = .error t →
        exec e.1 s = .next (trapped s 0 t.cls t.addr t.det)))

/-- 05 R104, R105, 16 R331: the frame of the global accesses. A load or a store leaves every Landing and counter, every
condition bit and every x register but a load's destination; of global memory it changes at most the entry of the page
table in which the walker sets A and D (the store itself stands in the core's write set: 11 R257). -/
def Sys2Proof.Claim.GlobalAccessFrame : Prop :=
  ∀ (s t : State) (f : SFields), idle s →
    ∀ e ∈ [(Instr.ldGB8N f, true), (.ldGB16N f, true), (.ldGB32N f, true), (.ldGB64 f, true), (.ldGB8S f, true), (.ldGB16S f, true),
        (.ldGB32S f, true), (.stGB8 f, false), (.stGB16 f, false), (.stGB32 f, false), (.stGB64 f, false)],
      exec e.1 s = .next t →
      (∀ k a, (t.core k).landing.byte a = (s.core k).landing.byte a) ∧ (∀ k j, counter t k j = counter s k j) ∧
      (∀ r, (e.2 = true → r ≠ f.dst.toNat) → (me t).getX r = (me s).getX r ∧ (me t).full r = (me s).full r) ∧
      (∀ n, (me t).getC n = (me s).getC n) ∧ (me t).numflags = (me s).numflags ∧ (me t).priv = (me s).priv ∧
      (∀ a, (∀ w, s.walk (me s).asid ((s.core s.turn.core).redirect (me s).task false (ea s f).toNat % 2 ^ 64) = .ok w →
          a < w.at_ ∨ w.at_ + 8 ≤ a) → t.mem.byte a = s.mem.byte a)

/-- 05 R96, R101: cand, cor and cnot combine condition bits that are not awaited, c0 to c15, into one of c0 to c7; any
other destination, a source field above 15 or a mode bit raises ILLEGAL_OP; their codes are 0x35, 0x36 and 0x37. Of the model's own readings and choices (NOTES.md) it rests on log 7, 93. -/
def Obligations.ConditionBitOperations : Prop :=
  ∀ (s : State) (f : SFields), idle s →
    (condDst f → f.ma = false → f.mb = false → f.sa.toNat < 16 → f.sb.toNat < 16 → (me s).cAwaited f.sa.toNat = false →
      (me s).cAwaited f.sb.toNat = false →
      exec (.cand f) s = .next (ran s (putC f.dst ((me s).getC f.sa.toNat && (me s).getC f.sb.toNat))) ∧
      exec (.cor f) s = .next (ran s (putC f.dst ((me s).getC f.sa.toNat || (me s).getC f.sb.toNat)))) ∧
    (condDst f → f.ma = false → unusedB f → f.sa.toNat < 16 → (me s).cAwaited f.sa.toNat = false →
      exec (.cnot f) s = .next (ran s (putC f.dst (!(me s).getC f.sa.toNat)))) ∧
    (¬ (condDst f ∧ f.ma = false ∧ f.mb = false ∧ f.sa.toNat < 16 ∧ f.sb.toNat < 16) →
      exec (.cand f) s = .next (trapped s 0 .illegalOp 0 0) ∧ exec (.cor f) s = .next (trapped s 0 .illegalOp 0 0)) ∧
    (¬ (condDst f ∧ f.ma = false ∧ unusedB f ∧ f.sa.toNat < 16) → exec (.cnot f) s = .next (trapped s 0 .illegalOp 0 0)) ∧
    (8 ≤ f.dst.toNat → ∀ i ∈ [Instr.cmpEq f, .cmpNe f, .cmpLtS f, .cmpLeS f, .cmpLtN f, .cmpLeN f, .cmpEqI f, .cmpNeI f,
      .cmpLtSI f, .cmpLeSI f, .cmpLtNI f, .cmpLeNI f], exec i s = .next (trapped s 0 .illegalOp 0 0)) ∧
    (me s).getC 15 = true ∧
    ∀ g : BitVec 5,
      decodeScalar (0x35#7 ++ g ++ f.dst ++ BitVec.ofBool f.ma ++ f.sa ++ BitVec.ofBool f.mb ++ f.sb ++ f.imm) f.x = .ok (.cand f) ∧
      decodeScalar (0x36#7 ++ g ++ f.dst ++ BitVec.ofBool f.ma ++ f.sa ++ BitVec.ofBool f.mb ++ f.sb ++ f.imm) f.x = .ok (.cor f) ∧
      decodeScalar (0x37#7 ++ g ++ f.dst ++ BitVec.ofBool f.ma ++ f.sa ++ BitVec.ofBool f.mb ++ f.sb ++ f.imm) f.x = .ok (.cnot f)

/-- 05 R109, R110, 02 R52: lpset sets up the loop engine; call, jmpx and ret go to their targets. Of the model's own readings and choices (NOTES.md) it rests on log 7, 66. -/
def Obligations.LoopAndTransferResults : Prop :=
  ∀ (s : State) (f : SFields), full s f.sa → unusedB f → idle s →
    (f.dst = 0 → (xa s f).toNat < 2 ^ 32 → 1 ≤ (sImmU f).toNat → (sImmU f).toNat < 8 → (me s).active = false →
      ∃ t, exec (.lpset f) s = .next t ∧ onlyMe s t ∧ sameMemory s t ∧ (me t).pc = (me s).pc + 32 ∧
        (me t).trip = (xa s f).toNat ∧ (me t).stages = (sImmU f).toNat ∧ (me t).lpstart = (me s).pc + 32 ∧
        (me t).active = decide (xa s f ≠ 0) ∧ (me t).next = (if xa s f = 0 then 0 else 1) ∧
        (∀ r, (me t).getX r = (me s).getX r) ∧
        (∀ n, n < 15 → (me t).getC n = if n < 8 then (me s).getC n else decide (n = 8 ∧ xa s f ≠ 0))) ∧
    (f.dst = 0 → ¬ ((xa s f).toNat < 2 ^ 32 ∧ 1 ≤ (sImmU f).toNat ∧ (sImmU f).toNat < 8 ∧ (me s).active = false) →
      exec (.lpset f) s = .next (trapped s 0 .illegalOp 0 0)) ∧
    (free s f.dst → exec (.call f) s =
      .next (wentTo s ((if f.sa = 0 then (me s).pc else xa s f) + 32 * sImmS f) (put f.dst ((me s).pc + 32)))) ∧
    (f.dst = 0 → exec (.jmpx f) s = .next (wentTo s ((if f.sa = 0 then (me s).pc else xa s f) + 32 * sImmS f) id)) ∧
    (f.dst = 0 → sImmU f = 0 → exec (.ret f) s = .next (wentTo s (xa s f) id))

/-- 05 R111, R114, 14 R298: snext, tend and merge end the step of a task whose children have all merged, in neither a loop
nor a handler; tend and merge end the task's steps too; merge belongs to a spawned child and tend to any other task. sync
then goes on; while a child has not merged, all four wait at their bundle. -/
def Sys2Proof.Claim.StepEndResults : Prop :=
  ∀ (s : State) (f : SFields), noOperands f → idle s →
    (∀ e ∈ [(Instr.snext f, 0, true), (.tend f, 1, true), (.merge f, 2, false)],
      (e.2.1 = 0 → f.imm = 0) → (e.2.1 ≠ 0 → (match (me s).task with | some t => (s.task t).parent.isNone | none => true) = e.2.2) →
      (me s).active = false → (me s).ev.inh = false →
      (childless s = true → ∃ t, exec e.1 s = .next t ∧ sameMemory s t ∧ sameRegs s t ∧ (me t).wait = .stepEnd e.2.1 ∧
        (me t).pc = (me s).pc + 32 ∧
        (∀ n, (t.task n).stopStep = ((s.task n).stopStep || (decide ((me s).task = some n) && decide (e.2.1 ≠ 0))))) ∧
      (childless s = false → ∃ t, exec e.1 s = .next t ∧ onlyMe s t ∧ sameMemory s t ∧ sameRegs s t ∧ (me t).wait = .sync ∧
        (me t).pc = (me s).pc)) ∧
    (childless s = true → ∃ t, exec (.sync f) s = .next t ∧ sameMemory s t ∧ sameRegs s t ∧ (me t).wait = .none ∧
      (me t).pc = (me s).pc + 32) ∧
    (childless s = false → ∃ t, exec (.sync f) s = .next t ∧ onlyMe s t ∧ sameMemory s t ∧ sameRegs s t ∧
      (me t).wait = .sync ∧ (me t).pc = (me s).pc)

/-- 05 R115: tbar is the next generation's arrival of its context, whose Landing stores it has served; the context waits while a member has not arrived, and
once every member has, no member waits. -/
def Sys2Proof.Claim.TroupeBarrier : Prop :=
  ∀ (s : State) (f : SFields), noOperands f → idle s →
    (s.inTroupe (me s) = true → ∃ t, exec (.tbar f) s = .next t ∧ sameMemory (s.drainCtx s.turn.core s.turn.ctx) t ∧ sameRegs s t ∧
      (me t).tbar = (me s).tbar + 1 ∧ (me t).pc = (me s).pc + 32 ∧
      ((∃ m ∈ members s, m ≠ (s.turn.core, s.turn.ctx) ∧ (s.ctx m.1 m.2).tbar < (me s).tbar + 1) → (me t).wait = .tbar ((me s).tbar + 1)) ∧
      ((∀ m ∈ members s, m ≠ (s.turn.core, s.turn.ctx) → (me s).tbar + 1 ≤ (s.ctx m.1 m.2).tbar) →
        ∀ m ∈ members s, (t.ctx m.1 m.2).wait ≠ .tbar ((me s).tbar + 1))) ∧
    (s.inTroupe (me s) = false → exec (.tbar f) s = .next (trapped s 0 .illegalOp 0 0))

/-- 05 R112, R113: spawn enters a child of the TOPB at x[sa] in the pool of the die and its spawn index is awaited in
x[dst]; spawn.nb enters one too, where the pool has room, and leaves the answer, the index or 0, to the die, which will write
x[dst] and c[imm]. A full pool parks spawn at its bundle. -/
def Sys2Proof.Claim.SpawnResults : Prop :=
  ∀ (s : State) (f : SFields) (x : Xlate) (n : Nat), full s f.sa → unusedB f → free s f.dst → idle s →
    (me s).task = some n → n < s.nextTask → (s.task n).spawned < 4095 → (xa s f).toNat % 256 = 0 → (xa s f).toNat < 2 ^ 54 →
    s.xlate (s.ctxAgent s.turn.core s.turn.ctx) .read (xa s f) = .ok x →
    (s.poolRoom (coreDie s.turn.core) n = true → ∃ t, exec (.spawn f) s = .next t ∧
      (t.die (coreDie s.turn.core)).pool = (s.die (coreDie s.turn.core)).pool ++ [s.nextTask] ∧
      (t.task n).spawned = (s.task n).spawned + 1 ∧ (t.task s.nextTask).topb = xa s f ∧
      (t.task s.nextTask).parent = some n ∧ (t.task s.nextTask).spawnIx = (s.task n).spawned + 1 ∧
      (me t).pc = (me s).pc + 32 ∧ (f.dst ≠ 0 → (me t).full f.dst.toNat = false) ∧
      (∃ r ∈ (me t).results, r.reg = f.dst.toNat ∧ r.value = BitVec.ofNat 64 ((s.task n).spawned + 1) ∧ r.spawn = none)) ∧
    (s.poolRoom (coreDie s.turn.core) n = false → ∃ t, exec (.spawn f) s = .next t ∧ onlyMe s t ∧ sameRegs s t ∧
      (me t).wait = .spawnPark 0 ∧ (me t).pc = (me s).pc) ∧
    ((sImmU f).toNat < 8 → ∃ t, exec (.spawnNb f) s = .next t ∧ (me t).pc = (me s).pc + 32 ∧
      (f.dst ≠ 0 → (me t).full f.dst.toNat = false) ∧ (me t).cAwaited (sImmU f).toNat = true ∧
      (s.poolRoom (coreDie s.turn.core) n = true →
        (t.die (coreDie s.turn.core)).pool = (s.die (coreDie s.turn.core)).pool ++ [s.nextTask] ∧
        (t.task n).spawned = (s.task n).spawned + 1 ∧ (t.task s.nextTask).topb = xa s f ∧
        (t.task s.nextTask).parent = some n ∧ (t.task s.nextTask).spawnIx = (s.task n).spawned + 1 ∧
        (∃ r ∈ (me t).results, r.reg = f.dst.toNat ∧ r.value = BitVec.ofNat 64 ((s.task n).spawned + 1) ∧ r.spawn = some (xa s f))) ∧
      (s.poolRoom (coreDie s.turn.core) n = false →
        (t.die (coreDie s.turn.core)).pool = (s.die (coreDie s.turn.core)).pool ∧ (t.task n).spawned = (s.task n).spawned ∧
        (∃ r ∈ (me t).results, r.reg = f.dst.toNat ∧ r.value = 0 ∧ r.spawn = some (xa s f))))

/-- 05 R116, 10 R244, R247: evarm replaces a slot's state and clears its pending bit; evdis disarms the slot and clears
it; an illegal descriptor or threshold raises ILLEGAL_OP. -/
def Sys2Proof.Claim.EventSlotResults : Prop :=
  ∀ (s : State) (f : SFields), f.dst.toNat < 16 → idle s →
    (full s f.sa → full s f.sb → evDescOk false (xa s f) (xb s f) = true →
      ∃ t, exec (.evarm f) s = .next t ∧ onlyMe s t ∧ sameMemory s t ∧ sameRegs s t ∧ (me t).pc = (me s).pc + 32 ∧
        (me t).ev.slotAt f.dst.toNat = ⟨true, natField (xa s f).toNat 3 0, natField (xa s f).toNat 39 8,
          natField (xa s f).toNat 4 4 == 1, xb s f, (me s).pc + 32 * sImmS f, false⟩ ∧
        (∀ j, j ≠ f.dst.toNat → (me t).ev.slotAt j = (me s).ev.slotAt j) ∧
        (∀ j, (me t).ev.pend.getLsbD j = ((me s).ev.pend.getLsbD j && decide (j ≠ f.dst.toNat)))) ∧
    (full s f.sa → full s f.sb → evDescOk false (xa s f) (xb s f) = false → exec (.evarm f) s = .next (trapped s 0 .illegalOp 0 0)) ∧
    (unusedA f → unusedB f → ((me s).ev.slotAt f.dst.toNat).armed = true →
      ∃ t, exec (.evdis f) s = .next t ∧ sameMemory s t ∧ sameRegs s t ∧ (me t).pc = (me s).pc + 32 ∧
        ((me t).ev.slotAt f.dst.toNat).armed = false ∧
        (∀ j, j ≠ f.dst.toNat → (me t).ev.slotAt j = (me s).ev.slotAt j) ∧
        (∀ j, (me t).ev.pend.getLsbD j = ((me s).ev.pend.getLsbD j && decide (j ≠ f.dst.toNat)))) ∧
    (unusedA f → unusedB f → ((me s).ev.slotAt f.dst.toNat).armed = false → exec (.evdis f) s = .next (ran s id))

/-- 05 R117, R118: twany parks on its armed slots, or enters the handler of the lowest that is pending and not masked:
the pending bit falls, EVPC keeps the next bundle, x56 to x63 and c7 are exchanged with their shadows; evret exchanges
them back and goes on at EVPC; out of place, both raise ILLEGAL_OP. -/
def Sys2Proof.Claim.WaitAndHandlerResults : Prop :=
  ∀ (s : State) (f : SFields), noOperands f → idle s →
    ((me s).ev.inh = false → f.imm &&& (me s).ev.armedMask ≠ 0 →
      ((me s).ev.ready (f.imm &&& (me s).ev.armedMask) = 0 →
        exec (.twany f) s = .next (ran s (fun c => { c with wait := .twany (f.imm &&& c.ev.armedMask) (c.pc + 32) }))) ∧
      ((me s).ev.ready (f.imm &&& (me s).ev.armedMask) ≠ 0 →
        ∃ t j, exec (.twany f) s = .next t ∧ j < 16 ∧ ((me s).ev.ready (f.imm &&& (me s).ev.armedMask)).getLsbD j = true ∧
          (∀ i, i < j → ((me s).ev.ready (f.imm &&& (me s).ev.armedMask)).getLsbD i = false) ∧
          onlyMe s t ∧ sameMemory s t ∧ (me t).pc = ((me s).ev.slotAt j).handler ∧ (me t).ev.pc = (me s).pc + 32 ∧
          (me t).ev.inh = true ∧ (me t).ev.slot = j ∧ (me t).ev.pend.getLsbD j = false ∧ (me t).wait = .none ∧
          (∀ r, r < 56 → (me t).getX r = (me s).getX r) ∧
          (∀ r, 56 ≤ r → r < 64 → (me t).getX r = Tab.get (me s).shX 0 r ∧ Tab.get (me t).shX 0 r = (me s).getX r) ∧
          (me t).getC 7 = (me s).shC7 ∧ (me t).shC7 = (me s).getC 7)) ∧
    ((me s).ev.inh = true ∨ f.imm &&& (me s).ev.armedMask = 0 → exec (.twany f) s = .next (trapped s 0 .illegalOp 0 0)) ∧
    ((me s).ev.inh = true → ∃ t, exec (.evret f) s = .next t ∧ onlyMe s t ∧ sameMemory s t ∧ (me t).pc = (me s).ev.pc ∧
      (me t).ev.inh = false ∧ (me t).wait = (me s).held ∧ (∀ r, r < 56 → (me t).getX r = (me s).getX r) ∧
      (∀ r, 56 ≤ r → r < 64 → (me t).getX r = Tab.get (me s).shX 0 r ∧ Tab.get (me t).shX 0 r = (me s).getX r) ∧
      (me t).getC 7 = (me s).shC7 ∧ (me t).shC7 = (me s).getC 7) ∧
    ((me s).ev.inh = false → exec (.evret f) s = .next (trapped s 0 .illegalOp 0 0))

/-- 05 R119, R121, 16 R335: crd writes the value of a fast register to x[dst]; DEVTIME is slow; a register that is not
listed raises ILLEGAL_OP, and a system register of a user context PRIV. -/
def Sys2Proof.Claim.ControlRegisterReads : Prop :=
  ∀ (s : State) (f : SFields), unusedA f → unusedB f → free s f.dst → idle s →
    (∀ e ∈ [(0x000, (me s).numflags.setWidth 64), (0x001, BitVec.ofNat 64 (me s).pri), (0x002, BitVec.ofNat 64 (ctxId s.turn.core s.turn.ctx)),
        (0x008, Tab.get (me s).ireg 0 0), (0x009, Tab.get (me s).ireg 0 1), (0x00A, Tab.get (me s).ireg 0 2),
        (0x00B, Tab.get (me s).ireg 0 3), (0x00C, Tab.get (me s).ireg 0 4), (0x00D, Tab.get (me s).ireg 0 5),
        (0x010, (me s).lpstart), (0x018, (me s).ev.pend.setWidth 64), (0x019, (me s).ev.mask.setWidth 64), (0x01A, (me s).ev.pc),
        (0x01B, (me s).ev.ctl), (0x020, BitVec.ofNat 64 s.cycle), (0x210, BitVec.ofNat 64 (me s).asid),
        (0x223, BitVec.ofNat 64 s.cwcyc), (0x226, BitVec.ofNat 64 s.fabric.cwdim)],
      (sImmU f).toNat = e.1 → exec (.crd f) s = .next (ran s (put f.dst e.2))) ∧
    ((sImmU f).toNat < 4096 → ctxRegOk (sImmU f).toNat = true → sysReadPriv (me s).priv (sImmU f).toNat = false →
      (sImmU f).toNat ≠ 0x021 → exec (.crd f) s =
        .next (ran (s.ctxRegRead s.turn.core s.turn.ctx (me s) (sImmU f).toNat).2
          (put f.dst (s.ctxRegRead s.turn.core s.turn.ctx (me s) (sImmU f).toNat).1))) ∧
    ((sImmU f).toNat = 0x021 → exec (.crd f) s = .next (ran s (awaiting f.dst (BitVec.ofNat 64 s.devtime) 0 [] 0))) ∧
    (¬ ((sImmU f).toNat < 4096 ∧ ctxRegOk (sImmU f).toNat = true) → exec (.crd f) s = .next (trapped s 0 .illegalOp 0 0)) ∧
    (isSysReg (sImmU f).toNat = true → (sImmU f).toNat ≠ 0x210 → (sImmU f).toNat ≠ 0x223 → (sImmU f).toNat ≠ 0x226 →
      (me s).priv = 0 → exec (.crd f) s = .next (trapped s 0 .priv 0 0))

/-- 05 R119, R121, 03 R71, 16 R335, R337: cwr writes a register of the context, HANGCTL at system privilege (the limit from
the next cycle on), or a system register; writes to read-only registers do nothing; a user context takes PRIV for a system register and HANGCTL. -/
def Sys2Proof.Claim.ControlRegisterWrites : Prop :=
  ∀ (s : State) (f : SFields), full s f.sa → unusedB f → f.dst = 0 → idle s →
    ((sImmU f).toNat = 0x000 → exec (.cwr f) s = .next (ran s (fun c => { c with numflags := c.numflags &&& ~~~ ((xa s f).setWidth 32) }))) ∧
    ((sImmU f).toNat = 0x019 → exec (.cwr f) s = .next (ran s (fun c => { c with ev := { c.ev with mask := (xa s f).setWidth 16 } }))) ∧
    ((sImmU f).toNat = 0x01A → exec (.cwr f) s = .next (ran s (fun c => { c with ev := { c.ev with pc := xa s f } }))) ∧
    ((sImmU f).toNat = 0x01C → exec (.cwr f) s = .next (ran s (fun c => { c with ev := c.ev.postSoft (xa s f) }))) ∧
    ((sImmU f).toNat ∈ [0x001, 0x002, 0x003, 0x008, 0x009, 0x00A, 0x00B, 0x00C, 0x00D, 0x010, 0x011, 0x012, 0x018, 0x01B, 0x020, 0x021,
        0x210] → exec (.cwr f) s = .next (ran s id)) ∧
    (∀ p, p < 4 → (sImmU f).toNat = 0x040 + p → (me s).priv ≠ 0 →
      exec (.cwr f) s = .next (ran (s.modPart s.turn.core p (fun x => { x with hangNew := some ((xa s f).toNat % 2 ^ 32) })) id)) ∧
    ((sImmU f).toNat = 0x20B → (me s).priv ≠ 0 → (xa s f).toNat < 2 ^ 32 →
      exec (.cwr f) s = .next (ran { s with pregrace := (xa s f).toNat } id)) ∧
    ((sImmU f).toNat = 0x201 → (me s).priv ≠ 0 → sysValueOk 0x201 (xa s f) = true →
      exec (.cwr f) s = .next (ran (s.modSpace s.assel (fun sp => { sp with ptbase := xa s f })) id)) ∧
    ((sImmU f).toNat < 4096 → ctxRegOk (sImmU f).toNat = true → sysWritePriv (me s).priv (sImmU f).toNat = false →
      (isSysReg (sImmU f).toNat = true → sysValueOk (sImmU f).toNat (xa s f) = true) → ((sImmU f).toNat = 0x208 → s.tlbBusy = false) →
      ∃ t, exec (.cwr f) s = .next t) ∧
    ((isSysReg (sImmU f).toNat = true ∧ (sImmU f).toNat ≠ 0x210) ∨ (0x40 ≤ (sImmU f).toNat ∧ (sImmU f).toNat ≤ 0x43) →
      (me s).priv = 0 → exec (.cwr f) s = .next (trapped s 0 .priv 0 0)) ∧
    (¬ ((sImmU f).toNat < 4096 ∧ ctxRegOk (sImmU f).toNat = true) → exec (.cwr f) s = .next (trapped s 0 .illegalOp 0 0))

/-- 05 R122 to R124: a phase begins with its publication and snapshot; a fence has the context's waiting Landing
stores served; a nop does nothing; fbar drops what
the core has fetched; brk and trap raise BREAK with their number and kind. Of the model's own readings and choices (NOTES.md) it rests on log 7, 20. -/
def Obligations.OrderingAndBreakResults : Prop :=
  ∀ (s : State) (f : SFields), idle s →
    (noOperands f → (sImmU f).toNat ∈ [1, 2, 3] →
      ∃ t, exec (.phase f) s = .next t ∧ sameMemory s t ∧ sameRegs s t ∧ (me t).wait = .phase ∧ (me t).pc = (me s).pc + 32 ∧
        (t.core s.turn.core).phases = (s.core s.turn.core).phases ++
          [⟨decide ((sImmU f).toNat % 2 = 1), decide (2 ≤ (sImmU f).toNat), .ctx s.turn.ctx, [], s.mem, s.cycle⟩]) ∧
    (noOperands f → (sImmU f).toNat = 0 → exec (.fence f) s = .next (ran (s.drainCtx s.turn.core s.turn.ctx) id)) ∧
    (noOperands f → ∃ t, exec (.fbar f) s = .next t ∧ sameMemory s t ∧ sameRegs s t ∧ (me t).pc = (me s).pc + 32 ∧
      (t.core s.turn.core).fetched = [] ∧ (∀ p, (t.part s.turn.core p).trace = [])) ∧
    (noOperands f → exec (.brk f) s = .next (trapped s 0 .break_ 0 f.imm.toNat)) ∧
    (noOperands f → exec (.trap f) s = .next (trapped s 0 .break_ 0 (65536 + f.imm.toNat))) ∧
    exec (.nop f) s = .next (ran s id)

/-- 09 R219 to R223, R232, R237: fdef loads a layout record and fcode a code table from Landing, after the context's own
stores there; fring defines a ring, and binds it to its queue with every slot free, or with no slots leaves it undefined. -/
def Sys2Proof.Claim.FerryTableCommands : Prop :=
  ∀ (s : State) (f : SFields), full s f.sa → idle s →
    (f.dst.toNat < 16 → unusedB f → 0x1000 ≤ (ea s f).toNat → (ea s f).toNat + 128 ≤ 0x800000 → (ea s f).toNat % 16 = 0 →
      unbarred s f true false 128 → (drained s).landFirstBad s.turn.core (me s).task (ea s f).toNat 128 = none →
      recIllegal (record s f) = false → recMisaligned (record s f) = false →
      exec (.fdef f) s = .next (ran (drained s) (fun c => { c with y := c.y.put f.dst.toNat (record s f) }))) ∧
    (f.dst.toNat < 4 → unusedB f → 0x1000 ≤ (ea s f).toNat → (ea s f).toNat + 256 ≤ 0x800000 → (ea s f).toNat % 16 = 0 →
      unbarred s f true false 256 → (drained s).landFirstBad s.turn.core (me s).task (ea s f).toNat 256 = none →
      codeBad (codeTable s f) = false → ((drained s).core s.turn.core).codeUsed f.dst.toNat = false →
      exec (.fcode f) s = .next (ran ((drained s).modCore s.turn.core (fun c => { c with codes := c.codes.put f.dst.toNat (codeTable s f) })) id)) ∧
    (f.dst.toNat < 16 → full s f.sb → f.imm = 0 → fieldNat (xa s f) 63 53 = 0 → fieldNat (xb s f) 63 37 = 0 →
      fieldNat (xb s f) 31 25 = 0 → fieldNat (xa s f) 52 32 % 16 = 0 → 16 ≤ fieldNat (xa s f) 52 32 →
      fieldNat (xa s f) 52 32 ≤ 2 ^ 20 → (fieldNat (xb s f) 36 36 = 1 → fieldNat (xb s f) 24 16 = 0) →
      fieldNat (xa s f) 31 0 % 16 = 0 → 0x1000 ≤ fieldNat (xa s f) 31 0 →
      fieldNat (xa s f) 31 0 + fieldNat (xb s f) 15 0 * fieldNat (xa s f) 52 32 ≤ 0x800000 →
      (s.core s.turn.core).ringUsed f.dst.toNat = false →
      (∀ h, fieldNat (xb s f) 36 36 = 1 → ((s.core s.turn.core).queue (fieldNat (xb s f) 35 32)).ring = some h →
        (s.core s.turn.core).ringUsed h = false) →
      ∃ t, exec (.fring f) s = .next t ∧ sameMemory s t ∧ sameRegs s t ∧ (me t).pc = (me s).pc + 32 ∧
        (fieldNat (xb s f) 15 0 = 0 → (t.core s.turn.core).ring f.dst.toNat = Ring.init) ∧
        (fieldNat (xb s f) 15 0 ≠ 0 →
          (t.core s.turn.core).ring f.dst.toNat = ⟨fieldNat (xa s f) 31 0, fieldNat (xa s f) 52 32, fieldNat (xb s f) 15 0,
            fieldNat (xb s f) 24 16, if fieldNat (xb s f) 36 36 = 1 then some (fieldNat (xb s f) 35 32) else none, 0⟩ ∧
          (fieldNat (xb s f) 36 36 = 1 → (t.core s.turn.core).queue (fieldNat (xb s f) 35 32) =
            { Queue.init with ring := some f.dst.toNat, free := fieldNat (xb s f) 15 0 })))

/-- 09 R224, R227, R238, R239: fwalk, fcopy and fpage enter a command with its transfer numbers in their channel, and
write the advanced NEXT to x[dst] and to the channel. The context's own Landing stores are served before. -/
def Sys2Proof.Claim.FerryTransferCommands : Prop :=
  ∀ (s u : State) (f : SFields) (fs fd : List Interval), u = drained s → full s f.sa → ferryChOk f = true → free s f.dst → idle s →
    (∀ e ∈ [(Instr.fwalk f, true, record s f), (.fcopy f, false, wCopy (record s f))],
      0x1000 ≤ (ea s f).toNat → (ea s f).toNat + 128 ≤ 0x800000 → (ea s f).toNat % 16 = 0 → unbarred s f true false 128 →
      u.landFirstBad s.turn.core (me s).task (ea s f).toNat 128 = none → wIllegal e.2.1 (record s f) = false →
      walkTrap u (s.turnEnv 1) (ferryCh f) e.2.2 (layout s (wSrcy e.2.2)) (layout s (wDsty e.2.2)) = none →
      (u.core s.turn.core).ferrySide (me s).task e.2.2 true (layout s (wSrcy e.2.2)) = .ok fs →
      ((wRing e.2.2 || wTile e.2.2) = false → (u.core s.turn.core).ferrySide (me s).task e.2.2 false (layout s (wDsty e.2.2)) = .ok fd) →
      (s.turnEnv 1).ferryFull u (ferryCh f) = false →
      ∃ t c, exec e.1 s = .next t ∧ sameMemory (drained u) t ∧ (me t).pc = (me s).pc + 32 ∧
        (t.chan s.turn.core (ferryCh f)).next = ((s.chan s.turn.core (ferryCh f)).next + wCount e.2.2) % 2 ^ 32 ∧
        (f.dst ≠ 0 → xd t f = BitVec.ofNat 64 (((s.chan s.turn.core (ferryCh f)).next + wCount e.2.2) % 2 ^ 32)) ∧
        (t.chan s.turn.core (ferryCh f)).cmds = (s.chan s.turn.core (ferryCh f)).cmds ++ [c] ∧
        c.desc = e.2.2 ∧ c.src = layout s (wSrcy e.2.2) ∧ c.dst = layout s (wDsty e.2.2) ∧ c.count = wCount e.2.2 ∧ c.begun = 0 ∧
        c.first = (s.chan s.turn.core (ferryCh f)).next ∧ c.fpage = none ∧ c.asid = (me s).asid ∧ c.priv = (me s).priv ∧ c.mask = []) ∧
    ((sImmU f).toNat ≤ 1 → (s.space (me s).asid).asctl.toNat % 2 = 1 → (xa s f).toNat < 2 ^ 54 →
      ((s.chan s.turn.core (ferryCh f)).next + 2 ^ 32 - (s.chan s.turn.core (ferryCh f)).wm) % 2 ^ 32 + 1 ≤ 2 ^ 31 - 1 →
      (s.turnEnv 1).ferryFull s (ferryCh f) = false →
      ∃ t c, exec (.fpage f) s = .next t ∧ sameMemory u t ∧ (me t).pc = (me s).pc + 32 ∧
        (t.chan s.turn.core (ferryCh f)).next = ((s.chan s.turn.core (ferryCh f)).next + 1) % 2 ^ 32 ∧
        (t.chan s.turn.core (ferryCh f)).cmds = (s.chan s.turn.core (ferryCh f)).cmds ++ [c] ∧
        c.fpage = some ((xa s f).toNat, (sImmU f).toNat) ∧ c.count = 1) ∧
    ((sImmU f).toNat ≤ 1 → (s.space (me s).asid).asctl.toNat % 2 = 0 → exec (.fpage f) s = .next (trapped s 1 .priv 0 0))

/-- 09 R227, R240 to R242: fwait holds its bundle until WM, as it stood at the start of the cycle, is at or after its
threshold, and while the channel is halted; fstat answers WM, NEXT or the state word; fstop, where no tile refill bars it,
cancels what its channel has not started, and a halted transfer. -/
def Sys2Proof.Claim.FerryChannelCommands : Prop :=
  ∀ (s : State) (f : SFields), ferryChOk f = true → idle s →
    (f.dst = 0 → full s f.sa → exec (.fwait f) s = .next
      (if (s.chan s.turn.core (ferryCh f)).halt = true ∨
          2 ^ 31 ≤ ((s.chan s.turn.core (ferryCh f)).seen % 2 ^ 32 + 2 ^ 32 - (ea s f).toNat % 2 ^ 32) % 2 ^ 32 then s else ran s id)) ∧
    (unusedA f → free s f.dst → (sImmU f).toNat < 3 →
      exec (.fstat f) s = .next (ran s (awaiting f.dst (BitVec.ofNat 64 (match (sImmU f).toNat with
        | 0 => (s.chan s.turn.core (ferryCh f)).wm
        | 1 => (s.chan s.turn.core (ferryCh f)).next
        | _ => (s.chan s.turn.core (ferryCh f)).stateWord)) 0 [] 1))) ∧
    (f.dst = 0 → unusedA f → f.imm = 0 → (s.core s.turn.core).stopWaits (s.chan s.turn.core (ferryCh f)) = false →
      ∃ t, exec (.fstop f) s = .next t ∧ sameMemory s t ∧ sameRegs s t ∧ (me t).pc = (me s).pc + 32 ∧
        (t.chan s.turn.core (ferryCh f)).halt = false ∧ (t.chan s.turn.core (ferryCh f)).halted = none ∧
        (t.chan s.turn.core (ferryCh f)).cause = 4 ∧ (t.chan s.turn.core (ferryCh f)).parked = [] ∧
        (∀ c ∈ (t.chan s.turn.core (ferryCh f)).cmds, c.begun = c.count) ∧
        (t.chan s.turn.core (ferryCh f)).next = (s.chan s.turn.core (ferryCh f)).next) ∧
    (f.dst = 0 → unusedA f → f.imm = 0 → (s.core s.turn.core).stopWaits (s.chan s.turn.core (ferryCh f)) = true →
      exec (.fstop f) s = .next s)

/-- 09 R220: the address and the verdict of an index vector under a layout record. -/
def Obligations.LayoutRecordMap : Prop :=
  ∀ (r : BitVec 1024) (iv : List Int), iv.length = 6 →
    recMap r iv =
      (ofSigned (if recSpace r then 32 else 64) ((recBase r : Int) +
        ((List.range (recNdim r)).map (fun d => wrapped r iv d * recStride r d)).sum),
      decide (∀ d < recNdim r, recLo r d ≤ wrapped r iv d ∧ wrapped r iv d < recHi r d) &&
        (List.range 6).all (fun d => decide (d < recNdim r) || iv.getD d 0 == 0))

/-- 09 R227, R231: a started transfer that ends well adds to its counter, leaves the channel, and the others
run on; memory is what the run of its elements left. -/
def Sys2Proof.Claim.FerryTransferCompletion : Prop :=
  ∀ (s : State) (core ch n : Nat) (tr : Transfer) (r : FerryRun), (s.chan core ch).running n = some tr →
    s.ferryRunAll core tr = (r, .done) →
    ∃ t, exec (.transferComplete core ch n) s = .next t ∧ (∀ q ∈ (t.chan core ch).active, q.num ≠ n) ∧
      (∀ q ∈ (r.s.chan core ch).active, q.num ≠ n → ∃ q' ∈ (t.chan core ch).active, q'.num = q.num) ∧ t.mem = r.s.mem ∧
      (∀ j, counter t core j = counter r.s core j +
        (if j = wCtr tr.cmd.desc then BitVec.ofNat 64
          (if wCmode tr.cmd.desc = 1 then wCinc tr.cmd.desc else if wCmode tr.cmd.desc = 2 then r.bytes else 0) else 0))

namespace Sys2Proof.Claim
/-! ### Words of the statements about the engine slot -/

/-- The architected figures but `fbind` and `fig`, with their numbers (04 R88, 06 R131). -/
def figures : List ((EFields → Instr) × Nat) :=
  [(.tres, 0x00), (.trel, 0x01), (.tcfg, 0x02), (.tld, 0x03), (.tldX8, 0x04), (.tldX16, 0x05), (.tst, 0x06), (.tzero, 0x07),
   (.zclr, 0x08), (.zld, 0x09), (.zdrain, 0x0A), (.mmaBf16, 0x10), (.mmaF16, 0x11), (.mmaE4m3, 0x12), (.mmaE5m2, 0x13),
   (.mmaI8, 0x14), (.mmaMx8, 0x15), (.mmaMx6, 0x16), (.mmaMx4, 0x17), (.mmaI4, 0x18), (.mmaI4e, 0x19), (.mmaF64, 0x1A),
   (.tcvt, 0x40), (.tadd, 0x41), (.tmul, 0x42), (.tfma, 0x43), (.tscale, 0x44), (.tmaxr, 0x45), (.tsumr, 0x46),
   (.texp2, 0x47), (.tmask, 0x48), (.tsel, 0x49), (.tquant, 0x4A), (.tdequant, 0x4B), (.ttrans, 0x4C)]

/-- The kind, the index and the x value of an operand position. -/
def kindOf (f : EFields) (j : Nat) : Nat := ((eOps f).getD j default).kind.toNat
def ixOf (f : EFields) (j : Nat) : Nat := ((eOps f).getD j default).idx.toNat
def xo (s : State) (f : EFields) (j : Nat) : Word := (me s).getX (ixOf f j)

/-- The partitions of a figure's scope. -/
abbrev scope (f : EFields) : List Nat := scopeParts f.scope.toNat

/-- The field rules of a figure whose operand kinds are `ks` (06 R127, R131, 02 R46). -/
abbrev figLegal (s : State) (f : EFields) (ks : List (List Nat)) : Prop :=
  f.scope.toNat < 6 ∧ (∀ o ∈ eOps f, eOperandOk o = true) ∧ (∀ j < 4, kindOf f j ∈ ks.getD j []) ∧
  (f.scope.toNat = 5 → s.inTroupe (me s) = true)

/-- The x operands are full, and fewer than 64 of the context's engine operations are outstanding. -/
abbrev figReady (s : State) (f : EFields) : Prop :=
  (∀ j < 4, kindOf f j = 2 → (me s).full (ixOf f j) = true) ∧
  ((s.core s.turn.core).jobs.filter (fun j => j.ctx == s.turn.ctx)).length < 64

/-- The first check that a figure fails against the issue-order state, over the partitions of its scope (06 R128). -/
def figTrap (s : State) (f : EFields) (n mod : Nat) : Option Trap :=
  firstTrap ((scope f).map (fun p => (figPlan n mod f.scope.toNat (me s) p ((List.range 4).map (ixOf f))
    ((List.range 4).map (kindOf f)) ((List.range 4).map (fun j => if kindOf f j = 2 then xo s f j else 0))).checks))

/-- The parts of a context that the issue of a figure leaves alone. -/
def engRest (c : Ctx) : Ctx :=
  { c with tiles := [], accs := [], latches := [], troupe := 0, pc := 0, cmd := 0, skip := [], issued := 0 }

/-- A bundle of one figure has issued: one job has joined the core's, and the PC has advanced. -/
def issued (s t : State) (f : EFields) (j : Job) : Prop :=
  (t.core s.turn.core).jobs = (s.core s.turn.core).jobs ++ [j] ∧ j.ctx = s.turn.ctx ∧ j.parts = scope f ∧ j.ops = jobOps f (me s) ∧
  j.started = false ∧ j.rdv = (f.scope.toNat == 5) ∧ (me t).pc = (me s).pc + 32 ∧ (me t).cmd = (me s).cmd + 1

/-- Only the context and the jobs of its core have changed, once the context's waiting Landing stores are served (05 R106). -/
def figFrame (s t : State) : Prop :=
  { t with cores := [] } = { s with cores := [] } ∧ (∀ k, k ≠ s.turn.core → t.core k = (drained s).core k) ∧
  { t.core s.turn.core with ctxs := [], jobs := [], nextJob := 0 } =
    { (drained s).core s.turn.core with ctxs := [], jobs := [], nextJob := 0 } ∧
  (∀ c, c ≠ s.turn.ctx → t.ctx s.turn.core c = s.ctx s.turn.core c) ∧ sameMemory (drained s) t ∧ sameRegs s t

end Sys2Proof.Claim

/-- 06 R127, R128, R131: an architected figure whose fields are legal, whose x operands are full and whose checks pass
joins the context's engine operations; a failed rule or check is its trap, and an empty x operand or the 64th
outstanding operation holds the bundle. Nothing else changes but the context's own Landing stores, which come before. -/
def Sys2Proof.Claim.EngineFigureIssue : Prop :=
  ∀ (s : State) (f : EFields), idle s → ∀ e ∈ figures,
    (figLegal s f ((figKinds e.2).getD []) → figReady s f → figTrap s f e.2 f.mod.toNat = none →
      ∃ t j, exec (e.1 f) s = .next t ∧ issued s t f j ∧ j.kind = .figure e.2 f.mod.toNat ∧ figFrame s t ∧
        engRest (me t) = engRest (me s)) ∧
    (∀ q, figLegal s f ((figKinds e.2).getD []) → figReady s f → figTrap s f e.2 f.mod.toNat = some q →
      exec (e.1 f) s = .next (trapped s 2 q.cls q.addr q.det)) ∧
    (¬ figLegal s f ((figKinds e.2).getD []) → exec (e.1 f) s = .next (trapped s 2 .illegalOp 0 0)) ∧
    (figLegal s f ((figKinds e.2).getD []) → ¬ figReady s f → exec (e.1 f) s = .next s)

/-- 06 R134, R138, R139: what the issue of tres, trel, tcfg, tzero, zclr and zld leaves of the registers they name,
and that it changes no other tile register or accumulator. -/
def Sys2Proof.Claim.TileRegisterResults : Prop :=
  ∀ (s : State) (f : EFields), idle s → ∀ e ∈ [((Instr.tres f), 0x00), (.trel f, 0x01), (.tcfg f, 0x02), (.tzero f, 0x07),
      (.zclr f, 0x08), (.zld f, 0x09)],
    figLegal s f ((figKinds e.2).getD []) → figReady s f → figTrap s f e.2 f.mod.toNat = none →
    ∃ t, exec e.1 s = .next t ∧
      (∀ p ∈ scope f,
        (e.2 = 0x00 → (me t).tile p (ixOf f 0) = ⟨xo s f 1, xo s f 2, xo s f 3, true, false⟩) ∧
        (e.2 = 0x01 → (me t).tile p (ixOf f 0) = Tile.init) ∧
        (e.2 = 0x02 → (me t).tile p (ixOf f 0) =
          ⟨((me s).tile p (ixOf f 0)).place, xo s f 1, xo s f 2, true, ((me s).tile p (ixOf f 0)).written⟩) ∧
        (e.2 = 0x07 → (me t).tile p (ixOf f 0) = { (me s).tile p (ixOf f 0) with written := true }) ∧
        (8 ≤ e.2 → (me t).acc p (ixOf f 0) = f.mod.toNat % 4 + 1)) ∧
      (∀ p < 4, ∀ u < 32, 8 ≤ e.2 ∨ p ∉ scope f ∨ u ≠ ixOf f 0 → (me t).tile p u = (me s).tile p u) ∧
      (∀ p < 4, ∀ u < 8, e.2 < 8 ∨ p ∉ scope f ∨ u ≠ ixOf f 0 → (me t).acc p u = (me s).acc p u)

/-- 06 R134, R135: TILE_STATE of a reserved register that tres names, of an unreserved one that another figure writes,
and of a source that is unreserved or not written. Each is of a figure of one partition with zero modifiers. -/
def Sys2Proof.Claim.TileStateTraps : Prop :=
  ∀ (s : State) (f : EFields), idle s → f.scope.toNat < 4 → f.mod = 0 → figReady s f →
    (figLegal s f [[0], [2], [2], [2]] → ((me s).tile f.scope.toNat (ixOf f 0)).reserved = true →
      Tile.reservedBad ⟨xo s f 1, xo s f 2, xo s f 3, true, false⟩ = false →
      exec (.tres f) s = .next (trapped s 2 .tileState 0 0)) ∧
    (∀ e ∈ [(Instr.trel f, 0x01), (.tzero f, 0x07), (.tld f, 0x03), (.tldX8 f, 0x04), (.tldX16 f, 0x05), (.zdrain f, 0x0A)],
      figLegal s f ((figKinds e.2).getD []) → ((me s).tile f.scope.toNat (ixOf f 0)).reserved = false →
      exec e.1 s = .next (trapped s 2 .tileState 0 0)) ∧
    (∀ e ∈ figures, (e.2 = 0x06 ∨ 0x10 ≤ e.2) → figLegal s f ((figKinds e.2).getD []) →
      (∃ j < 4, (e.2 = 0x06 ↔ j = 0) ∧ kindOf f j = 0 ∧ (((me s).tile f.scope.toNat (ixOf f j)).reserved = false ∨
        ((me s).tile f.scope.toNat (ixOf f j)).written = false)) →
      exec (e.1 f) s = .next (trapped s 2 .tileState 0 0))

/-- 04 R88, R92, 06 R148, R149, 12 R271 to R275: what a figure number's issue does: fbind, fig, user figures bound to an
engine or to a routine, numbers that stand for nothing and retired numbers. -/
def Sys2Proof.Claim.FigureNumberOutcomes : Prop :=
  ∀ (s : State) (f : EFields), idle s →
    (figLegal s f [[2], [2], [2], [3]] → f.scope = 4 → f.mod = 0 → (∀ j < 3, (me s).full (ixOf f j) = true) →
      (0x80 ≤ (xo s f 0).toNat → (xo s f 0).toNat < 256 → entryBad ((xo s f 1).toNat + 2 ^ 64 * (xo s f 2).toNat) = false →
        ∃ t j, exec (.fbind f) s = .next t ∧ (t.core s.turn.core).jobs = (s.core s.turn.core).jobs ++ [j] ∧
          j.kind = .figure 0x0B 0 ∧ j.ctx = s.turn.ctx ∧ j.ops = jobOps f (me s) ∧ (me t).wait = .fbind ∧
          (me t).pc = (me s).pc + 32 ∧ sameMemory (drained s) t ∧ sameRegs s t) ∧
      ((xo s f 0).toNat < 0x80 → entryBad ((xo s f 1).toNat + 2 ^ 64 * (xo s f 2).toNat) = false →
        exec (.fbind f) s = .next (trapped s 2 .priv 0 0)) ∧
      (entryBad ((xo s f 1).toNat + 2 ^ 64 * (xo s f 2).toNat) = true → exec (.fbind f) s = .next (trapped s 2 .illegalOp 0 0)) ∧
      (256 ≤ (xo s f 0).toNat → exec (.fbind f) s = .next (trapped s 2 .illegalOp 0 0))) ∧
    (∀ e ∈ figures, f.mod.toNat < 64 → (me s).full f.mod.toNat = true → ((me s).getX f.mod.toNat).toNat = e.2 →
      figLegal s f ((figKinds e.2).getD []) → figReady s f → figTrap s f e.2 0 = none →
      ∃ t j, exec (.fig f) s = .next t ∧ exec (e.1 { f with mod := 0 }) s = .next t ∧ issued s t f j ∧ j.kind = .figure e.2 0) ∧
    (∀ n : BitVec 8, 0x80 ≤ n.toNat → ∀ e, e = s.figEntry (me s).asid n.toNat → entryKind e = 1 → entryBad e = false →
      (f.mod = 0 → figLegal s f ((figKinds (natField e 7 0)).getD []) → figReady s f →
        figTrap s f (natField e 7 0) (natField e 19 8) = none →
        ∃ t j, exec (.hardBoundFigure n f) s = .next t ∧ issued s t f j ∧ j.kind = .figure (natField e 7 0) (natField e 19 8) ∧
          figFrame s t) ∧
      (f.mod ≠ 0 → exec (.hardBoundFigure n f) s = .next (trapped s 2 .illegalOp 0 0))) ∧
    (∀ n : BitVec 8, ∀ e, e = s.figEntry (me s).asid n.toNat → (entryKind e = 2 ∧ 0x80 ≤ n.toNat) ∨ (entryKind e = 3 ∧ 0x70 ≤ n.toNat) →
      figLegal s f ((List.range 4).map (fun j => [natField (entryRole e j) 7 6])) → f.mod = 0 → figReady s f →
      (∀ p ∈ scope f, ∀ j < 4,
        (kindOf f j = 0 → ((me s).tile p (ixOf f j)).reserved = true ∧
          (natField (entryRole e j) 5 4 ≠ 1 → ((me s).tile p (ixOf f j)).written = true)) ∧
        (kindOf f j = 1 → ixOf f j < (me s).accMap.length ∧ (me s).acc p (ixOf f j) ≠ 0)) →
      (∀ p ∈ scope f, (p + 1) * instBytes e (me s) (scope f) ((List.range 4).map (ixOf f)) ≤ (s.task ((me s).task.getD 0)).gsize) →
      ∃ t j, exec (.routineBoundFigure n f) s = .next t ∧ issued s t f j ∧ j.kind = .routine n.toNat e ∧ j.restarts = 0 ∧
        j.scratch = instBytes e (me s) (scope f) ((List.range 4).map (ixOf f)) ∧ sameMemory (drained s) t ∧
        (∀ j < 4, kindOf f j = 2 → natField (entryRole e j) 5 4 ≠ 0 → ixOf f j ≠ 0 → (me t).full (ixOf f j) = false) ∧
        (∀ j < 4, kindOf f j = 0 → natField (entryRole e j) 5 4 ≠ 0 → ∀ p ∈ scope f, ((me t).tile p (ixOf f j)).written = true)) ∧
    (∀ n : BitVec 8, figKinds n.toNat = none → n ≠ 0x0C → n ≠ 0x21 → n ≠ 0x22 → entryKind (s.figEntry (me s).asid n.toNat) = 0 →
      exec (.unboundFigureIssue n f) s = .next (trapped s 2 .unboundFigure 0 0)) ∧
    (∀ n : BitVec 8, n = 0x21 ∨ n = 0x22 → exec (.retiredFigureIssue n f) s = .next (trapped s 2 .retiredOp 0 0))

/-- 06 R129, R143, 11 R264, 23 R432: a job starts when no earlier job holds it back and its partitions do not hold; one that meets no error completes, drops its
accesses, writes no global memory and ORs its flags into the context; one that meets uncorrectable data stops the
context. -/
def Sys2Proof.Claim.EngineJobLife : Prop :=
  ∀ (s : State) (core id n m : Nat) (j : Job), (s.core core).job id = some j → j.kind = .figure n m → n ≠ 0x0B →
    (j.started = false → (s.core core).jobFree j (fun _ => true) = true → (∀ p ∈ j.parts, (s.part core p).hold = 0) →
      ∃ t, exec (.engineJobStart core id) s = .next t ∧ (t.core core).job id = some { j with started := true } ∧ sameMemory s t) ∧
    (j.started = true → j.err = false → s.jobErr core j n m = none →
      ∃ t, exec (.engineJobComplete core id) s = .next t ∧ (t.core core).job id = none ∧ t.mem = s.mem ∧
        (t.ctx core j.ctx).numflags = (s.ctx core j.ctx).numflags ||| (s.runJob core j n m).2 ∧
        (t.ctx core j.ctx).pc = (s.ctx core j.ctx).pc) ∧
    (∀ p e pf, j.started = true → j.err = false → j.parent = none → s.jobErr core j n m = some (p, e, pf) →
      (s.ctx core j.ctx).recs.length < 8 →
      ∃ t r, exec (.engineErrorStop core id) s = .next t ∧ (t.ctx core j.ctx).stopped = true ∧
        (t.ctx core j.ctx).recs = (s.ctx core j.ctx).recs ++ [r] ∧ r.cls = .memUncorrectable ∧ r.engine = figEngine n ∧
        r.eidx = p ∧ r.pc = j.pc ∧ r.addr = BitVec.ofNat 64 e.addr ∧ r.inst = some id ∧ t.mem = s.mem)

/-- 06 R136, R139: the bytes that a tld without scales has written when it completes, and the elements that zclr and zld
have. Of the model's own readings and choices (NOTES.md) it rests on log 21. -/
def Obligations.TileDataEffects : Prop :=
  ∀ (s : State) (core id n m p : Nat) (j : Job), (s.core core).job id = some j → j.kind = .figure n m → j.parts = [p] →
    j.started = true → j.err = false → s.jobErr core j n m = none →
    (∀ u a pi b q, n = 0x03 → m % 4 = 0 → j.ops = [.tile u, .x a pi, .x b q, .none] → (j.tcr p u).sbl ≠ 1 →
      (j.tcr p u).rowLen ≤ (j.tcr p u).stride → ∃ t, exec (.engineJobComplete core id) s = .next t ∧
        ∀ i < (j.tcr p u).rows, ∀ x < (j.tcr p u).rowLen,
          (t.part core p).obuf.byte ((s.ctx core j.ctx).obufBase + (j.tcr p u).base + i * (j.tcr p u).stride + x) =
            (s.landBytes core (s.ctx core j.ctx).task (pi.toNat + i * q.toNat + x) 1).headD 0) ∧
    (∀ z, n = 0x08 → j.ops.head? = some (.acc z) → ∃ t, exec (.engineJobComplete core id) s = .next t ∧
      ∀ w < 32768, Tab.get (t.part core p).acc 0 (s.physAcc core j 0 * 32768 + w) = 0) ∧
    (∀ z a pi b q, n = 0x09 → m / 4 % 4 = 0 → j.ops = [.acc z, .x a pi, .x b q, .none] →
      ∃ t, exec (.engineJobComplete core id) s = .next t ∧ ∀ i < 128, ∀ c < 256,
        Tab.get (t.part core p).acc 0 (s.physAcc core j 0 * 32768 + i * 256 + c) =
          BitVec.ofNat 32 (numOf (s.landBytes core (s.ctx core j.ctx).task (pi.toNat + i * q.toNat + 4 * c) 4)))

/-- 06 R127, R148, 12 R275 to R277: the happenings of troupes, of fbind and of instances. -/
def Sys2Proof.Claim.EngineHappenings : Prop :=
  ∀ (s : State) (core ctx id part task : Nat),
    (∀ js : List (Nat × Job), js ≠ [] → js.map Prod.fst = (s.task task).cores → (∀ e ∈ js, (s.core e.1).rdvJob task = some e.2) →
      (∃ n, ∀ e ∈ js, e.2.rdvNo = n) →
      ((∃ g, ∀ e ∈ js, e.2.figNo = g) → exec (.troupeRendezvous task) s =
        .next (js.foldl (fun (x : State) e => x.modJob e.1 e.2.id (fun j => { j with rdv := false })) s)) ∧
      ((¬ ∃ g, ∀ e ∈ js, e.2.figNo = g) → ∃ t, exec (.troupeRendezvous task) s = .next t ∧
        ∀ e ∈ js, (t.ctx e.1 e.2.ctx).stopped = true)) ∧
    (∀ j, (s.core core).jobs.find? (fun j => j.ctx == ctx && (match j.fig? with | some (f, _) => f == 0x0B | none => false)) = some j →
      ∃ t, exec (.fbindComplete core ctx) s = .next t ∧
        Tab.get (t.space (s.ctx core ctx).asid).figures 0 (j.x 0).toNat = (j.x 2) ++ (j.x 1) ∧ (t.ctx core ctx).wait ≠ .fbind ∧
        (t.core core).job j.id = none ∧ sameMemory s t) ∧
    (∀ j n e, (s.core core).job id = some j → j.kind = .routine n e → (s.core core).mayStart j part = true →
      (s.core core).roomBefore j part = false →
      ∃ t j', exec (.routineGangStart core id part) s = .next t ∧ (t.core core).job id = some j' ∧ j'.started = true ∧
        j'.gangs = j.gangs ++ [(part, (s.part core part).freeSlots.take (entryGang e))] ∧
        (∀ i q, ((s.part core part).freeSlots.take (entryGang e))[i]? = some q →
          (t.strand core part q).gang = id ∧ (t.strand core part q).index = i ∧ (t.strand core part q).nregs = entryRegs e ∧
          ∀ l < 32, ((t.strand core part q).lane l).pc = BitVec.ofNat 64 (natField e 53 0))) ∧
    (∀ j n e, (s.core core).job id = some j → j.kind = .routine n e → j.err = false → j.rdv = false →
      (∀ p ∈ j.parts, p ∈ j.done) → ∃ t, exec (.instanceComplete core id) s = .next t ∧ (t.core core).job id = none ∧
        ((∀ p, ∀ q ∈ (s.part core p).strands, q.2.gang = id → q.2.reds = []) → t.mem = s.mem) ∧
        (∀ q ∈ (t.ctx core j.ctx).results, q.inst ≠ some id) ∧
        (∀ p, ∀ q ∈ (t.part core p).strands, q.2.gang ≠ id))

/-- 01 R12, R15, R28: a conversion keeps every finite code of every format, the subnormal ones too, on every path, and
sets no flag. -/
def Obligations.FiniteCodesKept : Prop :=
  ∀ f ∈ [fp64, fp32, fp16, bf16, e4m3, e5m2, e3m2, e2m3, e2m1], ∀ (mode : RMode) (sat drain neg : Bool) (x m : Nat) (e : Int),
    x < 2 ^ (1 + f.ebits + f.fbits) → f.decode x = .fin neg m e → f.convert mode sat drain (.fin neg m e) = (x, 0)

/-- 01 R27: the integer forms of mma add the exact products and the accumulator's value modulo 2^32, and set IOVF when
the true sum falls outside the INT32 range. -/
def Obligations.IntegerMatrixAccumulation : Prop :=
  ∀ fig, fig = 0x14 ∨ fig = 0x18 → ∃ fa fb chunk, mmaForm fig = some (fa, fb, 2, chunk) ∧
    ∀ (k acc : Nat) (a b : Nat → Int) (fl : Nat → NFlags), acc < 2 ^ 32 → ∀ sum : Int,
      sum = (BitVec.ofNat 32 acc).toInt + ((List.range k).map (fun i => a i * b i)).sum →
      mmaElem 2 chunk k 0 1 (fun i => (FVal.ofInt (a i), fl i)) (fun i => (FVal.ofInt (b i), fl i)) acc =
        ((BitVec.ofInt 32 sum).toNat, if -2 ^ 31 ≤ sum ∧ sum < 2 ^ 31 then 0 else flIovf)

namespace Sys2Proof.Claim
/-! ### Words of the statements about lane instructions -/

/-- The pass whose turn it is, a lane of its partition, and a strand. -/
abbrev pass (s : State) : List LaneRef := s.turn.pass
def lane (s : State) (r : LaneRef) : Lane := s.lane s.turn.core s.turn.part r.slot r.lane
def strand (s : State) (slot : Nat) : Strand := s.strand s.turn.core s.turn.part slot

/-- The first lane of the pass, the PC of its instruction, and the gang it belongs to. -/
def lead (s : State) : LaneRef := (pass s).headD ⟨0, 0⟩
def passPc (s : State) : Word := (lane s (lead s)).pc
def gang (s : State) : Nat := (strand s (lead s).slot).gang

/-- ACTIVE: the lanes of the pass whose guard holds (03 R78). -/
def active (s : State) (gn : Bool) (gp : BitVec 3) : List LaneRef := (pass s).filter (fun r => (lane s r).getP gp.toNat != gn)

/-- Nothing keeps the pass from issuing: the v registers named exist (03 R58), and the guard and, in the active lanes,
the operands are free of pending bits (03 R61). -/
abbrev ready (s : State) (gn : Bool) (gp : BitVec 3) (vs : List (Nat × Bool)) (ps : List Nat) : Prop :=
  pass s ≠ [] ∧ (∀ o ∈ vs, vOk (strand s (lead s).slot).nregs o = true) ∧ (∀ r ∈ pass s, gp.toNat ∉ (lane s r).pendP) ∧
  ∀ r ∈ active s gn gp, (∀ o ∈ vs, o.1 ∉ (lane s r).pendV ∧ (o.2 = true → o.1 + 1 ∉ (lane s r).pendV)) ∧ ∀ p ∈ ps, p ∉ (lane s r).pendP

/-- The pass is of one strand; it holds every lane of the strand that has not exited (08 R180). -/
abbrev solo (s : State) : Prop := ∀ r ∈ pass s, r.slot = (lead s).slot
abbrev wholePass (s : State) : Prop := solo s ∧ ∀ l ∈ (strand s (lead s).slot).lanes, l.2.exited = true ∨ ⟨(lead s).slot, l.1⟩ ∈ pass s

/-- The v registers of an operand. -/
def regs (w : Bool) (d : Nat) : List Nat := if w then [d, d + 1] else [d]
/-- The width of an operand. -/
def bits (w : Bool) : Nat := if w then 64 else 32

/-- The pass has issued: each active lane stands at `dest` and the others at the next PC, and no v register but `dv` and no
predicate but `dp` of the active lanes has changed. -/
def left (s t : State) (gn : Bool) (gp : BitVec 3) (size : Nat) (dest : LaneRef → Word) (dv dp : List Nat) : Prop :=
  (∀ r ∈ pass s, (lane t r).pc = if r ∈ active s gn gp then dest r else passPc s + BitVec.ofNat 64 size) ∧
  (∀ r, r ∉ pass s → (lane t r).pc = (lane s r).pc) ∧
  (∀ r n, ¬ (r ∈ active s gn gp ∧ n ∈ dv) → (lane t r).getV n = (lane s r).getV n) ∧
  (∀ r n, ¬ (r ∈ active s gn gp ∧ n ∈ dp) → (lane t r).getP n = (lane s r).getP n)

/-- The same, every lane at the next PC. -/
def stepped (s t : State) (gn : Bool) (gp : BitVec 3) (size : Nat) (dv dp : List Nat) : Prop :=
  left s t gn gp size (fun _ => passPc s + BitVec.ofNat 64 size) dv dp

/-- No byte of memory, and nothing of a tile context but NUMFLAGS, has changed. -/
def sameElse (s t : State) : Prop :=
  sameMemory s t ∧ ∀ k c, { t.ctx k c with numflags := 0 } = { s.ctx k c with numflags := 0 }

/-- The pass has issued, and nothing else of registers, memory and contexts has changed. -/
def passed (s t : State) (gn : Bool) (gp : BitVec 3) (size : Nat) (dv dp : List Nat) : Prop :=
  stepped s t gn gp size dv dp ∧ sameElse s t

/-- Beside v, p and the PC, nothing of a lane has changed, and nothing of a strand but when it issued. -/
def quiet (s t : State) : Prop :=
  (∀ r, { lane t r with v := [], p := 0, pc := 0, idle := 0 } = { lane s r with v := [], p := 0, pc := 0, idle := 0 }) ∧
  (∀ sl, { strand t sl with lanes := [], issued := 0 } = { strand s sl with lanes := [], issued := 0 })

/-- The flags `fl` have been ORed into NUMFLAGS of the context whose figure started the gang, and into no other (07
R154). -/
def ored (s t : State) (fl : NFlags) : Prop :=
  (∀ j, (s.core s.turn.core).job (gang s) = some j →
    (t.ctx s.turn.core j.ctx).numflags = (s.ctx s.turn.core j.ctx).numflags ||| fl) ∧
  ∀ k c, ¬ (∃ j, (s.core s.turn.core).job (gang s) = some j ∧ k = s.turn.core ∧ c = j.ctx) →
    (t.ctx k c).numflags = (s.ctx k c).numflags

/-- Issued, the instruction writes the value and ORs the flags that `g` gives for each active lane. -/
def gives (i : Instr) (s : State) (gn : Bool) (gp : BitVec 3) (size : Nat) (vs : List (Nat × Bool)) (ps : List Nat)
    (w : Bool) (d : BitVec 7) (g : LaneRef → Nat × NFlags) : Prop :=
  ready s gn gp ((d.toNat, w) :: vs) ps → ∃ t, exec i s = .next t ∧ passed s t gn gp size (regs w d.toNat) [] ∧ quiet s t ∧
    ored s t ((active s gn gp).foldl (fun a r => a ||| (g r).2) 0) ∧
    ∀ r ∈ active s gn gp, (lane t r).getW w d.toNat = (g r).1 % 2 ^ bits w

/-- v[n], or the pair, of a lane, and its predicates. -/
def v (s : State) (w : Bool) (n : Nat) (r : LaneRef) : Nat := (lane s r).getW w n

/-- Source B of a long form whose entry takes an immediate when `im` (07 R152, R153): its value, the registers it
names, and whether its fields are legal. -/
def bval (s : State) (f : LLong) (im : Bool) (ty : Nat) (r : LaneRef) : Nat :=
  if im ∧ 8 ≤ f.mod.toNat then laneImm ty f.imm
  else if f.u then ((strand s r.slot).getS f.b.toNat).toNat % 2 ^ tyW ty else v s (tyWide ty) f.b.toNat r
def breg (f : LLong) (im w : Bool) : List (Nat × Bool) := if f.u ∨ (im ∧ 8 ≤ f.mod.toNat) then [] else [(f.b.toNat, w)]
abbrev blegal (f : LLong) (im : Bool) : Prop :=
  if im ∧ 8 ≤ f.mod.toNat then f.b = 0 ∧ f.u = false else (im = true → f.imm = 0) ∧ (f.u = true → f.b.toNat < 32)

/-- The elements of a floating-point type: FP32, FP64, or two 16-bit halves (07 R163). -/
def halves (ty : Nat) (g : FFmt → Nat → Nat → Nat × NFlags) (a b : Nat) : Nat × NFlags :=
  let both (f : FFmt) : Nat × NFlags :=
    ((g f (a % 65536) (b % 65536)).1 + 65536 * (g f (a / 65536) (b / 65536)).1,
     (g f (a % 65536) (b % 65536)).2 ||| (g f (a / 65536) (b / 65536)).2)
  if ty = 0x10 then both fp16 else if ty = 0x11 then both bf16 else if ty = 0x0F then g fp64 a b else g fp32 a b

/-- The smaller, or the larger, of two codes: a NaN loses, two NaNs give the canonical one, −0 lies below +0 (07 R164). -/
def ordered (larger : Bool) (f : FFmt) (a b : Nat) : Nat × NFlags :=
  match (f.decode a).isNan, (f.decode b).isNan with
  | true, true => (f.nanCode, flNanIn)
  | true, false => (b, flNanIn)
  | false, true => (a, flNanIn)
  | false, false =>
    let below := (f.decode a).lt (f.decode b) || ((f.decode a).eqv (f.decode b) && ((f.decode a).neg? && !(f.decode b).neg?))
    (if below then (if larger then b else a) else if larger then a else b, 0)

/-- The two-source operations: short and long form, the short form's type, the types, whether `mod`[0] is defined, and
the result of a type, that bit and the two sources (07 R156, R163, R164, R167). -/
def twoSource : List ((LShort → Instr) × (LLong → Instr) × Nat × List Nat × Bool × (Nat → Bool → Nat → Nat → Nat × NFlags)) :=
  [(.iadd, .iaddLong, 0x06, tysInt, true, fun ty sat a b =>
      if sat then clampInt (tyW ty) (tySigned ty) (tyInt ty a + tyInt ty b) else ((a + b) % 2 ^ tyW ty, 0)),
   (.isub, .isubLong, 0x06, tysInt, true, fun ty sat a b =>
      if sat then clampInt (tyW ty) (tySigned ty) (tyInt ty a - tyInt ty b) else ((a + 2 ^ tyW ty - b) % 2 ^ tyW ty, 0)),
   (.imul, .imulLong, 0x06, tysInt, false, fun ty _ a b => (a * b % 2 ^ tyW ty, 0)),
   (.laneAnd, .laneAndLong, 0x02, tysBits, false, fun _ _ a b => (a &&& b, 0)),
   (.laneOr, .laneOrLong, 0x02, tysBits, false, fun _ _ a b => (a ||| b, 0)),
   (.laneXor, .laneXorLong, 0x02, tysBits, false, fun _ _ a b => (a ^^^ b, 0)),
   (.laneShl, .laneShlLong, 0x02, tysBits, false, fun ty _ a b => (a <<< (b % tyW ty) % 2 ^ tyW ty, 0)),
   (.laneShr, .laneShrLong, 0x02, tysBits, false, fun ty _ a b => (a >>> (b % tyW ty), 0)),
   (.laneSra, .laneSraLong, 0x06, tysSigned, false, fun ty _ a b => (((BitVec.ofNat (tyW ty) a).sshiftRight (b % tyW ty)).toNat, 0)),
   (.imin, .iminLong, 0x06, tysInt, false, fun ty _ a b => (if tyInt ty a ≤ tyInt ty b then a else b, 0)),
   (.imax, .imaxLong, 0x06, tysInt, false, fun ty _ a b => (if tyInt ty b ≤ tyInt ty a then a else b, 0)),
   (.fadd, .faddLong, 0x0E, tysFloat, false, fun ty _ => halves ty (fun f a b =>
      let r := (f.decode a).add (f.decode b); f.result r.1 r.2)),
   (.fsub, .fsubLong, 0x0E, tysFloat, false, fun ty _ => halves ty (fun f a b =>
      let r := (f.decode a).add (f.decode b).negate; f.result r.1 r.2)),
   (.fmul, .fmulLong, 0x0E, tysFloat, false, fun ty _ => halves ty (fun f a b =>
      let r := (f.decode a).mul (f.decode b); f.result r.1 r.2)),
   (.fmin, .fminLong, 0x0E, tysFloat, false, fun ty _ => halves ty (ordered false)),
   (.fmax, .fmaxLong, 0x0E, tysFloat, false, fun ty _ => halves ty (ordered true)),
   (.dadd, .daddLong, 0x0F, [0x0F], false, fun ty _ => halves ty (fun f a b =>
      let r := (f.decode a).add (f.decode b); f.result r.1 r.2)),
   (.dsub, .dsubLong, 0x0F, [0x0F], false, fun ty _ => halves ty (fun f a b =>
      let r := (f.decode a).add (f.decode b).negate; f.result r.1 r.2)),
   (.dmul, .dmulLong, 0x0F, [0x0F], false, fun ty _ => halves ty (fun f a b =>
      let r := (f.decode a).mul (f.decode b); f.result r.1 r.2))]

/-- The two-source operations of a long form alone. -/
def twoSourceLong : List ((LLong → Instr) × List Nat × Bool × (Nat → Bool → Nat → Nat → Nat × NFlags)) :=
  [(.imulh, tysInt, false, fun ty _ a b => ((BitVec.ofInt (tyW ty) (tyInt ty a * tyInt ty b / (2 ^ tyW ty : Nat))).toNat, 0)),
   (.rot, tysBits, true, fun ty right a b => ((if right then (BitVec.ofNat (tyW ty) a).rotateRight (b % tyW ty)
      else (BitVec.ofNat (tyW ty) a).rotateLeft (b % tyW ty)).toNat, 0)),
   (.dmin, [0x0F], false, fun ty _ => halves ty (ordered false)),
   (.dmax, [0x0F], false, fun ty _ => halves ty (ordered true))]

/-- The one-source operations: the long form, the types, whether `mod`[0] is defined, whether the result is 32 bits wide
whatever the type, and the result. -/
def oneSource : List ((LLong → Instr) × List Nat × Bool × Bool × (Nat → Bool → Nat → Nat × NFlags)) :=
  [(.lanePopcLong, tysBits, false, true, fun ty _ a => (((List.range (tyW ty)).filter (fun i => a.testBit i)).length, 0)),
   (.laneClzLong, tysBits, false, true, fun ty _ a => (if a = 0 then tyW ty else tyW ty - 1 - Nat.log2 a, 0)),
   (.notLong, tysBits, false, false, fun ty _ a => (2 ^ tyW ty - 1 - a, 0)),
   (.fabsLong, tysFloat, false, false, fun ty _ a => halves ty (fun f a _ => (a % 2 ^ (f.ebits + f.fbits), 0)) a 0),
   (.fnegLong, tysFloat, false, false, fun ty _ a => halves ty (fun f a _ => (a ^^^ 2 ^ (f.ebits + f.fbits), 0)) a 0),
   (.iabs, tysSigned, true, false, fun ty sat a => if sat then clampInt (tyW ty) true (tyInt ty a).natAbs
      else ((tyInt ty a).natAbs % 2 ^ tyW ty, 0)),
   (.ineg, tysSigned, true, false, fun ty sat a => if sat then clampInt (tyW ty) true (-(tyInt ty a))
      else ((2 ^ tyW ty - a) % 2 ^ tyW ty, 0)),
   (.brev, tysBits, false, false, fun ty _ a =>
      ((((List.range (tyW ty)).filter (fun i => a.testBit i)).map (fun i => 2 ^ (tyW ty - 1 - i))).sum, 0)),
   (.frcp, [0x0E], false, false, fun _ _ a => let r := (fp32.decode a).rcp; fp32.result r.1 r.2),
   (.frsq, [0x0E], false, false, fun _ _ a => let r := (fp32.decode a).rsqrt; fp32.result r.1 r.2),
   (.fsqrt, [0x0E], false, false, fun _ _ a => let r := (fp32.decode a).sqrt; fp32.result r.1 r.2),
   (.fexp2, [0x0E], false, false, fun _ _ a => let r := FVal.exp2 fp32 (fp32.decode a); fp32.result r.1 r.2),
   (.flog2, [0x0E], false, false, fun _ _ a => let r := FVal.log2 fp32 (fp32.decode a); fp32.result r.1 r.2),
   (.fsin, [0x0E], false, false, fun _ _ a => let r := FVal.sinCos fp32 false (fp32.decode a); fp32.result r.1 r.2),
   (.fcos, [0x0E], false, false, fun _ _ a => let r := FVal.sinCos fp32 true (fp32.decode a); fp32.result r.1 r.2),
   (.drcp, [0x0F], false, false, fun _ _ a => let r := (fp64.decode a).rcp; fp64.result r.1 r.2)]

/-- The long form that a short form with field b zero stands for (03 R74, 07 R155). -/
def longOfShort (f : LShort) (ty : BitVec 5) : LLong := ⟨f.gn, f.gp, f.d, f.a, 0, ty, false, 0, 0⟩

end Sys2Proof.Claim

/-- 07 R152 to R156, R163, R164, R167: the two-source arithmetic of lanes, in both forms, with each immediate, uniform and
register source; and that it changes nothing else. -/
def Sys2Proof.Claim.LaneTwoSourceResults : Prop :=
  ∀ s : State,
    (∀ e ∈ twoSource,
      (∀ f : LShort, gives (e.1 f) s f.gn f.gp 4 [(f.a.toNat, tyWide e.2.2.1), (f.b.toNat, tyWide e.2.2.1)] [] (tyWide e.2.2.1) f.d
        (fun r => e.2.2.2.2.2 e.2.2.1 false (v s (tyWide e.2.2.1) f.a.toNat r) (v s (tyWide e.2.2.1) f.b.toNat r))) ∧
      (∀ f : LLong, f.ty.toNat ∈ e.2.2.2.1 → f.mod.toNat % 8 = 0 ∨ (f.mod.toNat % 8 = 1 ∧ e.2.2.2.2.1 = true) → blegal f true →
        gives (e.2.1 f) s f.gn f.gp 8 ((f.a.toNat, tyWide f.ty.toNat) :: breg f true (tyWide f.ty.toNat)) [] (tyWide f.ty.toNat) f.d
          (fun r => e.2.2.2.2.2 f.ty.toNat (f.mod.toNat % 8 == 1) (v s (tyWide f.ty.toNat) f.a.toNat r) (bval s f true f.ty.toNat r)))) ∧
    (∀ e ∈ twoSourceLong, ∀ f : LLong, f.ty.toNat ∈ e.2.1 → f.mod.toNat % 8 = 0 ∨ (f.mod.toNat % 8 = 1 ∧ e.2.2.1 = true) → blegal f true →
      gives (e.1 f) s f.gn f.gp 8 ((f.a.toNat, tyWide f.ty.toNat) :: breg f true (tyWide f.ty.toNat)) [] (tyWide f.ty.toNat) f.d
        (fun r => e.2.2.2 f.ty.toNat (f.mod.toNat % 8 == 1) (v s (tyWide f.ty.toNat) f.a.toNat r) (bval s f true f.ty.toNat r)))

/-- 07 R156, R163, R166, R167: the one-source arithmetic of lanes, and mov, movi and their short forms. -/
def Sys2Proof.Claim.LaneOneSourceResults : Prop :=
  ∀ s : State,
    (∀ e ∈ oneSource, ∀ f : LLong, f.ty.toNat ∈ e.2.1 → f.mod.toNat = 0 ∨ (f.mod.toNat = 1 ∧ e.2.2.1 = true) → f.b = 0 → f.u = false →
      f.imm = 0 → gives (e.1 f) s f.gn f.gp 8 [(f.a.toNat, tyWide f.ty.toNat)] [] (tyWide f.ty.toNat && !e.2.2.2.1) f.d
        (fun r => e.2.2.2.2 f.ty.toNat (f.mod.toNat == 1) (v s (tyWide f.ty.toNat) f.a.toNat r))) ∧
    (∀ f : LShort, f.b = 0 →
      (∀ e ∈ [(Instr.lanePopc f, Instr.lanePopcLong (longOfShort f 2)), (.laneClz f, .laneClzLong (longOfShort f 2)),
          (.not f, .notLong (longOfShort f 2)), (.fabs f, .fabsLong (longOfShort f 14)), (.fneg f, .fnegLong (longOfShort f 14))],
        ready s f.gn f.gp [(f.d.toNat, false), (f.a.toNat, false)] [] →
        ∃ t t', exec e.1 s = .next t ∧ exec e.2 s = .next t' ∧ passed s t f.gn f.gp 4 [f.d.toNat] [] ∧ quiet s t ∧ ored s t 0 ∧
          ∀ r ∈ active s f.gn f.gp, (lane t r).getV f.d.toNat = (lane t' r).getV f.d.toNat)) ∧
    (∀ f : LLong, f.ty.toNat ∈ tysBits → f.mod.toNat % 8 = 0 → f.a = 0 → blegal f true →
      gives (.movLong f) s f.gn f.gp 8 (breg f true (tyWide f.ty.toNat)) [] (tyWide f.ty.toNat) f.d
        (fun r => (bval s f true f.ty.toNat r, 0))) ∧
    (∀ f : LShort, f.a = 0 → gives (.mov f) s f.gn f.gp 4 [(f.b.toNat, false)] [] false f.d (fun r => (v s false f.b.toNat r, 0))) ∧
    (∀ f : LLong, f.a = 0 → f.b = 0 → f.u = false →
      (f.mod.toNat = 0 → f.ty.toNat ∈ tysInt ∨ f.ty.toNat = 0x0E →
        gives (.movi f) s f.gn f.gp 8 [] [] (tyWide f.ty.toNat) f.d (fun _ =>
          (if f.ty.toNat = 0x0E then f.imm.toNat * 2 ^ 16
           else if f.ty.toNat ∈ tysSigned then (f.imm.signExtend 64).toNat else f.imm.toNat, 0))) ∧
      (f.mod.toNat = 1 → f.ty.toNat = 0x0A →
        gives (.movi f) s f.gn f.gp 8 [] [] false f.d (fun r => (v s false f.d.toNat r % 2 ^ 16 + f.imm.toNat * 2 ^ 16, 0))))

namespace Sys2Proof.Claim

/-- Issued, the comparison writes p[d] as `g` gives it for each active lane; a write to p7 is discarded (03 R57). -/
def givesP (i : Instr) (s : State) (gn : Bool) (gp : BitVec 3) (vs : List (Nat × Bool)) (ps : List Nat) (d : BitVec 7)
    (g : LaneRef → Bool × NFlags) : Prop :=
  ready s gn gp vs (d.toNat :: ps) → ∃ t, exec i s = .next t ∧ passed s t gn gp 8 [] [d.toNat] ∧ quiet s t ∧
    ored s t ((active s gn gp).foldl (fun a r => a ||| (g r).2) 0) ∧
    ∀ r ∈ active s gn gp, (lane t r).getP d.toNat = if d = 7 then true else (g r).1

/-- C, the third source (07 R156). -/
def vc (s : State) (f : LLong) (r : LaneRef) : Nat := v s (tyWide f.ty.toNat) f.c r
/-- A, the first source at the type's width. -/
def va (s : State) (f : LLong) (r : LaneRef) : Nat := v s (tyWide f.ty.toNat) f.a.toNat r

/-- The bits of `c`, of which those from `pos` on take the low bits of `a`, `len` of them (07 R158). -/
def inserted (w a c pos len : Nat) : Nat :=
  ((List.range w).map (fun i => if (if pos ≤ i ∧ i < pos + len then a.testBit (i - pos) else c.testBit i) then 2 ^ i else 0)).sum

/-- Result byte `k` of prmt (07 R158). -/
def permuted (sel ab : Nat) : Nat → Nat
  | 0 => ab / 2 ^ (8 * (sel % 8)) % 256
  | k + 1 => if sel / 2 ^ (13 + k) % 2 = 1 then (if 128 ≤ permuted sel ab k then 255 else 0)
      else ab / 2 ^ (8 * (sel / 2 ^ (3 * (k + 1)) % 8)) % 256

/-- A byte as a signed or an unsigned number. -/
def byteOf (signed : Bool) (x k : Nat) : Int := if signed then (BitVec.ofNat 8 (x / 256 ^ k)).toInt else (x / 256 ^ k % 256 : Nat)

/-- The field of width `w` at position `q` of a register, and the register with that field replaced (07 R168, R169). -/
def fieldAt (w q x : Nat) : Nat := x / 2 ^ (w * q) % 2 ^ w
def withField (w q x y : Nat) : Nat := x % 2 ^ (w * q) + y * 2 ^ (w * q) + x / 2 ^ (w * q + w) * 2 ^ (w * q + w)

/-- Whether a format code names a 64-bit format, whose operand is a pair (07 R152, R168). -/
def bits64 (code : Nat) : Bool := match fmtOf code with | some d => d.bits == 64 | none => false

/-- A trap of the pass: its gang stops, with the record of 12 R279 (03 R81). -/
def laneTrapped (s : State) (r : LaneRef) (cls : TrapClass) (addr : Word) (det : Nat) : State :=
  s.gangTrap s.turn.core (strand s r.slot).gang s.turn.part (strand s r.slot).index (lowestLane (pass s) r.slot) (passPc s) cls addr det

end Sys2Proof.Claim

/-- 07 R156, R158, R160 to R163, R167: the arithmetic of three sources, fields, bytes and addresses. -/
def Sys2Proof.Claim.LaneFieldArithmeticResults : Prop :=
  ∀ (s : State) (f : LLong),
    (f.mod = 0 → f.ext = 0 → (f.u = true → f.b.toNat < 32) →
      ∀ e ∈ ([(Instr.imad f, tysInt, fun ty a b c => ((a * b + c) % 2 ^ tyW ty, 0)),
          (.bfi f, tysBits, fun ty a b c => (inserted (tyW ty) a c (b % 256) (b / 256 % 256), 0)),
          (.ffma f, tysFloat, fun ty a b c => perElem ty (fun f x y z =>
            let r := FVal.fma (f.decode x) (f.decode y) (f.decode z); f.result r.1 r.2) a b c),
          (.dfma f, [0x0F], fun _ a b c => let r := FVal.fma (fp64.decode a) (fp64.decode b) (fp64.decode c); fp64.result r.1 r.2)] :
          List (Instr × List Nat × (Nat → Nat → Nat → Nat → Nat × NFlags))),
        f.ty.toNat ∈ e.2.1 →
        gives e.1 s f.gn f.gp 8 ((f.a.toNat, tyWide f.ty.toNat) :: (f.c, tyWide f.ty.toNat) :: breg f false (tyWide f.ty.toNat)) []
          (tyWide f.ty.toNat) f.d (fun r => e.2.2 f.ty.toNat (va s f r) (bval s f false f.ty.toNat r) (vc s f r))) ∧
    (f.mod.toNat < 2 → f.ty = 0x06 → f.ext < 4 → (f.u = true → f.b.toNat < 32) →
      gives (.dot4 f) s f.gn f.gp 8 ((f.a.toNat, false) :: (f.c, false) :: breg f false false) [] false f.d (fun r =>
        let sum : Int := (BitVec.ofNat 32 (vc s f r)).toInt + ((List.range 4).map (fun k =>
          byteOf (2 ≤ f.ext) (va s f r) k * byteOf (f.ext % 2 == 1) (bval s f false 0x06 r) k)).sum
        if f.mod = 1 then clampInt 32 true sum else ((BitVec.ofInt 32 sum).toNat, 0))) ∧
    (f.ty.toNat ∈ tysInt → f.mod = 0 → f.b = 0 → f.u = false → f.imm.toNat < 2 ^ 13 → f.imm.toNat % 64 < tyW f.ty.toNat →
      f.imm.toNat / 64 ≤ tyW f.ty.toNat →
      gives (.bfe f) s f.gn f.gp 8 [(f.a.toNat, tyWide f.ty.toNat)] [] (tyWide f.ty.toNat) f.d (fun r =>
        let x := BitVec.ofNat (min (f.imm.toNat / 64) (tyW f.ty.toNat - f.imm.toNat % 64)) (va s f r >>> (f.imm.toNat % 64))
        ((if f.ty.toNat ∈ tysSigned then (x.signExtend (tyW f.ty.toNat)).toNat else x.toNat), 0))) ∧
    (f.ty = 0x02 → f.mod = 0 → (f.u = true → f.b.toNat < 32) → f.imm.toNat / 2 ^ 12 % 2 = 0 →
      gives (.prmt f) s f.gn f.gp 8 ((f.a.toNat, false) :: breg f false false) [] false f.d (fun r =>
        (((List.range 4).map (fun k => permuted f.imm.toNat (va s f r + 2 ^ 32 * bval s f false 0x02 r) k * 256 ^ k)).sum, 0))) ∧
    (f.ty.toNat ∈ tysBits → f.mod = 0 → f.ext < 16 → f.c = 0 → (f.u = true → f.b.toNat < 32) →
      gives (.laneSel f) s f.gn f.gp 8 ((f.a.toNat, tyWide f.ty.toNat) :: breg f false (tyWide f.ty.toNat)) [f.ext % 8]
        (tyWide f.ty.toNat) f.d (fun r =>
          (if (lane s r).getP (f.ext % 8) != decide (8 ≤ f.ext) then va s f r else bval s f false f.ty.toNat r, 0))) ∧
    (f.ty.toNat ∈ tysBits → f.imm.toNat < 8 → (f.u = true → f.b.toNat < 32) →
      (f.mod = 0 → gives (.laneLea f) s f.gn f.gp 8 ((f.a.toNat, tyWide f.ty.toNat) :: breg f false (tyWide f.ty.toNat)) []
        (tyWide f.ty.toNat) f.d (fun r => ((va s f r + bval s f false f.ty.toNat r * 2 ^ f.imm.toNat) % 2 ^ tyW f.ty.toNat, 0))) ∧
      (f.mod = 1 → f.ty = 0x03 → gives (.laneLea f) s f.gn f.gp 8 ((f.a.toNat, true) :: breg f false false) [] true f.d
        (fun r => ((va s f r + ((BitVec.ofNat 32 (bval s f false 0x02 r)).signExtend 64).toNat * 2 ^ f.imm.toNat) % 2 ^ 64, 0))))

/-- 07 R160, R165, R167: the comparisons, with NaN operands and their flag. -/
def Sys2Proof.Claim.LaneCompareResults : Prop :=
  ∀ (s : State) (f : LLong), f.d.toNat < 8 → blegal f true →
    (f.ty.toNat ∈ tysInt → f.mod.toNat % 8 ≤ 5 →
      givesP (.setp f) s f.gn f.gp ((f.a.toNat, tyWide f.ty.toNat) :: breg f true (tyWide f.ty.toNat)) [] f.d (fun r =>
        let a := tyInt f.ty.toNat (va s f r)
        let b := tyInt f.ty.toNat (bval s f true f.ty.toNat r)
        (match f.mod.toNat % 8 with
          | 0 => decide (a = b) | 1 => decide (a ≠ b) | 2 => decide (a < b) | 3 => decide (a ≤ b) | 4 => decide (b < a) | _ => decide (b ≤ a),
         0))) ∧
    (∀ e ∈ [(Instr.fsetp f, 0x0E, fp32), (.dsetp f, 0x0F, fp64)], f.ty.toNat = e.2.1 →
      givesP e.1 s f.gn f.gp ((f.a.toNat, tyWide f.ty.toNat) :: breg f true (tyWide f.ty.toNat)) [] f.d (fun r =>
        let a := e.2.2.decode (va s f r)
        let b := e.2.2.decode (bval s f true f.ty.toNat r)
        if a.isNan || b.isNan then (f.mod.toNat % 8 == 1 || f.mod.toNat % 8 == 7, flNanIn)
        else (match f.mod.toNat % 8 with
          | 0 => a.eqv b | 1 => !a.eqv b | 2 => a.lt b | 3 => !b.lt a | 4 => b.lt a | 5 => !a.lt b | 6 => true | _ => false, 0)))

/-- 07 R168 to R170: cvt and cvt.mx: the converted element at its position, and FORMAT for a format they do not take. -/
def Sys2Proof.Claim.LaneConversionResults : Prop :=
  ∀ (s : State) (f : LLong) (df sf : Fmt), f.ty = 0 →
    (f.b = 0 → f.u = false → fmtOf (f.imm.toNat % 32) = some df → fmtOf (f.imm.toNat / 32 % 32) = some sf →
      df.code ≤ 0x0C → sf.code ≤ 0x0D →
      f.mod.toNat * sf.bits + sf.bits ≤ max 32 sf.bits → f.imm.toNat / 2 ^ 11 % 16 * df.bits + df.bits ≤ max 32 df.bits →
      (f.imm.toNat / 2 ^ 15 = 0 → f.imm.toNat / 2 ^ 11 % 16 = 0) → (f.imm.toNat / 2 ^ 15 = 1 → df.bits ≠ 64) →
      gives (.cvt f) s f.gn f.gp 8 [(f.a.toNat, sf.bits == 64)] [] (df.bits == 64) f.d (fun r =>
        let code := fieldAt sf.bits f.mod.toNat (v s (sf.bits == 64) f.a.toNat r)
        let x := sf.elem.decode code
        let y := if df.code = sf.code then (if x.isNan then (match df.elem with | .fp g => g.nanCode | _ => code, flNanIn) else (code, 0))
          else df.elem.encode .nearestEven (f.imm.toNat / 2 ^ 10 % 2 == 1) false x
        (if f.imm.toNat / 2 ^ 15 = 1 then withField df.bits (f.imm.toNat / 2 ^ 11 % 16) (v s false f.d.toNat r) y.1
         else if df.elem = .int 8 true ∨ df.elem = .int 4 true then ((BitVec.ofNat df.bits y.1).signExtend 32).toNat else y.1,
         y.2 ||| (if sf.code = 0x0D ∧ code = 0xFF then flScaleNan else 0)))) ∧
    (f.b = 0 → f.u = false → 0x0D ≤ f.imm.toNat % 32 ∨ 0x0E ≤ f.imm.toNat / 32 % 32 →
      (f.imm.toNat / 2 ^ 15 = 0 → f.imm.toNat / 2 ^ 11 % 16 = 0) →
      (∀ d, fmtOf (f.imm.toNat % 32) = some d → f.imm.toNat / 2 ^ 11 % 16 * d.bits + d.bits ≤ max 32 d.bits ∧
        (f.imm.toNat / 2 ^ 15 = 1 → d.bits ≠ 64)) →
      (∀ d, fmtOf (f.imm.toNat / 32 % 32) = some d → f.mod.toNat * d.bits + d.bits ≤ max 32 d.bits) →
      ready s f.gn f.gp [(f.d.toNat, bits64 (f.imm.toNat % 32)), (f.a.toNat, bits64 (f.imm.toNat / 32 % 32))] [] →
      active s f.gn f.gp ≠ [] →
      exec (.cvt f) s = .next (laneTrapped s ((active s f.gn f.gp).headD ⟨0, 0⟩) .format 0 0)) ∧
    (f.u = true → f.b.toNat < 32 → f.imm.toNat / 2 ^ 10 % 2 = 0 → fmtOf (f.imm.toNat % 32) = some df → df.block = true → df.code ≠ 0x1B →
      fmtOf (f.imm.toNat / 32 % 32) = some sf → sf.code ≤ 2 →
      f.mod.toNat * sf.bits + sf.bits ≤ 32 → f.imm.toNat / 2 ^ 11 % 16 * df.bits + df.bits ≤ 32 →
      (f.imm.toNat / 2 ^ 15 = 0 → f.imm.toNat / 2 ^ 11 % 16 = 0) → ready s f.gn f.gp [(f.d.toNat, false), (f.a.toNat, false)] [] →
      ∃ t, exec (.cvtMx f) s = .next t ∧ passed s t f.gn f.gp 8 [f.d.toNat] [] ∧
        ∀ r ∈ active s f.gn f.gp, ∀ b, b = blockEncode df.elem ((List.range 32).map (fun k =>
            if ⟨r.slot, k⟩ ∈ active s f.gn f.gp then sf.elem.decode (fieldAt sf.bits f.mod.toNat (v s false f.a.toNat ⟨r.slot, k⟩))
            else .fin false 0 0)) →
          (strand t r.slot).getS f.b.toNat = BitVec.ofNat 64 b.1 ∧
          (lane t r).getV f.d.toNat = (if f.imm.toNat / 2 ^ 15 = 1 then
            withField df.bits (f.imm.toNat / 2 ^ 11 % 16) (v s false f.d.toNat r) (b.2.1.getD r.lane 0) else b.2.1.getD r.lane 0) % 2 ^ 32)

namespace Sys2Proof.Claim

/-- The instance of the pass, and the agent its accesses are made for: its task and address space, and its level, which
is user for a firmware figure (12 R283). -/
def passJob (s : State) : Job := ((s.core s.turn.core).job (gang s)).getD default
def gangAgent (s : State) : Agent :=
  let c := s.ctx s.turn.core (passJob s).ctx
  ⟨s.turn.core, c.task, c.asid, match (passJob s).kind with | .routine _ e => if entryKind e = 3 then 0 else c.priv | _ => c.priv⟩

/-- The effective address of a direct access (07 R172). -/
def laneEa (s : State) (f : LLong) (global load : Bool) (r : LaneRef) : Nat :=
  ((((lane s r).getW global f.a.toNat : Int) + f.imm.toInt +
    (if load = true ∧ f.u = true then ((strand s r.slot).getS f.b.toNat).toNat else 0 : Nat)) % (2 ^ (if global then 64 else 32) : Nat)).toNat

/-- The effective address of a gather or scatter (03 R79). -/
def gatherAddr (s : State) (f : LLong) (r : LaneRef) : Nat :=
  let w := 8 * 2 ^ (f.ext / 128)
  let raw := (lane s r).getW (f.ext / 128 == 3) f.a.toNat
  let ix : Int := if f.ext / 64 % 2 = 1 then (BitVec.ofNat w raw).toInt else (raw % 2 ^ w : Nat)
  let land := f.ext / 4 % 2 == 1
  let base : Nat := if f.u then ((strand s r.slot).getS f.b.toNat).toNat else (lane s r).getW (!land) f.b.toNat
  ((base + ix * 2 ^ (f.ext / 8 % 8)) % (2 ^ (if land then 32 else 64) : Nat)).toNat

/-- The core and offset that a Landing address of the pass reaches (09 R215, 14 R308). -/
def laneLand (s : State) (a : Nat) : Nat × Nat :=
  (landingPlace s.turn.core ((s.core s.turn.core).redirect (gangAgent s).task true a)).getD (s.turn.core, 0x1000)

/-- The aperture rules of R172: `loc`, `clu` say which apertures the access may use. -/
abbrev inAperture (loc clu : Bool) (a n : Nat) : Prop :=
  (loc = true ∧ a < 0x800000 ∧ (a < 0x1000 → n = 8)) ∨ (clu = true ∧ 0x1000000 ≤ a ∧ a < 0x3000000 ∧ (((landingPlace 0 a).getD (0, 0x1000)).2 < 0x1000 → n = 8))

/-- A load's value extended to its registers (07 R173). -/
def loaded (ty x : Nat) : Nat :=
  if ty = 0x04 then ((BitVec.ofNat 8 x).signExtend 32).toNat else if ty = 0x05 then ((BitVec.ofNat 16 x).signExtend 32).toNat else x

/-- The strand of a lane has no access that is issued and not performed. -/
abbrev nothingOpen (s : State) (r : LaneRef) : Prop := (strand s r.slot).reds = [] ∧ (strand s r.slot).spills = []

/-- The registers of a lane are pending, and its strand awaits the result (03 R61). -/
def pending (s t : State) (r : LaneRef) (w : Bool) (d : Nat) (src : ResSrc) (val : Word) : Prop :=
  (∀ n ∈ regs w d, n ∈ (lane t r).pendV) ∧ ∃ q ∈ (strand t r.slot).results, q.lane = r.lane ∧ q.dst = d ∧ q.wide = w ∧
    q.src = src ∧ q.value = val ∧ q.pc = passPc s ∧ q.shadow = ((strand s r.slot).ev.inh && decide (120 ≤ d))

/-- The translations of a list of addresses, one after another; none where one fails. -/
def mappedAll (s : State) (g : Agent) (acc : Access) : List Nat → Option (List Nat × State)
  | [] => some ([], s)
  | a :: rest => match s.xlate g acc (BitVec.ofNat 64 a) with
    | .error _ => none
    | .ok x => (mappedAll x.s g acc rest).map (fun y => (x.pa :: y.1, y.2))

/-- The fields of a direct load and store (07 R171). -/
abbrev loadFields (f : LLong) : Prop := f.ty.toNat ∈ tysLoad ∧ f.mod = 0 ∧ (if f.u then f.b.toNat < 32 else f.b = 0)
abbrev storeFields (f : LLong) : Prop := f.ty.toNat ∈ tysStore ∧ f.mod = 0 ∧ f.d = 0 ∧ (f.u = true → f.b.toNat < 32)
/-- The fields of a gather and a scatter (07 R178). -/
abbrev gatherFields (f : LLong) : Prop := f.mod = 0 ∧ f.ext % 4 = 0 ∧ (f.u = true → f.b.toNat < 32)
def gatherNames (f : LLong) : List (Nat × Bool) := (f.a.toNat, f.ext / 128 == 3) :: breg f false (!(f.ext / 4 % 2 == 1))

/-- A Landing load that answers at once has run: the extended bytes of each active lane's address are in its registers. -/
def landLoaded (s t : State) (f : LLong) (gn : Bool) (gp : BitVec 3) (size : Nat) (ea : LaneRef → Nat) : Prop :=
  passed s t gn gp size (regs (tyWide f.ty.toNat) f.d.toNat) [] ∧ quiet s t ∧
  ∀ r ∈ active s gn gp, (lane t r).getW (tyWide f.ty.toNat) f.d.toNat =
    loaded f.ty.toNat ((s.core (laneLand s (ea r)).1).landRead (laneLand s (ea r)).2 (tySize f.ty.toNat)) % 2 ^ bits (tyWide f.ty.toNat)

/-- A Landing store has issued: each strand of the pass holds an entry whose pieces, one for each of its active lanes,
wait at their banks (11 R267), in one request for each bank, which holds the bytes of all its lanes in the pass's order (07
R174, 09 R217, R218). -/
def landStored (s t : State) (gn : Bool) (gp : BitVec 3) (size n : Nat) (ea data : LaneRef → Nat) : Prop :=
  passed s t gn gp size [] [] ∧ ∀ r ∈ active s gn gp, ∃ e, (strand t r.slot).spills = (strand s r.slot).spills ++ [e] ∧
    e.pieces = ((active s gn gp).filter (fun q => q.slot == r.slot)).map (fun q =>
      ⟨q.lane, (laneLand s (ea q)).1, (laneLand s (ea q)).2, bytesOf n (data q), false⟩) ∧
    ∃ q ∈ (t.core (laneLand s (ea r)).1).bankQ, q.bank = (laneLand s (ea r)).2 / 128 % 64 ∧ q.cls = 4 ∧ q.core = s.turn.core ∧
      q.ctx = none ∧ q.part = s.turn.part ∧ (r.slot, e.id) ∈ q.entries ∧
      q.writes = ((active s gn gp).filter (fun p => (laneLand s (ea p)).1 == (laneLand s (ea r)).1 &&
        (laneLand s (ea p)).2 / 128 % 64 == (laneLand s (ea r)).2 / 128 % 64)).map (fun p => ((laneLand s (ea p)).2, bytesOf n (data p)))

/-- Every active lane's Landing address passes the checks of R172. -/
abbrev landFit (s : State) (gn : Bool) (gp : BitVec 3) (loc clu : Bool) (n : Nat) (ea : LaneRef → Nat) : Prop :=
  ∀ r ∈ active s gn gp, inAperture loc clu (ea r) n ∧ ea r % n = 0
/-- Every active lane's global address passes those that come before translation. -/
abbrev globalFit (s : State) (gn : Bool) (gp : BitVec 3) (n : Nat) (ea : LaneRef → Nat) : Prop :=
  ∀ r ∈ active s gn gp, ea r < 2 ^ 54 ∧ ea r % n = 0

end Sys2Proof.Claim

/-- 07 R171 to R174, R178, 09 R215, 11 R267: the Landing loads and stores of lanes, direct and gathered. -/
def Sys2Proof.Claim.LaneLandingAccesses : Prop :=
  ∀ (s : State),
    (∀ f : LLong, loadFields f → ready s f.gn f.gp [(f.d.toNat, tyWide f.ty.toNat), (f.a.toNat, false)] [] →
      (∀ r ∈ active s f.gn f.gp, nothingOpen s r) →
      (landFit s f.gn f.gp true false (tySize f.ty.toNat) (laneEa s f false true) →
        (∀ r ∈ active s f.gn f.gp, (s.core (laneLand s (laneEa s f false true r)).1).landBad (laneLand s (laneEa s f false true r)).2
          (tySize f.ty.toNat) = false) →
        ∃ t, exec (.laneLdLLong f) s = .next t ∧ landLoaded s t f f.gn f.gp 8 (laneEa s f false true)) ∧
      (landFit s f.gn f.gp false true (tySize f.ty.toNat) (laneEa s f false true) →
        ∃ t, exec (.ldC f) s = .next t ∧ passed s t f.gn f.gp 8 [] [] ∧ ∀ r ∈ active s f.gn f.gp,
          pending s t r (tyWide f.ty.toNat) f.d.toNat .value (BitVec.ofNat 64 (loaded f.ty.toNat
            ((s.core (laneLand s (laneEa s f false true r)).1).landRead (laneLand s (laneEa s f false true r)).2 (tySize f.ty.toNat)))))) ∧
    (∀ f : LShort, f.b = 0 → ready s f.gn f.gp [(f.d.toNat, false), (f.a.toNat, false)] [] → (∀ r ∈ active s f.gn f.gp, nothingOpen s r) →
      landFit s f.gn f.gp true false 4 (fun r => (lane s r).getV f.a.toNat) →
      (∀ r ∈ active s f.gn f.gp, (s.core (laneLand s ((lane s r).getV f.a.toNat)).1).landBad (laneLand s ((lane s r).getV f.a.toNat)).2 4 = false) →
      ∃ t, exec (.laneLdL f) s = .next t ∧ landLoaded s t (longOfShort f 2) f.gn f.gp 4 (fun r => (lane s r).getV f.a.toNat)) ∧
    (∀ f : LLong, storeFields f → ready s f.gn f.gp ((f.a.toNat, false) :: breg f false (tyWide f.ty.toNat)) [] →
      (∀ r ∈ active s f.gn f.gp, (strand s r.slot).reds = [] ∧ (strand s r.slot).spills.length < 16) →
      landFit s f.gn f.gp true true (tySize f.ty.toNat) (laneEa s f false false) →
      ∃ t, exec (.laneStLLong f) s = .next t ∧
        landStored s t f.gn f.gp 8 (tySize f.ty.toNat) (laneEa s f false false) (bval s f false f.ty.toNat)) ∧
    (∀ f : LShort, f.d = 0 → ready s f.gn f.gp [(f.a.toNat, false), (f.b.toNat, false)] [] →
      (∀ r ∈ active s f.gn f.gp, (strand s r.slot).reds = [] ∧ (strand s r.slot).spills.length < 16) →
      landFit s f.gn f.gp true true 4 (fun r => (lane s r).getV f.a.toNat) →
      ∃ t, exec (.laneStL f) s = .next t ∧
        landStored s t f.gn f.gp 4 4 (fun r => (lane s r).getV f.a.toNat) (fun r => (lane s r).getV f.b.toNat)) ∧
    (∀ f : LLong, gatherFields f → f.ext / 4 % 2 = 1 →
      (f.ty.toNat ∈ tysLoad → f.c = 0 → ready s f.gn f.gp ((f.d.toNat, tyWide f.ty.toNat) :: gatherNames f) [] →
        (∀ r ∈ active s f.gn f.gp, nothingOpen s r) → landFit s f.gn f.gp true true (tySize f.ty.toNat) (gatherAddr s f) →
        ∃ t, exec (.ldx f) s = .next t ∧ passed s t f.gn f.gp 8 [] [] ∧ ∀ r ∈ active s f.gn f.gp,
          pending s t r (tyWide f.ty.toNat) f.d.toNat .value (BitVec.ofNat 64 (loaded f.ty.toNat
            ((s.core (laneLand s (gatherAddr s f r)).1).landRead (laneLand s (gatherAddr s f r)).2 (tySize f.ty.toNat))))) ∧
      (f.ty.toNat ∈ tysStore → f.d = 0 → ready s f.gn f.gp ((f.c, tyWide f.ty.toNat) :: gatherNames f) [] →
        (∀ r ∈ active s f.gn f.gp, (strand s r.slot).reds = [] ∧ (strand s r.slot).spills.length < 16) →
        landFit s f.gn f.gp true true (tySize f.ty.toNat) (gatherAddr s f) →
        ∃ t, exec (.stx f) s = .next t ∧ landStored s t f.gn f.gp 8 (tySize f.ty.toNat) (gatherAddr s f) (vc s f)))

/-- 07 R171 to R174, R178, 11 R257: the global loads and stores of lanes, direct and gathered: loads answer with the core's
view, stores enter the core's write set, the highest lane's newest. -/
def Sys2Proof.Claim.LaneGlobalAccesses : Prop :=
  ∀ (s s1 : State) (pas : List Nat), (∀ sl, (strand s sl).reds = []) →
    (∀ e ∈ ([(.laneLdG, false), (.ldx, true)] : List ((LLong → Instr) × Bool)), ∀ (f : LLong) (ea : LaneRef → Nat),
      ea = (if e.2 then gatherAddr s f else laneEa s f true true) →
      (if e.2 then gatherFields f ∧ f.ext / 4 % 2 = 0 ∧ f.c = 0 ∧ f.ty.toNat ∈ tysLoad else loadFields f) →
      ready s f.gn f.gp ((f.d.toNat, tyWide f.ty.toNat) :: (if e.2 then gatherNames f else [(f.a.toNat, true)])) [] →
      globalFit s f.gn f.gp (tySize f.ty.toNat) ea →
      mappedAll s (gangAgent s) .read ((active s f.gn f.gp).map ea) = some (pas, s1) →
      ∃ t, exec (e.1 f) s = .next t ∧ stepped s t f.gn f.gp 8 [] [] ∧ sameMemory s1 t ∧
        ∀ z ∈ (active s f.gn f.gp).zip pas, pending s t z.1 (tyWide f.ty.toNat) f.d.toNat .value
          (BitVec.ofNat 64 (loaded f.ty.toNat ((s1.core s.turn.core).viewRead z.2 (tySize f.ty.toNat))))) ∧
    (∀ e ∈ ([(.laneStG, false), (.stx, true)] : List ((LLong → Instr) × Bool)), ∀ (f : LLong) (ea data : LaneRef → Nat),
      ea = (if e.2 then gatherAddr s f else laneEa s f true false) → data = (if e.2 then vc s f else bval s f false f.ty.toNat) →
      (if e.2 then gatherFields f ∧ f.ext / 4 % 2 = 0 ∧ f.d = 0 ∧ f.ty.toNat ∈ tysStore else storeFields f) →
      ready s f.gn f.gp (if e.2 then (f.c, tyWide f.ty.toNat) :: gatherNames f else (f.a.toNat, true) :: breg f false (tyWide f.ty.toNat)) [] →
      globalFit s f.gn f.gp (tySize f.ty.toNat) ea →
      mappedAll s (gangAgent s) .write ((active s f.gn f.gp).map ea) = some (pas, s1) →
      ∃ t, exec (e.1 f) s = .next t ∧ stepped s t f.gn f.gp 8 [] [] ∧ sameMemory s1 t ∧
        (t.core s.turn.core).writes = ((active s f.gn f.gp).zip pas).foldl (fun ws z =>
          storeEntries (.strand s.turn.part z.1.slot, z.1.lane) z.2 (bytesOf (tySize f.ty.toNat) (data z.1)) false ++ ws) (s1.core s.turn.core).writes)

/-- 07 R172, R178: a lane whose Landing or global address fails a check raises its trap for the whole pass, and no lane
of the pass reads or writes; range comes before alignment. -/
def Sys2Proof.Claim.LaneAccessTraps : Prop :=
  ∀ (s : State) (f : LLong) (r : LaneRef) (l l' : List LaneRef), active s f.gn f.gp = l ++ r :: l' →
    (∀ e ∈ [(Instr.laneLdLLong f, true, false, true), (.ldC f, false, true, true), (.laneStLLong f, true, true, false)],
      (if e.2.2.2 then loadFields f ∧ ready s f.gn f.gp [(f.d.toNat, tyWide f.ty.toNat), (f.a.toNat, false)] []
        else storeFields f ∧ ready s f.gn f.gp ((f.a.toNat, false) :: breg f false (tyWide f.ty.toNat)) []) →
      ((∀ q ∈ l, inAperture e.2.1 e.2.2.1 (laneEa s f false e.2.2.2 q) (tySize f.ty.toNat)) →
        ¬ inAperture e.2.1 e.2.2.1 (laneEa s f false e.2.2.2 r) (tySize f.ty.toNat) →
        exec e.1 s = .next (laneTrapped s r .landingRange (BitVec.ofNat 64 (laneEa s f false e.2.2.2 r))
          ((if e.2.2.2 then 0 else 1) * 2 ^ 11 + Nat.log2 (tySize f.ty.toNat)))) ∧
      ((∀ q ∈ active s f.gn f.gp, inAperture e.2.1 e.2.2.1 (laneEa s f false e.2.2.2 q) (tySize f.ty.toNat)) →
        (∀ q ∈ l, laneEa s f false e.2.2.2 q % tySize f.ty.toNat = 0) → laneEa s f false e.2.2.2 r % tySize f.ty.toNat ≠ 0 →
        exec e.1 s = .next (laneTrapped s r .align (BitVec.ofNat 64 (laneEa s f false e.2.2.2 r))
          ((if e.2.2.2 then 0 else 1) * 2 ^ 11 + Nat.log2 (tySize f.ty.toNat))))) ∧
    (∀ e ∈ [(Instr.laneLdG f, true), (.laneStG f, false)],
      (if e.2 then loadFields f ∧ ready s f.gn f.gp [(f.d.toNat, tyWide f.ty.toNat), (f.a.toNat, true)] []
        else storeFields f ∧ ready s f.gn f.gp ((f.a.toNat, true) :: breg f false (tyWide f.ty.toNat)) []) →
      (∀ q ∈ l, laneEa s f true e.2 q < 2 ^ 54) → 2 ^ 54 ≤ laneEa s f true e.2 r →
      exec e.1 s = .next (laneTrapped s r .page (BitVec.ofNat 64 (laneEa s f true e.2 r)) (3 * 2 ^ 13 + (if e.2 then 0 else 1) * 2 ^ 11)))

/-- 07 R176, R177: ldt answers with, and stt writes, the element that its row and column name; a row or column outside the
operand raises TILE_STATE. -/
def Sys2Proof.Claim.LaneTileElements : Prop :=
  ∀ (s : State) (f : LLong) (row col : LaneRef → Nat) (tile : Nat), f.mod = 0 → f.imm.toNat < 8 → (f.u = true → f.b.toNat < 32) →
    (row = fun r => (lane s r).getV f.a.toNat) → (col = fun r => bval s f false 0x02 r) →
    ready s f.gn f.gp ((f.d.toNat, tyWide f.ty.toNat) :: (f.a.toNat, false) :: breg f false false) [] → active s f.gn f.gp ≠ [] →
    (∀ q ∈ (s.core s.turn.core).jobs, q.parent ≠ some (passJob s).id) →
    (∀ view, (passJob s).ops.getD (f.imm.toNat % 4) .none = .tile tile → view = s.view s.turn.core (passJob s) s.turn.part (f.imm.toNat % 4) →
      (∀ r ∈ active s f.gn f.gp, row r < view.tile.rows ∧ col r < view.tile.cols) →
      (elemTyOk (passJob s) s.turn.part (f.imm.toNat % 4) f.ty.toNat (f.imm.toNat / 4 == 1) true = true →
        f.ty.toNat ∈ [0, 1, 2, 3, 4, 5, 8, 9] →
        ∃ t, exec (.ldt f) s = .next t ∧ passed s t f.gn f.gp 8 [] [] ∧ (t.part s.turn.core s.turn.part).obuf = (s.part s.turn.core s.turn.part).obuf ∧
          ∀ r ∈ active s f.gn f.gp, pending s t r (tyWide f.ty.toNat) f.d.toNat .value (BitVec.ofNat 64
            (if 4 ≤ f.imm.toNat then view.scale (row r) (col r)
             else if f.ty.toNat = 4 ∨ f.ty.toNat = 5 then ofSigned 32 (toSigned view.tile.fmt.bits (view.code (row r) (col r)))
             else view.code (row r) (col r)))) ∧
      (elemTyOk (passJob s) s.turn.part (f.imm.toNat % 4) f.ty.toNat (f.imm.toNat / 4 == 1) false = true →
        f.ty.toNat ∈ tysStore → natField (entryRole (passJob s).entry (f.imm.toNat % 4)) 5 4 ≠ 0 →
        ∃ t, exec (.stt f) s = .next t ∧ passed s t f.gn f.gp 8 [] [] ∧ quiet s t ∧
          (f.imm.toNat < 4 → ∀ r, active s f.gn f.gp = [r] → (t.part s.turn.core s.turn.part).obuf =
            (view.setCode (row r) (col r) (v s (tyWide f.ty.toNat) f.d.toNat r % 2 ^ view.tile.fmt.bits)).mem))) ∧
    (∀ rows cols e, e ∈ [(Instr.ldt f, [0, 1, 2, 3, 4, 5, 8, 9], true), (.stt f, tysStore, false)] → f.ty.toNat ∈ e.2.1 →
      (e.2.2 = true ∨ natField (entryRole (passJob s).entry (f.imm.toNat % 4)) 5 4 ≠ 0) →
      posLimits (passJob s) s.turn.part (f.imm.toNat % 4) = some (rows, cols) →
      ∀ r l l', active s f.gn f.gp = l ++ r :: l' → (∀ q ∈ l, row q < rows ∧ col q < cols) → rows ≤ row r ∨ cols ≤ col r →
      exec e.1 s = .next (laneTrapped s r .tileState 0 0))

/-- 08 R192 to R194: an atomic answers each active lane with an old value, a red joins the accesses not yet performed; of one
lane, the answer is the value that stood there, and the location takes the operation's new value. -/
def Sys2Proof.Claim.LaneAtomics : Prop :=
  ∀ (s s1 : State) (f : LLong) (pas : List Nat), (∀ sl, (strand s sl).reds = [] ∧ (strand s sl).spills = []) →
    ∀ e ∈ [(Instr.atom f, 0), (.atomCas f, 1), (.red f, 2)], ∀ (land : Bool) (ea : LaneRef → Nat) (new : LaneRef → Nat → Nat × NFlags),
      (if e.2 = 1 then f.ty.toNat ∈ tysBits ∧ f.mod = 0 ∧ f.u = false ∧ land = decide (256 ≤ f.ext)
        else atomTyOk f.mod.toNat f.ty.toNat = true ∧ (f.u = true → f.b.toNat < 32) ∧ land = decide (2 ^ 15 ≤ f.imm.toNat) ∧ (e.2 = 2 → f.d = 0)) →
      (ea = fun r => ((((lane s r).getW (!land) f.a.toNat : Int) + (if e.2 = 1 then (BitVec.ofNat 8 f.ext).toInt * tySize f.ty.toNat
        else (BitVec.ofNat 15 f.imm.toNat).toInt)) % (2 ^ (if land then 32 else 64) : Nat)).toNat) →
      (new = fun r old => if e.2 = 1 then (if old = v s (tyWide f.ty.toNat) f.b.toNat r then vc s f r else old, 0)
        else atomVal f.mod.toNat f.ty.toNat old (bval s f false f.ty.toNat r)) →
      ready s f.gn f.gp ((if e.2 = 2 then [] else [(f.d.toNat, tyWide f.ty.toNat)]) ++ (f.a.toNat, !land) ::
        (if e.2 = 1 then [(f.b.toNat, tyWide f.ty.toNat), (f.c, tyWide f.ty.toNat)] else breg f false (tyWide f.ty.toNat))) [] →
      (if land then landFit s f.gn f.gp true true (tySize f.ty.toNat) ea ∧ s1 = s ∧
          (∀ r ∈ active s f.gn f.gp, (s.core (laneLand s (ea r)).1).landBad (laneLand s (ea r)).2 (tySize f.ty.toNat) = false)
        else globalFit s f.gn f.gp (tySize f.ty.toNat) ea ∧
          mappedAll s (gangAgent s) .atomic ((active s f.gn f.gp).map ea) = some (pas, s1)) →
      ∃ t, exec e.1 s = .next t ∧ stepped s t f.gn f.gp 8 [] [] ∧
        (e.2 = 2 → sameMemory s1 t ∧ ∀ r ∈ active s f.gn f.gp, ∃ q ∈ (strand t r.slot).reds, q.lane = r.lane ∧ q.op = f.mod.toNat ∧
          q.ty = f.ty.toNat ∧ q.space = bit land ∧ q.a = BitVec.ofNat 64 (bval s f false f.ty.toNat r)) ∧
        (e.2 ≠ 2 → ∀ r ∈ active s f.gn f.gp, ∃ old, pending s t r (tyWide f.ty.toNat) f.d.toNat .value old) ∧
        (e.2 ≠ 2 → ∀ r, active s f.gn f.gp = [r] →
          (land = true → ∀ m off old, (m, off) = laneLand s (ea r) → old = (s.core m).landRead off (tySize f.ty.toNat) →
            pending s t r (tyWide f.ty.toNat) f.d.toNat .value (BitVec.ofNat 64 old) ∧
            (t.core m).landRead off (tySize f.ty.toNat) = (new r old).1 % 2 ^ (8 * tySize f.ty.toNat)) ∧
          (land = false → ∀ pa old, pas = [pa] → s1.lineBad pa = false → (∀ i < tySize f.ty.toNat, s1.writeDropped (pa + i) = false) →
            (∀ x, s.xlate (gangAgent s) .atomic (BitVec.ofNat 64 (ea r)) = .ok x → x.poisoned = false) →
            old = (s1.arriveRange s.turn.core (.strand s.turn.part r.slot, r.lane) pa (tySize f.ty.toNat)).mem.read pa (tySize f.ty.toNat) →
            pending s t r (tyWide f.ty.toNat) f.d.toNat .value (BitVec.ofNat 64 old) ∧
            t.mem.read pa (tySize f.ty.toNat) = (new r old).1 % 2 ^ (8 * tySize f.ty.toNat)))

namespace Sys2Proof.Claim

/-- Every field but `imm` is zero. -/
abbrev noF (f : LLong) : Prop := f.ty = 0 ∧ f.d = 0 ∧ f.a = 0 ∧ f.b = 0 ∧ f.u = false ∧ f.mod = 0

/-- The lowest active lane (03 R62, 08 R180), and the pair from v[n] as an address. -/
def firstOn (s : State) (gn : Bool) (gp : BitVec 3) : LaneRef := (active s gn gp).headD ⟨0, 0⟩
def pairOf (s : State) (n : Nat) (r : LaneRef) : Word := BitVec.ofNat 64 (v s true n r)

/-- A branch target: a base plus a signed count of words (08 R182). -/
def target (base : Word) (f : LLong) : Word := base + f.imm.signExtend 64 * 4

/-- The lanes of a list as a mask. -/
def maskOf (rs : List LaneRef) : Nat := (rs.map (fun r => 2 ^ r.lane)).sum

/-- The lane that a shuffle reads; none outside the segment (08 R189). -/
def shuffled (mode w l : Nat) (n : Int) : Option Nat :=
  let base := l - l % w
  match mode with
  | 0 => some (base + (n % w).toNat)
  | 1 => some (base + (l - base + (n % w).toNat) % w)
  | 2 => if (base : Int) ≤ l + n ∧ (l : Int) + n < base + w then some (l + n).toNat else none
  | _ => some (l ^^^ (n % w).toNat)

/-- A slot of a strand, by its number. -/
def slotOf (st : Strand) (j : Nat) : EvSlot := Tab.get st.ev.slots EvSlot.disarmed j

/-- A barrier of the pass's gang. -/
def barrierOf (s : State) (n : Nat) : Barrier := (s.part s.turn.core s.turn.part).barrier (gang s) n

/-- A queue of the core that is bound to a ring whose slots hold `n` bytes. -/
def bound (s : State) (q n : Nat) : Prop := ∃ ring, ((s.core s.turn.core).queue q).ring = some ring ∧ n ≤ ((s.core s.turn.core).ring ring).slotsz
/-- The fields of qpush and qpop: the blocking form, and the form with a predicate (08 R195). -/
abbrev queueFields (f : LLong) : Prop := f.ty.toNat ∈ tysBits ∧ f.imm.toNat < 256 ∧ f.a = 0 ∧ f.mod = 0

/-- A request of a lane to a peer is outstanding, under a number of its core (19 R381). -/
def requested (s t : State) (r : LaneRef) (id want ptype dst : Nat) (addr value : Word) : Prop :=
  ∃ q ∈ (t.core s.turn.core).requests, q.id = id ∧ q.who = .strand s.turn.part r.slot ∧ q.lane = r.lane ∧ q.want = want ∧
    q.pkt.ptype = ptype ∧ q.pkt.dst = dst ∧ q.pkt.addr = addr ∧ q.pkt.value = value
/-- The peer may be reached (08 R203). -/
abbrev peerOn (s : State) (n : Nat) : Prop := s.peerOk (gangAgent s).asid n = true

/-- Where a store is acknowledged by the host or an expander (11 R261). -/
def isFar (p : Phys) : Prop := p = .tierC ∨ ∃ n, p = .host n

/-- The value of a register for a lane, of those whose value the state gives at once and whose read changes nothing (08
R211, 19 R379). -/
def laneReg (s : State) (r : LaneRef) (n : Nat) : Option Word :=
  let c := s.ctx s.turn.core (passJob s).ctx
  let ev := (strand s r.slot).ev
  if n = 0x000 then some (c.numflags.zeroExtend 64)
  else if n = 0x002 then some (BitVec.ofNat 64 (ctxId s.turn.core (passJob s).ctx))
  else if n = 0x018 then some (ev.pend.zeroExtend 64)
  else if n = 0x019 then some (ev.mask.zeroExtend 64)
  else if n = 0x01A then some ev.pc
  else if n = 0x01B then some (BitVec.ofNat 64 (bit ev.inh * 16 + ev.slot))
  else if n = 0x01C then some 0
  else if n = 0x020 then some (BitVec.ofNat 64 s.cycle)
  else if n = 0x030 then some (BitVec.ofNat 64 s.fabric.peer)
  else if 0x40 ≤ n ∧ n ≤ 0x43 then some (BitVec.ofNat 64 (s.part s.turn.core (n - 0x40)).hangLimit)
  else if 0x80 ≤ n ∧ n ≤ 0x8F then some (Tab.get (s.core s.turn.core).mbox 0 (n - 0x80))
  else if n = 0x100 then some (BitVec.ofNat 64 r.lane)
  else if n = 0x101 then some (BitVec.ofNat 64 (strand s r.slot).index)
  else if n = 0x102 then some (BitVec.ofNat 64 ((s.part s.turn.core s.turn.part).strands.filter (fun e => e.2.gang == gang s)).length)
  else if n = 0x103 then some (BitVec.ofNat 64 s.turn.part)
  else if n = 0x210 then some (BitVec.ofNat 64 c.asid)
  else if n = 0x226 then some (BitVec.ofNat 64 s.fabric.cwdim)
  else none

/-- A gang has taken a trap: its strands stop, and the context whose figure started it stops with a record of the gang's
partition, whose status ends in the detail (12 R279, 16 R343). -/
def gangStopped (s t : State) (cls : TrapClass) (det : Nat) : Prop :=
  (∀ sl, (strand t sl).gang = gang s → (Tab.find (t.part s.turn.core s.turn.part).strands sl).isSome = true → (strand t sl).stopped = true) ∧
  (t.ctx s.turn.core (passJob s).ctx).stopped = true ∧
  ∃ rec, (t.ctx s.turn.core (passJob s).ctx).recs = (s.ctx s.turn.core (passJob s).ctx).recs ++ [rec] ∧ rec.cls = cls ∧
    rec.engine = 4 ∧ rec.eidx = s.turn.part ∧ rec.pc = (passJob s).pc ∧ rec.inst = some (passJob s).id ∧
    rec.status.toNat % 2 ^ 17 = det % 2 ^ 17

end Sys2Proof.Claim

/-- 08 R181 to R185: exit, nop, yield, the branches, call, ret and join. -/
def Sys2Proof.Claim.LaneControlFlow : Prop :=
  ∀ (s : State),
    (∀ e ∈ ([(.exit, .exitLong, 0), (.laneNop, .laneNopLong, 1), (.yield, .yieldLong, 2)] : List ((LShort → Instr) × (LLong → Instr) × Nat)),
      ∀ (i : Instr) (gn : Bool) (gp : BitVec 3) (size : Nat),
        ((∃ f : LShort, i = e.1 f ∧ f.d = 0 ∧ f.a = 0 ∧ f.b = 0 ∧ gn = f.gn ∧ gp = f.gp ∧ size = 4) ∨
          (∃ f : LLong, i = e.2.1 f ∧ noF f ∧ f.imm = 0 ∧ gn = f.gn ∧ gp = f.gp ∧ size = 8)) →
        ready s gn gp [] [] → solo s →
        ∃ t, exec i s = .next t ∧ (∀ r ∈ pass s, (lane t r).pc = passPc s + BitVec.ofNat 64 size) ∧
          (e.2.2 = 0 → ∀ r, (lane t r).exited = if r ∈ active s gn gp then true else (lane s r).exited) ∧
          (e.2.2 = 1 → passed s t gn gp size [] [] ∧ quiet s t) ∧
          (e.2.2 = 2 → passed s t gn gp size [] [] ∧ (active s gn gp ≠ [] →
            (strand t (lead s).slot).active = false ∧ (strand t (lead s).slot).entered = s.cycle))) ∧
    (∀ f : LLong, noF f → ready s f.gn f.gp [] [] →
      ∃ t, exec (.bra f) s = .next t ∧ left s t f.gn f.gp 8 (fun _ => target (passPc s) f) [] [] ∧ sameElse s t ∧ quiet s t) ∧
    (∀ f : LLong, f.ty = 0 → f.mod = 0 → f.d = 0 → (if f.u then f.a = 0 ∧ f.b.toNat < 32 else f.b = 0) →
      ready s f.gn f.gp (if f.u then [] else [(f.a.toNat, true)]) [] →
      ∃ t, exec (.brx f) s = .next t ∧ left s t f.gn f.gp 8 (fun r =>
        target (if f.u then (strand s r.slot).getS f.b.toNat else pairOf s f.a.toNat r) f) [] [] ∧ sameElse s t ∧ quiet s t) ∧
    (∀ f : LLong, f.ty = 0 → f.mod.toNat < 2 → f.b = 0 → f.u = false → (f.mod = 0 → f.a = 0) →
      ready s f.gn f.gp ((f.d.toNat, true) :: (if f.mod = 1 then [(f.a.toNat, true)] else [])) [] →
      ∃ t, exec (.laneCall f) s = .next t ∧ left s t f.gn f.gp 8 (fun r =>
        target (if f.mod = 1 then pairOf s f.a.toNat r else passPc s) f) (regs true f.d.toNat) [] ∧ sameElse s t ∧ quiet s t ∧
        ∀ r ∈ active s f.gn f.gp, pairOf t f.d.toNat r = passPc s + 8) ∧
    (∀ f : LLong, f.ty = 0 → f.mod = 0 → f.d = 0 → f.b = 0 → f.u = false → f.imm = 0 → ready s f.gn f.gp [(f.a.toNat, true)] [] →
      ∃ t, exec (.laneRet f) s = .next t ∧ left s t f.gn f.gp 8 (pairOf s f.a.toNat) [] [] ∧ sameElse s t ∧ quiet s t) ∧
    (∀ f : LLong, f.ty = 0 → f.d.toNat < 8 → f.u = true → f.b.toNat < 32 → f.a = 0 → f.mod.toNat < 4 → solo s →
      ready s f.gn f.gp [] [f.d.toNat] → active s f.gn f.gp ≠ [] →
      ∃ t, exec (.join f) s = .next t ∧ passed s t f.gn f.gp 8 [] [] ∧ (∀ r ∈ active s f.gn f.gp, (lane t r).wait = .join (passPc s)) ∧
        ((∀ j ∈ (strand s (lead s).slot).joins, j.addr ≠ passPc s) → (strand t (lead s).slot).joins = (strand s (lead s).slot).joins ++
          [⟨passPc s, ((strand s (lead s).slot).getS f.b.toNat).setWidth 32 ||| BitVec.ofNat 32 (maskOf (active s f.gn f.gp)),
            some (s.cycle + f.imm.toNat * 16 ^ f.mod.toNat), (active s f.gn f.gp).map (fun r => r.lane), f.d.toNat⟩]) ∧
        ((∃ j ∈ (strand s (lead s).slot).joins, j.addr = passPc s) → (strand t (lead s).slot).joins = (strand s (lead s).slot).joins.map
          (fun j => if j.addr = passPc s then { j with waiting := j.waiting ++ (active s f.gn f.gp).map (fun r => r.lane) } else j)))

/-- 08 R186, R187: gbar lets its lanes go on when the last strand of the gang has arrived, and else they wait; barv and barw
count the arrivals of a generation, and the last completes it; a count that no generation may have raises ILLEGAL_OP. -/
def Sys2Proof.Claim.LaneBarriers : Prop :=
  ∀ (s : State) (f : LLong), noF f → solo s → ready s f.gn f.gp [] [] → active s f.gn f.gp ≠ [] →
    (f.imm = 0 → (∀ r ∈ active s f.gn f.gp, (lane s r).exited = false) → (strand s (lead s).slot).finished = false →
      ((∀ r ∈ pass s, r ∈ active s f.gn f.gp ∨ (lane s r).exited = true ∨ (lane s r).atGbar = true) → (∀ e ∈ (s.part s.turn.core s.turn.part).strands, e.2.gang = gang s → e.2.finished = false → ∀ l ∈ e.2.lanes,
          l.2.exited = true ∨ l.2.atGbar = true ∨ ⟨e.1, l.1⟩ ∈ active s f.gn f.gp) →
        ∃ t, exec (.gbar f) s = .next t ∧ stepped s t f.gn f.gp 8 [] [] ∧ (∀ r ∈ active s f.gn f.gp, (lane t r).wait = .none) ∧
          (barrierOf t 0).count = (barrierOf s 0).count + 1) ∧
      ((∃ sl st l ln, Tab.find (s.part s.turn.core s.turn.part).strands sl = some st ∧ st.gang = gang s ∧ st.finished = false ∧
          Tab.find st.lanes l = some ln ∧ ln.exited = false ∧ ln.atGbar = false ∧ ⟨sl, l⟩ ∉ active s f.gn f.gp) →
        ∃ t, exec (.gbar f) s = .next t ∧ passed s t f.gn f.gp 8 [] [] ∧ (∀ r ∈ active s f.gn f.gp, (lane t r).wait = .gbar 0) ∧
          barrierOf t 0 = barrierOf s 0)) ∧
    (∀ n k, n = f.imm.toNat / 2 ^ 12 → k = f.imm.toNat % 2 ^ 10 → f.imm.toNat / 2 ^ 10 % 4 = 0 → n ≠ 0 → k ≠ 0 →
      (k ≤ 32 * ((s.part s.turn.core s.turn.part).strands.filter (fun e => e.2.gang == gang s)).length →
        (barrierOf s n).arrived = 0 ∨ (barrierOf s n).expect = k →
        ((barrierOf s n).arrived + (active s f.gn f.gp).length < k →
          (∃ t, exec (.barv f) s = .next t ∧ passed s t f.gn f.gp 8 [] [] ∧ quiet s t ∧
            barrierOf t n = ⟨(barrierOf s n).arrived + (active s f.gn f.gp).length, k, (barrierOf s n).count⟩) ∧
          (∃ t, exec (.barw f) s = .next t ∧ passed s t f.gn f.gp 8 [] [] ∧
            (∀ r ∈ active s f.gn f.gp, (lane t r).wait = .barw n (barrierOf s n).count) ∧
            barrierOf t n = ⟨(barrierOf s n).arrived + (active s f.gn f.gp).length, k, (barrierOf s n).count⟩)) ∧
        ((barrierOf s n).arrived + (active s f.gn f.gp).length = k →
          (∃ t, exec (.barv f) s = .next t ∧ stepped s t f.gn f.gp 8 [] [] ∧ barrierOf t n = ⟨0, 0, (barrierOf s n).count + 1⟩) ∧
          (∃ t, exec (.barw f) s = .next t ∧ stepped s t f.gn f.gp 8 [] [] ∧ (∀ r ∈ active s f.gn f.gp, (lane t r).wait = .none) ∧
            barrierOf t n = ⟨0, 0, (barrierOf s n).count + 1⟩))) ∧
      (32 * ((s.part s.turn.core s.turn.part).strands.filter (fun e => e.2.gang == gang s)).length < k ∨
          ((barrierOf s n).arrived ≠ 0 ∧ (barrierOf s n).expect ≠ k) →
        ∀ i ∈ [Instr.barv f, .barw f], exec i s = .next (laneTrapped s (firstOn s f.gn f.gp) .illegalOp 0 0)))

/-- 08 R188 to R190: vote, shfl and match over the active lanes of one strand. -/
def Sys2Proof.Claim.LaneExchangeResults : Prop :=
  ∀ (s : State) (f : LLong), solo s →
    (f.ty = 0 → f.b = 0 → f.u = false → f.a.toNat < 8 → f.mod.toNat < 8 →
      ∀ m : List LaneRef, m = (active s f.gn f.gp).filter (fun r => (lane s r).getP f.a.toNat != decide (4 ≤ f.mod.toNat)) →
      (f.mod.toNat % 4 ≠ 3 → f.imm = 0 → ready s f.gn f.gp [(f.d.toNat, false)] [f.a.toNat] →
        gives (.vote f) s f.gn f.gp 8 [] [f.a.toNat] false f.d (fun r =>
          (if f.mod.toNat % 4 = 0 then maskOf m else if f.mod.toNat % 4 = 1 then m.length
            else (m.filter (fun q => decide (q.lane < r.lane))).length, 0))) ∧
      (f.mod.toNat % 4 = 3 → f.imm.toNat < 4 → f.d.toNat < 8 →
        givesP (.vote f) s f.gn f.gp [] [f.a.toNat] f.d (fun _ =>
          (match f.imm.toNat with
            | 0 => maskOf m == maskOf (active s f.gn f.gp) | 1 => maskOf m != 0
            | 2 => maskOf m == 0 || maskOf m == maskOf (active s f.gn f.gp) | _ => m.length % 2 == 1, 0)))) ∧
    (f.ty.toNat ∈ tysBits → f.mod.toNat / 4 % 2 = 0 → f.imm.toNat < 2 ^ 15 → f.imm.toNat / 2 ^ 5 % 8 = 0 → f.imm.toNat / 2 ^ 12 ≤ 5 →
      (f.imm.toNat / 2 ^ 11 % 2 = 0 → f.imm.toNat / 2 ^ 8 % 8 = 0) →
      (if 8 ≤ f.mod.toNat then f.b = 0 ∧ f.u = false else f.imm.toNat % 32 = 0 ∧ (f.u = true → f.b.toNat < 32)) →
      ready s f.gn f.gp ((f.d.toNat, tyWide f.ty.toNat) :: (f.a.toNat, tyWide f.ty.toNat) ::
        (if 8 ≤ f.mod.toNat then [] else breg f false false)) (if f.imm.toNat / 2 ^ 11 % 2 = 1 then [f.imm.toNat / 2 ^ 8 % 8] else []) →
      ∃ t, exec (.shfl f) s = .next t ∧ passed s t f.gn f.gp 8 (regs (tyWide f.ty.toNat) f.d.toNat)
          (if f.imm.toNat / 2 ^ 11 % 2 = 1 then [f.imm.toNat / 2 ^ 8 % 8] else []) ∧ quiet s t ∧
        ∀ r ∈ active s f.gn f.gp, ∀ (n : Int) (from? : Option Nat),
          n = (if 8 ≤ f.mod.toNat then (if f.mod.toNat % 4 = 2 then (BitVec.ofNat 5 f.imm.toNat).toInt else (f.imm.toNat % 32 : Nat))
            else if f.mod.toNat % 4 = 2 then (BitVec.ofNat 32 (bval s f false 0x02 r)).toInt else (bval s f false 0x02 r : Nat)) →
          from? = (shuffled (f.mod.toNat % 4) (32 / 2 ^ (f.imm.toNat / 2 ^ 12)) r.lane n).filter (fun j => (active s f.gn f.gp).contains ⟨r.slot, j⟩) →
          (lane t r).getW (tyWide f.ty.toNat) f.d.toNat = v s (tyWide f.ty.toNat) f.a.toNat ⟨r.slot, from?.getD r.lane⟩ ∧
          (f.imm.toNat / 2 ^ 11 % 2 = 1 → f.imm.toNat / 2 ^ 8 % 8 ≠ 7 → (lane t r).getP (f.imm.toNat / 2 ^ 8 % 8) = from?.isSome)) ∧
    (f.ty.toNat ∈ tysBits → f.mod.toNat < 4 → f.b = 0 → f.u = false → f.imm = 0 →
      ∀ g : LaneRef → List LaneRef, (g = fun r => (active s f.gn f.gp).filter (fun q => va s f q == va s f r)) →
      (f.mod.toNat < 2 → gives (.matchLanes f) s f.gn f.gp 8 [(f.a.toNat, tyWide f.ty.toNat)] [] false f.d (fun r =>
        (if f.mod = 0 then maskOf (g r) else ((g r).headD r).lane, 0))) ∧
      (2 ≤ f.mod.toNat → f.d.toNat < 8 → givesP (.matchLanes f) s f.gn f.gp [(f.a.toNat, tyWide f.ty.toNat)] [] f.d (fun r =>
        (if f.mod = 2 then ((g r).headD r).lane == r.lane else (g r).length == (active s f.gn f.gp).length, 0))))

/-- 08 R191, R212: fence leaves no red of its lanes' strands unperformed; its lanes are held while a pop of theirs is unserved
and, at system scope, while a peer, the host or an expander has not acknowledged; phase begins a phase operation and holds its
lanes; fbar drops the lines of code that the core holds. -/
def Sys2Proof.Claim.LaneOrdering : Prop :=
  ∀ (s : State) (f : LLong), noF f → ready s f.gn f.gp [] [] → active s f.gn f.gp ≠ [] →
    (f.imm.toNat < 6 → (∀ r ∈ active s f.gn f.gp, (s.core s.turn.core).popRegs s.turn.part r.slot r.lane = []) →
      (f.imm = 5 → (∀ q ∈ (s.core s.turn.core).requests, q.job ≠ gang s) ∧
        ∀ w ∈ (s.core s.turn.core).writes, w.arrived = true ∨ ¬ isFar (s.phys w.addr)) →
      ∃ t, exec (.laneFence f) s = .next t ∧ stepped s t f.gn f.gp 8 [] [] ∧
        ∀ r ∈ active s f.gn f.gp, (strand t r.slot).reds = []) ∧
    (f.imm.toNat < 6 → (∃ r ∈ active s f.gn f.gp, (s.core s.turn.core).popRegs s.turn.part r.slot r.lane ≠ []) ∨
        (f.imm = 5 ∧ ((∃ q ∈ (s.core s.turn.core).requests, q.job = gang s ∧
            ∃ r ∈ active s f.gn f.gp, q.who = .strand s.turn.part r.slot ∧ q.lane = r.lane) ∨
          ∃ w ∈ (s.core s.turn.core).writes, w.arrived = false ∧ isFar (s.phys w.addr) ∧
            ∃ r ∈ active s f.gn f.gp, w.who = .strand s.turn.part r.slot ∧ w.lane = r.lane)) →
      exec (.laneFence f) s = .next s) ∧
    (solo s → f.imm ≠ 0 → f.imm.toNat < 4 →
      ∃ t, exec (.lanePhase f) s = .next t ∧ passed s t f.gn f.gp 8 [] [] ∧ (∀ r ∈ pass s, (lane t r).wait = .phase) ∧
        (t.core s.turn.core).phases = (s.core s.turn.core).phases ++ [⟨f.imm.toNat % 2 == 1, decide (2 ≤ f.imm.toNat),
          .strand s.turn.part (lead s).slot, (pass s).map (fun r => r.lane), s.mem, s.cycle⟩]) ∧
    (solo s → f.imm = 0 → ∃ t, exec (.laneFbar f) s = .next t ∧ passed s t f.gn f.gp 8 [] [] ∧ quiet s t ∧
      (t.core s.turn.core).fetched = [] ∧ ∀ p, (t.part s.turn.core p).trace = [])

/-- 08 R198 to R200, R210, 10 R250: the event slots of a strand, the wait for them, the entry of a handler and its return, and
fret; and ILLEGAL_CONVERGENCE for a pass that lacks a lane. -/
def Sys2Proof.Claim.LaneEvents : Prop :=
  ∀ (s : State) (f : LLong) (st : Strand), solo s → st = strand s (lead s).slot → active s f.gn f.gp ≠ [] → ready s f.gn f.gp [] [] →
    (f.ty = 0 → f.mod = 0 → f.d.toNat < 16 → f.a.toNat < 32 → f.u = true → f.b.toNat < 32 →
      (evDescOk true (st.getS f.a.toNat) (st.getS f.b.toNat) = true →
        ∃ t, exec (.laneEvarm f) s = .next t ∧ passed s t f.gn f.gp 8 [] [] ∧
          slotOf (strand t (lead s).slot) f.d.toNat = ⟨true, fieldNat (st.getS f.a.toNat) 3 0, fieldNat (st.getS f.a.toNat) 39 8,
            fieldNat (st.getS f.a.toNat) 4 4 == 1, st.getS f.b.toNat, target (passPc s) f, false⟩ ∧
          (strand t (lead s).slot).ev.pend.getLsbD f.d.toNat = false) ∧
      (evDescOk true (st.getS f.a.toNat) (st.getS f.b.toNat) = false →
        exec (.laneEvarm f) s = .next (laneTrapped s (firstOn s f.gn f.gp) .illegalOp 0 0))) ∧
    (f.ty = 0 → f.mod = 0 → f.d.toNat < 16 → f.a = 0 → f.b = 0 → f.u = false → f.imm = 0 →
      ∃ t, exec (.laneEvdis f) s = .next t ∧ passed s t f.gn f.gp 8 [] [] ∧ (slotOf (strand t (lead s).slot) f.d.toNat).armed = false ∧
        (strand t (lead s).slot).ev.pend.getLsbD f.d.toNat = false) ∧
    (noF f → ¬ wholePass s → ∀ i, i = .wany f ∨ (f.imm = 0 ∧ (i = .laneEvret f ∨ i = .fret f)) →
      exec i s = .next (laneTrapped s (lead s) .illegalConvergence 0 0)) ∧
    (noF f → wholePass s →
      (f.imm &&& st.ev.armedMask = 0 ∨ st.ev.inh = true → exec (.wany f) s = .next (laneTrapped s (firstOn s f.gn f.gp) .illegalOp 0 0)) ∧
      (∀ l, l = f.imm &&& st.ev.armedMask → l ≠ 0 → st.ev.inh = false →
        (∀ j < 16, (l &&& st.ev.visible &&& ~~~ st.ev.mask).getLsbD j = true →
          (∀ i < j, (l &&& st.ev.visible &&& ~~~ st.ev.mask).getLsbD i = false) →
          ∃ t, exec (.wany f) s = .next t ∧ sameElse s t ∧ (strand t (lead s).slot).ev.pc = passPc s + 8 ∧
            (strand t (lead s).slot).ev.inh = true ∧ (strand t (lead s).slot).ev.slot = j ∧
            (strand t (lead s).slot).ev.pend.getLsbD j = false ∧
            (∀ i < 4, (strand t (lead s).slot).getS (28 + i) = Tab.get st.shS 0 (28 + i)) ∧
            ∀ r ∈ pass s, (lane s r).exited = false → (lane t r).pc = (slotOf st j).handler) ∧
        (l &&& st.ev.visible &&& ~~~ st.ev.mask = 0 →
          ∃ t, exec (.wany f) s = .next t ∧ passed s t f.gn f.gp 8 [] [] ∧ (strand t (lead s).slot).listW = l ∧
            ∀ r ∈ pass s, (lane s r).exited = false → (lane t r).wait = .wany))) ∧
    (noF f → f.imm = 0 → wholePass s →
      (st.ev.inh = false → exec (.laneEvret f) s = .next (laneTrapped s (firstOn s f.gn f.gp) .illegalOp 0 0)) ∧
      (st.ev.inh = true → (∃ t, exec (.laneEvret f) s = .next t ∧ sameElse s t ∧ (strand t (lead s).slot).ev.inh = false ∧
        (∀ i < 4, (strand t (lead s).slot).getS (28 + i) = Tab.get st.shS 0 (28 + i)) ∧
        ∀ r ∈ pass s, (lane s r).exited = false → (lane t r).pc = st.ev.pc) ∧
        exec (.fret f) s = .next (laneTrapped s (firstOn s f.gn f.gp) .illegalOp 0 0)) ∧
      (st.ev.inh = false → ∃ t, exec (.fret f) s = .next t ∧ passed s t f.gn f.gp 8 [] [] ∧ (strand t (lead s).slot).fret = true ∧
        ∀ r ∈ pass s, (lane s r).exited = false → (lane t r).wait = .fret))

/-- 08 R195 to R197: qpush takes a slot for each lane where there is room or its place has been granted; without room it does
not issue, and waits in the queue's list; qpop waits there for its values; the forms with a predicate serve what they can at
once; qlen answers the entries or the free slots. -/
def Sys2Proof.Claim.LaneQueues : Prop :=
  ∀ (s : State) (f : LLong) (q n : Nat), q = f.imm.toNat % 16 → n = tySize f.ty.toNat → active s f.gn f.gp ≠ [] →
    (queueFields f → bound s q n → f.imm.toNat / 16 % 2 = 0 → f.imm.toNat / 32 = 0 →
      (f.d = 0 → (f.u = true → f.b.toNat < 32) → ready s f.gn f.gp (breg f false (tyWide f.ty.toNat)) [] →
        ((∀ r ∈ active s f.gn f.gp, (lane s r).wait = .none) → ((s.core s.turn.core).queue q).pushes = [] →
          (active s f.gn f.gp).length ≤ ((s.core s.turn.core).queue q).free →
          ∃ t, exec (.qpush f) s = .next t ∧ stepped s t f.gn f.gp 8 [] [] ∧ quiet s t ∧ t.mem = s.mem ∧
            ((t.core s.turn.core).queue q).free = ((s.core s.turn.core).queue q).free - (active s f.gn f.gp).length) ∧
        ((∀ r ∈ active s f.gn f.gp, (lane s r).wait = .qpush q true) →
          (active s f.gn f.gp).length ≤ ((s.core s.turn.core).queue q).free →
          ∃ t, exec (.qpush f) s = .next t ∧ stepped s t f.gn f.gp 8 [] [] ∧ t.mem = s.mem ∧ (∀ r ∈ pass s, (lane t r).wait = .none) ∧
            ((t.core s.turn.core).queue q).pushes = ((s.core s.turn.core).queue q).pushes.drop 1 ∧
            ((t.core s.turn.core).queue q).free = ((s.core s.turn.core).queue q).free - (active s f.gn f.gp).length) ∧
        ((∀ r ∈ active s f.gn f.gp, (lane s r).wait = .none) →
          ((s.core s.turn.core).queue q).pushes ≠ [] ∨ ((s.core s.turn.core).queue q).free < (active s f.gn f.gp).length →
          ∃ t, exec (.qpush f) s = .next t ∧ sameElse s t ∧
            (∀ r, { lane t r with wait := .none } = { lane s r with wait := .none }) ∧
            (∀ r ∈ pass s, (∃ a ∈ active s f.gn f.gp, a.slot = r.slot) → (lane t r).wait = .qpush q false) ∧
            ((t.core s.turn.core).queue q).free = ((s.core s.turn.core).queue q).free ∧
            (solo s → ((t.core s.turn.core).queue q).pushes = ((s.core s.turn.core).queue q).pushes ++ [(pass s).map (fun r =>
              ⟨s.turn.part, r.slot, r.lane, if r ∈ active s f.gn f.gp then 1 else 0, tyWide f.ty.toNat, false, passPc s⟩)]))) ∧
      (f.b = 0 → f.u = false → ready s f.gn f.gp [(f.d.toNat, tyWide f.ty.toNat)] [] →
        ∃ t, exec (.qpop f) s = .next t ∧ passed s t f.gn f.gp 8 [] [] ∧
          (∀ r ∈ active s f.gn f.gp, ∀ x ∈ regs (tyWide f.ty.toNat) f.d.toNat, x ∈ (lane t r).pendV) ∧
          ((t.core s.turn.core).queue q).pops = ((s.core s.turn.core).queue q).pops ++ [(active s f.gn f.gp).map (fun r =>
            ⟨s.turn.part, r.slot, r.lane, f.d.toNat, tyWide f.ty.toNat, (strand s r.slot).ev.inh && decide (120 ≤ f.d.toNat), passPc s⟩)])) ∧
    (queueFields f → bound s q n → f.imm.toNat / 16 % 2 = 1 → f.imm.toNat / 32 ≠ 7 →
      (f.d = 0 → (f.u = true → f.b.toNat < 32) → ready s f.gn f.gp (breg f false (tyWide f.ty.toNat)) [f.imm.toNat / 32] →
        ((s.core s.turn.core).queue q).pushes = [] →
        ∃ t, exec (.qpush f) s = .next t ∧ stepped s t f.gn f.gp 8 [] [f.imm.toNat / 32] ∧
          ((t.core s.turn.core).queue q).free = ((s.core s.turn.core).queue q).free - (active s f.gn f.gp).length ∧
          ∀ r ∈ active s f.gn f.gp, (lane t r).getP (f.imm.toNat / 32) =
            decide (r ∈ (active s f.gn f.gp).take ((s.core s.turn.core).queue q).free)) ∧
      (f.b = 0 → f.u = false → ready s f.gn f.gp [(f.d.toNat, tyWide f.ty.toNat)] [f.imm.toNat / 32] →
        ((s.core s.turn.core).queue q).pops = [] → (s.core s.turn.core).badLand = [] →
        ∃ t, exec (.qpop f) s = .next t ∧ stepped s t f.gn f.gp 8 (regs (tyWide f.ty.toNat) f.d.toNat) [f.imm.toNat / 32] ∧
          ((t.core s.turn.core).queue q).entries = ((s.core s.turn.core).queue q).entries - (active s f.gn f.gp).length ∧
          ∀ r ∈ active s f.gn f.gp, (lane t r).getP (f.imm.toNat / 32) =
            decide (r ∈ (active s f.gn f.gp).take ((s.core s.turn.core).queue q).entries))) ∧
    (f.ty = 0x02 → f.imm.toNat < 32 → f.a = 0 → f.b = 0 → f.u = false → f.mod = 0 → ready s f.gn f.gp [(f.d.toNat, false)] [] →
      (bound s q 0 → gives (.qlen f) s f.gn f.gp 8 [] [] false f.d (fun _ =>
        (if 16 ≤ f.imm.toNat then ((s.core s.turn.core).queue q).free else ((s.core s.turn.core).queue q).entries, 0))) ∧
      (((s.core s.turn.core).queue q).ring = none → exec (.qlen f) s = .next (laneTrapped s (firstOn s f.gn f.gp) .illegalOp 0 0))) ∧
    (queueFields f → (f.imm.toNat / 16 % 2 = 0 → f.imm.toNat / 32 = 0) → ((s.core s.turn.core).queue q).ring = none →
      (f.d = 0 → (f.u = true → f.b.toNat < 32) →
        ready s f.gn f.gp (breg f false (tyWide f.ty.toNat)) (if f.imm.toNat / 16 % 2 = 1 then [f.imm.toNat / 32] else []) →
        exec (.qpush f) s = .next (laneTrapped s (firstOn s f.gn f.gp) .illegalOp 0 0)) ∧
      (f.b = 0 → f.u = false →
        ready s f.gn f.gp [(f.d.toNat, tyWide f.ty.toNat)] (if f.imm.toNat / 16 % 2 = 1 then [f.imm.toNat / 32] else []) →
        exec (.qpop f) s = .next (laneTrapped s (firstOn s f.gn f.gp) .illegalOp 0 0)))

namespace Sys2Proof.Claim

/-- The first active lane of which `P` does not hold. -/
def firstNot (s : State) (gn : Bool) (gp : BitVec 3) (P : LaneRef → Prop) (r : LaneRef) : Prop :=
  ∃ a b, active s gn gp = a ++ r :: b ∧ (∀ q ∈ a, P q) ∧ ¬ P r

/-- The peer register and the remote address of a lane (08 R203, R205). -/
def peerNo (s : State) (f : LLong) (r : LaneRef) : Nat := if f.u then ((strand s r.slot).getS f.b.toNat).toNat else (lane s r).getV f.b.toNat
def remoteAddr (s : State) (f : LLong) (r : LaneRef) : Word := pairOf s f.a.toNat r + f.imm.signExtend 64

/-- A lane's register file holds a legal record of 64 bytes of Landing for renq (08 R207). -/
def recordAt (s : State) (f : LLong) (r : LaneRef) : Nat := bval s f false 0x02 r
def recordPlace (s : State) (f : LLong) (r : LaneRef) : Nat := (s.core s.turn.core).redirect (gangAgent s).task true (recordAt s f r)

/-- The operands of `fig` (08 R208): the command word, its operands, and the target's plan. -/
def figWord (s : State) (f : LLong) : Nat := ((strand s (lead s).slot).getS f.b.toNat).toNat
def figSel (s : State) (f : LLong) (p : Nat) : Nat := figWord s f / 2 ^ (20 + 3 * p) % 8
def figOps (s : State) (f : LLong) : List (Option (Nat × Nat × Word)) :=
  (List.range 4).map (fun p => figOperand (passJob s) (strand s (lead s).slot) f.b.toNat p (figSel s f p))
def figVals (s : State) (f : LLong) : List (Nat × Nat × Word) := (figOps s f).map (fun o => o.getD (3, 0, 0))
def figPlanOf (s : State) (f : LLong) (fig mod : Nat) : FigPlan :=
  figPlan fig mod s.turn.part (s.ctx s.turn.core (passJob s).ctx) s.turn.part ((figVals s f).map (fun o => o.2.1))
    ((figVals s f).map (fun o => o.1)) ((figVals s f).map (fun o => o.2.2))
def figTargetOf (s : State) (f : LLong) : Except Trap (Nat × Nat) :=
  figTarget s (s.ctx s.turn.core (passJob s).ctx).asid (figWord s f % 256) (figWord s f / 2 ^ 8 % 2 ^ 12)
/-- A selector names an operand of the routine that its entry calls read-only, at a position that the target writes. -/
abbrev writesReadOnly (s : State) (f : LLong) (fig mod : Nat) : Prop :=
  ∃ p ∈ figOutputs fig mod, 4 ≤ figSel s f p ∧ natField (entryRole (passJob s).entry (figSel s f p - 4)) 5 4 = 0

/-- The instance of the pass runs, and the stop of its context has room for a record. -/
abbrev mayTrap (s : State) : Prop :=
  (∃ j, (s.core s.turn.core).job (gang s) = some j ∧ j.err = false) ∧ (s.ctx s.turn.core (passJob s).ctx).recs.length < 8

end Sys2Proof.Claim

/-- 08 R202: mbsend adds each active lane's value to a mailbox of its own core or of a member of its cluster, or asks a
core of a peer to; a peer that its address space may not reach raises FABRIC_PEER. -/
def Sys2Proof.Claim.LaneMailboxes : Prop :=
  ∀ (s : State) (f : LLong), f.ty = 0x0A ∨ f.ty = 0x0B → f.imm.toNat < 64 → f.d = 0 → (f.u = true → f.b.toNat < 32) →
    active s f.gn f.gp ≠ [] → ready s f.gn f.gp (breg f false (tyWide f.ty.toNat)) [] →
    (∀ k, f.a = 0 → (f.mod = 0 ∧ k = s.turn.core) ∨ (f.mod = 1 ∧ k = memberCore s.turn.core (f.imm.toNat / 16)) →
      ∃ t, exec (.mbsend f) s = .next t ∧ passed s t f.gn f.gp 8 [] [] ∧ quiet s t ∧
        (∀ c n, Tab.get (t.core c).mbox 0 n = Tab.get (s.core c).mbox 0 n +
          if c = k ∧ n = f.imm.toNat % 16 then ((active s f.gn f.gp).map (fun r => BitVec.ofNat 64 (bval s f false f.ty.toNat r))).sum else 0)) ∧
    (∀ dest : LaneRef → Nat, f.mod = 2 → f.a.toNat < 32 → (dest = fun r => ((strand s r.slot).getS f.a.toNat).toNat) →
      (∀ r ∈ active s f.gn f.gp, bitsIn (dest r) 0x01FF0FFF = true ∧ dest r / 2 ^ 16 < 288) →
      ((∀ r ∈ active s f.gn f.gp, peerOn s (dest r % 2 ^ 12)) →
        ∃ t, exec (.mbsend f) s = .next t ∧ passed s t f.gn f.gp 8 [] [] ∧ quiet s t ∧
          ∀ r ∈ active s f.gn f.gp, ∃ id, requested s t r id 7 6 (dest r % 2 ^ 12) (BitVec.ofNat 64 s.turn.core)
            (BitVec.ofNat 64 (bval s f false f.ty.toNat r))) ∧
      (∀ r, firstNot s f.gn f.gp (fun q => peerOn s (dest q % 2 ^ 12)) r →
        exec (.mbsend f) s = .next (laneTrapped s r .fabricPeer 0 (dest r % 2 ^ 12))))

/-- 08 R204, R205: rget and ratom ask a peer for each active lane, whose registers are pending until the reply; a wrong
peer register, alignment or peer traps; bxfer asks in packets of at most 1,024 bytes, which hold the source. -/
def Sys2Proof.Claim.LaneRemoteAccesses : Prop :=
  ∀ (s : State) (f : LLong), active s f.gn f.gp ≠ [] →
    (∀ (atom : Bool) (i : Instr), i = (if atom then .ratom f else .rget f) → (f.u = true → f.b.toNat < 32) →
      (if atom then atomTyOk f.mod.toNat f.ty.toNat = true else f.ty.toNat ∈ tysBits ∧ f.mod = 0) →
      ready s f.gn f.gp ((f.d.toNat, tyWide f.ty.toNat) :: (f.a.toNat, true) :: breg f false false) [] →
      ((∀ r ∈ active s f.gn f.gp, peerNo s f r < 4096) →
        ((∀ r ∈ active s f.gn f.gp, (remoteAddr s f r).toNat % tySize f.ty.toNat = 0) →
          ((∀ r ∈ active s f.gn f.gp, peerOn s (peerNo s f r)) →
            ∃ t, exec i s = .next t ∧ passed s t f.gn f.gp 8 [] [] ∧ ∀ r ∈ active s f.gn f.gp, ∃ id,
              pending s t r (tyWide f.ty.toNat) f.d.toNat (.fabric id) 0 ∧
              requested s t r id (if atom then 5 else 3) (if atom then 4 else 2) (peerNo s f r) (remoteAddr s f r)
                (if atom then BitVec.ofNat 64 (v s (tyWide f.ty.toNat) f.d.toNat r) else 0)) ∧
          (∀ r, firstNot s f.gn f.gp (fun q => peerOn s (peerNo s f q)) r →
            exec i s = .next (laneTrapped s r .fabricPeer 0 (peerNo s f r)))) ∧
        (∀ r, firstNot s f.gn f.gp (fun q => (remoteAddr s f q).toNat % tySize f.ty.toNat = 0) r → exec i s =
          .next (laneTrapped s r .align (remoteAddr s f r) ((if atom then 3 else 0) * 2 ^ 11 + Nat.log2 (tySize f.ty.toNat))))) ∧
      (∀ r, firstNot s f.gn f.gp (fun q => peerNo s f q < 4096) r → exec i s = .next (laneTrapped s r .illegalOp 0 0))) ∧
    (∀ (st : Strand) (d : BxDesc), wholePass s → st = strand s (lead s).slot →
      d = bxDesc (st.getS f.a.toNat) (st.getS (f.a.toNat + 1)) (st.getS (f.a.toNat + 2)) (st.getS (f.a.toNat + 3)) true →
      f.ty = 0 → f.mod = 1 → f.d = 0 → f.b = 0 → f.u = false → f.imm = 0 → f.a.toNat < 32 → f.a.toNat % 4 = 0 → ready s f.gn f.gp [] [] →
      (d.ok = true → d.src % 16 = 0 → d.daddr % 16 = 0 → 0x1000 ≤ d.daddr → d.daddr + d.len ≤ 0x800000 →
        (∀ u ∈ s.bxUnits (gangAgent s) true d.src d.len, 0x1000 ≤ u ∧ u + 16 ≤ 0x800000) → (s.core s.turn.core).badLand = [] →
        peerOn s d.peer →
        ∃ t, exec (.bxfer f) s = .next t ∧ stepped s t f.gn f.gp 8 [] [] ∧ ((strand s (lead s).slot).reds = [] → ∀ a, t.mem.byte a = s.mem.byte a) ∧
          ∀ i < (d.len + 1023) / 1024, ∃ q ∈ (t.core s.turn.core).requests, q.want = 1 ∧ q.lctr = d.lctr ∧ q.pkt.ptype = 0 ∧
            q.pkt.dst = d.peer ∧ q.pkt.dcore = d.dcore ∧ q.pkt.laddr = d.daddr + 1024 * i ∧ q.pkt.dctr = d.dctr ∧ q.pkt.circ = d.circ ∧
            q.pkt.data.length = min 1024 (d.len - 1024 * i)) ∧
      (d.ok = false → exec (.bxfer f) s = .next (laneTrapped s (firstOn s f.gn f.gp) .illegalOp 0 0)))

/-- 08 R206, R207: the reduction slots and the remote queues. -/
def Sys2Proof.Claim.LaneSlotsAndRemoteQueues : Prop :=
  ∀ (s : State) (f : LLong), active s f.gn f.gp ≠ [] →
    (∀ desc : LaneRef → Word, (desc = fun r => (strand s r.slot).getS f.b.toNat) → f.ty = 0 → f.u = true → f.b.toNat < 32 → f.a = 0 →
      f.imm = 0 → f.mod = 0 → ready s f.gn f.gp [(f.d.toNat, true)] [] →
      ((∀ r ∈ active s f.gn f.gp, slotDescOk (desc r).toNat = true ∧ peerOn s ((desc r).toNat % 2 ^ 12)) →
        ∃ t, exec (.rslotAlloc f) s = .next t ∧ passed s t f.gn f.gp 8 [] [] ∧ ∀ r ∈ active s f.gn f.gp, ∃ id,
          pending s t r true f.d.toNat (.fabric id) 0 ∧ requested s t r id 9 8 ((desc r).toNat % 2 ^ 12) 0 (desc r)) ∧
      (∀ r, firstNot s f.gn f.gp (fun q => slotDescOk (desc q).toNat = true) r →
        exec (.rslotAlloc f) s = .next (laneTrapped s r .illegalOp 0 0))) ∧
    (f.d = 0 → f.imm = 0 → s.turn.core < numCores → solo s →
      (f.ty.toNat ∈ tysSlot → f.mod = 1 → (f.u = true → f.b.toNat < 32) →
        ready s f.gn f.gp ((f.a.toNat, true) :: breg f false (tyWide f.ty.toNat)) [] →
        peerOn s ((pairOf s f.a.toNat (firstOn s f.gn f.gp)).toNat % 2 ^ 12) →
        ∃ t, exec (.rslotPut f) s = .next t ∧ passed s t f.gn f.gp 8 [] [] ∧ quiet s t ∧ ∃ tr ∈ t.fabric.transit,
          tr.pkt.ptype = 10 ∧ tr.pkt.addr = pairOf s f.a.toNat (firstOn s f.gn f.gp) ∧
          tr.pkt.value = BitVec.ofNat 64 (bval s f false f.ty.toNat (firstOn s f.gn f.gp)) ∧ tr.pkt.aux = f.ty.toNat) ∧
      (f.ty = 0 → f.mod = 3 → f.b = 0 → f.u = false → ready s f.gn f.gp [(f.a.toNat, true)] [] →
        peerOn s ((pairOf s f.a.toNat (firstOn s f.gn f.gp)).toNat % 2 ^ 12) →
        ∃ t, exec (.rslotFree f) s = .next t ∧ passed s t f.gn f.gp 8 [] [] ∧ quiet s t ∧
          (∀ n ∈ t.fabric.notices, noticeKey n.handle ≠ noticeKey (pairOf s f.a.toNat (firstOn s f.gn f.gp))) ∧
          ∃ tr ∈ t.fabric.transit, tr.pkt.ptype = 12 ∧ tr.pkt.addr = pairOf s f.a.toNat (firstOn s f.gn f.gp))) ∧
    (f.mod.toNat % 4 = 2 → f.mod.toNat < 12 → f.b = 0 → f.u = false → f.imm = 0 →
      (if f.mod.toNat < 4 then f.ty.toNat ∈ tysSlot else f.ty = 2) →
      ready s f.gn f.gp [(f.d.toNat, tyWide f.ty.toNat), (f.a.toNat, true)] [] →
      (∀ r, firstNot s f.gn f.gp (fun q => peerOn s ((pairOf s f.a.toNat q).toNat % 2 ^ 12)) r →
        exec (.rslotGet f) s = .next (laneTrapped s r .fabricPeer 0 ((pairOf s f.a.toNat r).toNat % 2 ^ 12))) ∧
      ((∀ r ∈ active s f.gn f.gp, peerOn s ((pairOf s f.a.toNat r).toNat % 2 ^ 12)) →
       (f.mod.toNat < 8 →
        ∃ t, exec (.rslotGet f) s = .next t ∧ passed s t f.gn f.gp 8 [] [] ∧ ∀ r ∈ active s f.gn f.gp,
          pending s t r (tyWide f.ty.toNat) f.d.toNat (.notice (pairOf s f.a.toNat r) (decide (4 ≤ f.mod.toNat))
            (s.devtime + 1000 * (fieldNat (pairOf s f.a.toNat r) 47 40 + s.fabric.cwtmo))) 0) ∧
       (f.mod.toNat = 10 → gives (.rslotGet f) s f.gn f.gp 8 [(f.a.toNat, true)] [] false f.d (fun r =>
        (match s.noticeOf (pairOf s f.a.toNat r) with | some n => n.status | none => 0, 0))))) ∧
    (f.ty = 0 → f.imm = 0 → f.mod = 0 → (f.u = true → f.b.toNat < 32) →
      ready s f.gn f.gp ((f.d.toNat, false) :: (f.a.toNat, true) :: breg f false false) [] →
      (∀ r ∈ active s f.gn f.gp, bitsIn (pairOf s f.a.toNat r).toNat 0xFFFF000000FF0FFF = true) →
      (∀ r ∈ active s f.gn f.gp, 0x1000 ≤ recordPlace s f r ∧ recordPlace s f r + 64 ≤ 0x800000 ∧ recordAt s f r % 64 = 0 ∧
        peerOn s ((pairOf s f.a.toNat r).toNat % 2 ^ 12)) →
      ((∀ q ∈ (s.core s.turn.core).requests, q.want ≠ 14) → (s.core s.turn.core).badLand = [] →
        ∃ t, exec (.renq f) s = .next t ∧ stepped s t f.gn f.gp 8 [] [] ∧ ∀ r ∈ active s f.gn f.gp, ∃ id,
          pending s t r false f.d.toNat (.enqueue id) 0 ∧
          requested s t r id 14 13 ((pairOf s f.a.toNat r).toNat % 2 ^ 12) (pairOf s f.a.toNat r) 0) ∧
      ((∃ q ∈ (s.core s.turn.core).requests, ∃ r ∈ active s f.gn f.gp, q.want = 14 ∧ q.who = .strand s.turn.part r.slot ∧
          q.job = gang s ∧ q.lane = r.lane ∧ q.pkt.addr = pairOf s f.a.toNat r) → exec (.renq f) s = .next s))

/-- 08 R208, R209, R212, 04 R92: fig issues an architected figure for the pass's partition as a child of the instance;
trap and brk stop the gang with BREAK; a retired opcode raises RETIRED_OP. -/
def Sys2Proof.Claim.LaneFigureAndBreaks : Prop :=
  ∀ (s : State) (f : LLong),
    (wholePass s → active s f.gn f.gp ≠ [] → f.ty = 0 → f.a = 0 → f.imm = 0 → f.mod = 0 → f.u = true → f.b.toNat < 32 →
      ready s f.gn f.gp [(f.d.toNat, false)] [] →
      (2 ^ 32 ≤ figWord s f → exec (.laneFig f) s = .next (laneTrapped s (firstOn s f.gn f.gp) .illegalOp 0 0)) ∧
      (figWord s f < 2 ^ 32 →
        (∀ q, figTargetOf s f = .error q → exec (.laneFig f) s = .next (laneTrapped s (firstOn s f.gn f.gp) q.cls q.addr q.det)) ∧
        (∀ fig mod, figTargetOf s f = .ok (fig, mod) →
          (none ∉ figOps s f → (∀ p < 4, ((figVals s f).map (fun o => o.1)).getD p 4 ∈ ((figKinds fig).getD []).getD p []) →
            (writesReadOnly s f fig mod → exec (.laneFig f) s = .next (laneTrapped s (firstOn s f.gn f.gp) .tileState 0 0)) ∧
            (¬ writesReadOnly s f fig mod →
              (∀ q, firstTrap [(figPlanOf s f fig mod).checks] = some q →
                exec (.laneFig f) s = .next (laneTrapped s (firstOn s f.gn f.gp) q.cls q.addr q.det)) ∧
              (firstTrap [(figPlanOf s f fig mod).checks] = none →
                ((s.core s.turn.core).jobs.filter (fun q => q.ctx == (passJob s).ctx)).length < 64 →
                ∃ t j, exec (.laneFig f) s = .next t ∧ stepped s t f.gn f.gp 8 [] [] ∧
                  (t.core s.turn.core).jobs = (s.core s.turn.core).jobs ++ [j] ∧ j.kind = .figure fig mod ∧ j.parts = [s.turn.part] ∧
                  j.parent = some (passJob s).id ∧ j.byStrand = (lead s).slot ∧ j.ctx = (passJob s).ctx ∧ j.started = false ∧
                  ∀ r ∈ active s f.gn f.gp, pending s t r false f.d.toNat (.figure j.id) 0))) ∧
          (none ∈ figOps s f ∨ (∃ p < 4, ((figVals s f).map (fun o => o.1)).getD p 4 ∉ ((figKinds fig).getD []).getD p []) →
            exec (.laneFig f) s = .next (laneTrapped s (firstOn s f.gn f.gp) .illegalOp 0 0))))) ∧
    (∀ e ∈ [(Instr.laneTrap f, 1), (.laneBrk f, 0)], noF f → solo s → mayTrap s → active s f.gn f.gp ≠ [] → ready s f.gn f.gp [] [] →
      ∃ t, exec e.1 s = .next t ∧ stepped s t f.gn f.gp 8 [] [] ∧ sameMemory s t ∧ gangStopped s t .break_ (e.2 * 65536 + f.imm.toNat)) ∧
    (∀ w0 w1, solo s → pass s ≠ [] → exec (.retiredLaneOpcode w0 w1) s = .next (laneTrapped s (lead s) .retiredOp 0 0)) ∧
    (∀ cls addr det, mayTrap s → pass s ≠ [] → gangStopped s (laneTrapped s (lead s) cls addr det) cls det ∧
      sameMemory s (laneTrapped s (lead s) cls addr det) ∧
      ∀ r, lane (laneTrapped s (lead s) cls addr det) r = lane s r)

/-- 08 R211, 16 R335, R337: crd and cwr of lanes. -/
def Sys2Proof.Claim.LaneControlRegisters : Prop :=
  ∀ (s : State) (f : LLong) (n : Nat), n = f.imm.toNat → f.ty.toNat ∈ tysBits → f.a = 0 → f.mod = 0 → solo s → active s f.gn f.gp ≠ [] →
    (f.b = 0 → f.u = false → ready s f.gn f.gp [(f.d.toNat, tyWide f.ty.toNat)] [] →
      ((∃ r, (laneReg s r n).isSome = true) → gives (.laneCrd f) s f.gn f.gp 8 [] [] (tyWide f.ty.toNat) f.d
        (fun r => (((laneReg s r n).getD 0).toNat, 0))) ∧
      (n = 0x021 → ∃ t, exec (.laneCrd f) s = .next t ∧ passed s t f.gn f.gp 8 [] [] ∧
        ∀ r ∈ active s f.gn f.gp, pending s t r (tyWide f.ty.toNat) f.d.toNat .value (BitVec.ofNat 64 s.devtime)) ∧
      (n < 4096 → laneRegOk n = true → sysReadPriv (gangAgent s).priv n = false → ∃ t, exec (.laneCrd f) s = .next t ∧
        ∀ r ∈ pass s, (lane t r).pc = passPc s + 8) ∧
      (isSysReg n = true → n ∉ [0x210, 0x223, 0x226] → (gangAgent s).priv = 0 →
        exec (.laneCrd f) s = .next (laneTrapped s (firstOn s f.gn f.gp) .priv 0 0)) ∧
      (¬ (n < 4096 ∧ laneRegOk n = true) → exec (.laneCrd f) s = .next (laneTrapped s (lead s) .illegalOp 0 0))) ∧
    (∀ w : Word, w = BitVec.ofNat 64 (bval s f false f.ty.toNat (firstOn s f.gn f.gp)) → f.d = 0 → (f.u = true → f.b.toNat < 32) →
      ready s f.gn f.gp (breg f false (tyWide f.ty.toNat)) [] →
      (n ∈ [0x002, 0x018, 0x01B, 0x020, 0x021, 0x030, 0x100, 0x101, 0x102, 0x103, 0x210] →
        ∃ t, exec (.laneCwr f) s = .next t ∧ passed s t f.gn f.gp 8 [] [] ∧ quiet s t ∧ ored s t 0) ∧
      (n = 0x000 → ∃ t, exec (.laneCwr f) s = .next t ∧ passed s t f.gn f.gp 8 [] [] ∧ quiet s t ∧
        (t.ctx s.turn.core (passJob s).ctx).numflags = (s.ctx s.turn.core (passJob s).ctx).numflags &&& ~~~ (w.setWidth 32)) ∧
      (n = 0x019 ∨ n = 0x01A ∨ n = 0x01C → ∃ t, exec (.laneCwr f) s = .next t ∧ passed s t f.gn f.gp 8 [] [] ∧
        (strand t (lead s).slot).ev = (if n = 0x019 then { (strand s (lead s).slot).ev with mask := w.setWidth 16 }
          else if n = 0x01A then { (strand s (lead s).slot).ev with pc := w } else (strand s (lead s).slot).ev.postSoft w)) ∧
      (∀ p < 4, n = 0x040 + p → (gangAgent s).priv ≠ 0 → ∃ t, exec (.laneCwr f) s = .next t ∧ passed s t f.gn f.gp 8 [] [] ∧ quiet s t ∧
        (t.part s.turn.core p).hangNew = some (w.toNat % 2 ^ 32)) ∧
      (∀ b < 16, n = 0x080 + b → ∃ t, exec (.laneCwr f) s = .next t ∧ passed s t f.gn f.gp 8 [] [] ∧ quiet s t ∧
        Tab.get (t.core s.turn.core).mbox 0 b = w) ∧
      (n < 4096 → laneRegOk n = true → sysWritePriv (gangAgent s).priv n = false → (isSysReg n = true → sysValueOk n w = true) →
        (n = 0x208 → s.tlbBusy = false) → ∃ t, exec (.laneCwr f) s = .next t ∧ (n ≠ 0x209 → ∀ r ∈ pass s, (lane t r).pc = passPc s + 8)) ∧
      (isSysReg n = true → (gangAgent s).priv ≠ 0 → sysValueOk n w = false →
        exec (.laneCwr f) s = .next (laneTrapped s (firstOn s f.gn f.gp) .illegalOp 0 0)) ∧
      ((isSysReg n = true ∧ n ≠ 0x210) ∨ (0x40 ≤ n ∧ n ≤ 0x43) → (gangAgent s).priv = 0 →
        exec (.laneCwr f) s = .next (laneTrapped s (firstOn s f.gn f.gp) .priv 0 0)) ∧
      (¬ (n < 4096 ∧ laneRegOk n = true) → exec (.laneCwr f) s = .next (laneTrapped s (lead s) .illegalOp 0 0)))

/-- 03 R61, R77, R81, 07 R152: a two-source operation whose fields or registers are not legal raises ILLEGAL_OP for its
gang whatever its guard, and one with a pending operand does not issue. Of the model's own readings and choices (NOTES.md) it rests on log 7, 53. -/
def Obligations.LaneHoldsAndIllegalFields : Prop :=
  ∀ (s : State) (f : LLong), solo s → pass s ≠ [] → ∀ e ∈ twoSource, ∀ legal : Prop,
    (legal ↔ f.ty.toNat ∈ e.2.2.2.1 ∧ (f.mod.toNat % 8 = 0 ∨ (f.mod.toNat % 8 = 1 ∧ e.2.2.2.2.1 = true)) ∧ blegal f true) →
    ∀ names : List (Nat × Bool), names = (f.d.toNat, tyWide f.ty.toNat) :: (f.a.toNat, tyWide f.ty.toNat) :: breg f true (tyWide f.ty.toNat) →
    (¬ legal ∨ (∃ o ∈ names, vOk (strand s (lead s).slot).nregs o = false) →
      exec (e.2.1 f) s = .next (laneTrapped s (lead s) .illegalOp 0 0)) ∧
    (legal → (∀ o ∈ names, vOk (strand s (lead s).slot).nregs o = true) →
      (∃ r ∈ pass s, f.gp.toNat ∈ (lane s r).pendP ∨ (r ∈ active s f.gn f.gp ∧ ∃ o ∈ names, o.1 ∈ (lane s r).pendV)) →
      exec (e.2.1 f) s = .next s)

namespace Sys2Proof.Claim

/-- A register, or pair, of a lane holds a value that has arrived: the pending bits are clear (03 R61). -/
def filled (l : Lane) (wide : Bool) (d : Nat) (v : Word) : Prop :=
  l.getW wide d = v.toNat % 2 ^ bits wide ∧ ∀ n ∈ regs wide d, n ∉ l.pendV

/-- The destination of a result stands in the bank in place, and its lane has not exited (08 R183, R200). -/
abbrev lands (st : Strand) (r : LaneResult) : Prop := (r.dst < 120 ∨ r.shadow = st.ev.inh) ∧ (st.lane r.lane).exited = false

/-- A request has been the oldest of its class at its bank for the bound of its class (09 R218). -/
def atBound (s : State) (q : BankReq) : Prop :=
  ∃ c, q.since = some c ∧ c + [0, 4, 8, 16, 32].getD q.cls 64 ≤ s.cycle

end Sys2Proof.Claim

/-- 03 R63 to R67, 08 R195: once in a cycle a partition issues its passes, at most four, and the pass of one subset has its
effect. 02 R37, R38: once in a cycle the core issues the bundles of its first two contexts that may. -/
def Sys2Proof.Claim.IssueOfPassesAndBundles : Prop :=
  ∀ (s s0 : State) (core : Nat),
    (∀ part, s0 = s.modCore core (fun c => { c with passed := (s.cycle + 1, part + 1) }) →
      ((s.part core part).strands ≠ [] → s.mayPass core part = true →
        (∃ t, exec (.issuePass core part) s = .next t) ∧
        (∀ b i m s1 t, s0.pushWait core part = none → s0.unitsNow core part = [(b, none)] →
          s0.laneAt core part b.gang (maskClass false ((passOf [b]).map (fun r => r.lane))) b.pc = (.ok (i, m), s1) →
          passTry m core part (passOf [b]) { s1 with turn := ⟨core, 0, part, passOf [b]⟩ } = .issues t →
          ∃ z, exec (.issuePass core part) s = .next z ∧ z.mem = t.mem ∧ (∀ k c, z.ctx k c = t.ctx k c) ∧
            ∀ k p sl, z.strand k p sl = t.strand k p sl)) ∧
      (∀ s1 : State, (s1.unitsNow core part).length ≤ 4) ∧
      (s.mayPass core part = false → exec (.issuePass core part) s = .fault .notEnabled)) ∧
    (s.candidates core ≠ [] → (s.core core).caller.1 ≠ s.cycle + 1 → ∃ t, exec (.bundleIssue core) s = .next t) ∧
    ((s.core core).caller.1 = s.cycle + 1 → exec (.bundleIssue core) s = .fault .notEnabled) ∧
    (s0 = s.modCore core (fun c => { c with caller := (s.cycle + 1, 0) }) → (s.core core).caller.1 ≠ s.cycle + 1 →
      (∀ c b s1 t, s.candidates core = [c] → s0.mergeDue (s0.ctx core c) = none → s0.spawnFailDue (s0.ctx core c) = none →
        (s0.ctx core c).wait ≠ .sync → s0.fetchBundle core c (s0.ctx core c).pc = .ok (b, s1) →
        (∀ needs, issueBundle core c b s1 = .issued t needs → (s0.core core).portsFor needs = true →
          ∃ z, exec (.bundleIssue core) s = .next z ∧ z.mem = t.mem ∧
            z.ctx core c = { t.ctx core c with busy := s.cycle + readCycles needs } ∧ ∀ d, d ≠ c → z.ctx core d = t.ctx core d) ∧
        (issueBundle core c b s1 = .trapped t → ∃ z, exec (.bundleIssue core) s = .next z ∧ z.mem = t.mem ∧ ∀ d, z.ctx core d = t.ctx core d)) ∧
      (∀ c d rest x y, s.candidates core = c :: d :: rest → s0.issueCtx core c = (x, true) → x.callerFree core = true →
        x.issueCtx core d = (y, true) → y.callerFree core = false → exec (.bundleIssue core) s = .next y)) ∧
    (∀ c, c ∈ s.candidates core → (s.ctx core c).running = true ∧ (s.ctx core c).stopped = false ∧ (s.ctx core c).preStop = none ∧
      (s.ctx core c).issued ≠ s.cycle + 1 ∧ c < 8 ∧
      ∀ d < 8, s.ctxFree core d = true → (s.ctx core d).pri < 8 →
        ∃ c0 rest, s.candidates core = c0 :: rest ∧ (s.ctx core c0).pri ≤ (s.ctx core d).pri)

/-- 02 R38 to R40, R43: a bundle that holds one scalar operation, no tree and no loop end does what that operation does:
it has its effect and the PC advances, or nothing but its trap happens, or it waits. -/
def Sys2Proof.Claim.BundleRunsItsSlot : Prop :=
  ∀ (s : State) (b : Bundle) (o : ScalarSlot) (mk : SFields → SlotRun), bundleScalars b = [o] → bundleBad b = none → b.bp = false →
    b.ep = false → b.lend = false → o.guard = 31 → (me s).skip = [] → (me s).preReq = false → codeRow scalarMeans o.op = some mk →
    ∀ env : SEnv, env = ⟨s.turn.core, s.turn.ctx, me s, o.slot, false, false, s⟩ →
      (∀ s1 pc, mk o.f env s = .ok s1 pc none → ∃ z needs, issueBundle s.turn.core s.turn.ctx b s = .issued z needs ∧
        ∀ t, t = finishIssue env (s1.setCtx s.turn.core s.turn.ctx (s1.ctx s.turn.core s.turn.ctx)) (some (pc.getD ((me s).pc + 32))) none →
          z.mem = t.mem ∧ (∀ k c, z.ctx k c = t.ctx k c) ∧ z.tasks = t.tasks ∧ z.spaces = t.spaces ∧
            (z.core s.turn.core).jobs = (t.core s.turn.core).jobs ∧ (z.core s.turn.core).landing = (t.core s.turn.core).landing) ∧
      (∀ t, mk o.f env s = .trap t → issueBundle s.turn.core s.turn.ctx b s = .trapped (trapped s o.slot t.cls t.addr t.det)) ∧
      (∀ s1, mk o.f env s = .hold s1 → issueBundle s.turn.core s.turn.ctx b s = .held s1)

/-- 02 R33, R38, 03 R61, 05 R105, 07 R175, 08 R208: results on their way arrive; a bundle of that cycle finds the register
empty still; one that has read uncorrectable data stops its
context instead. -/
def Sys2Proof.Claim.ResultArrivals : Prop :=
  ∀ (s : State) (core n : Nat),
    (∀ ctx r, (s.ctx core ctx).results[n]? = some r → r.inst = none → r.spawn = none → r.slot ≠ 2 → r.reg ≠ 0 →
      (r.reg < 56 ∨ r.shadow = (s.ctx core ctx).ev.inh) →
      ((∀ l ∈ r.lines, s.srcBad l = false) → ∃ t, exec (.longLatencyResult core ctx n) s = .next t ∧ sameMemory s t ∧
        (t.ctx core ctx).getX r.reg = r.value ∧ r.reg ∉ (t.ctx core ctx).empty ∧ r.reg ∈ (t.ctx core ctx).late ∧ (t.ctx core ctx).results = (s.ctx core ctx).results.erase r ∧
        (∀ x, x ≠ r.reg → (t.ctx core ctx).getX x = (s.ctx core ctx).getX x ∧ (t.ctx core ctx).full x = (s.ctx core ctx).full x) ∧
        (t.ctx core ctx).pc = (s.ctx core ctx).pc ∧ (t.ctx core ctx).c = (s.ctx core ctx).c) ∧
      ((∃ l ∈ r.lines, s.srcBad l = true) → (s.ctx core ctx).recs.length < 8 → ∃ t q, exec (.longLatencyResult core ctx n) s = .next t ∧
        sameMemory s t ∧ (t.ctx core ctx).stopped = true ∧ (t.ctx core ctx).recs = (s.ctx core ctx).recs ++ [q] ∧
        q.cls = .memUncorrectable ∧ q.pc = r.pc ∧ q.slot = r.slot ∧ q.cmd = r.cmd ∧ q.addr = r.va)) ∧
    (∀ part slot r, (s.strand core part slot).results[n]? = some r → lands (s.strand core part slot) r →
      ∀ v : Word, (r.src = .value ∧ v = r.value ∧ (∀ m ∈ s.passResults core part r, ∀ l ∈ m.2.lines, s.srcBad l = false)) ∨
          (∃ j, r.src = .figure j ∧ (s.core core).job j = none ∧ v = 0) ∨
          (∃ h e d, r.src = .notice h false d ∧ s.noticeOf h = some e ∧ v = e.value) ∨
          (∃ h e d, r.src = .notice h true d ∧ s.noticeOf h = some e ∧ v = BitVec.ofNat 64 e.map) →
        ∃ t, exec (.laneResultArrival core part slot n) s = .next t ∧ sameMemory s t ∧
          filled ((t.strand core part slot).lane r.lane) r.wide r.dst v ∧
          (t.strand core part slot).results = (s.strand core part slot).results.erase r ∧
          (∀ x, x ∉ regs r.wide r.dst → ((t.strand core part slot).lane r.lane).getV x = ((s.strand core part slot).lane r.lane).getV x) ∧
          (∀ l, l ≠ r.lane → (t.strand core part slot).lane l = (s.strand core part slot).lane l))

/-- 03 R63, R68 to R71, 08 R185: the rotation of a partition's strands, the completion and the timeout of a join, and the
hang detector. Of the model's own readings and choices (NOTES.md) it rests on log 56, 74, 104. -/
def Obligations.StrandRowsAndJoins : Prop :=
  ∀ (s : State) (core part : Nat),
    (∀ w, longestWait ((s.part core part).strands.filter (fun e => !e.2.active && (s.readySlots core part).contains e.1)) = some w →
      8 ≤ ((s.part core part).strands.filter (fun e => e.2.active)).length → w.2.entered + 128 ≤ s.cycle →
      (s.part core part).rotated ≠ s.cycle + 1 →
      ∃ t, ∃ o ∈ (s.part core part).strands.filter (fun e => e.2.active), exec (.strandRotation core part) s = .next t ∧
        (t.part core part).rotated = s.cycle + 1 ∧ (∀ e ∈ (s.part core part).strands.filter (fun e => e.2.active), o.2.entered ≤ e.2.entered) ∧
        (t.strand core part w.1).active = true ∧ (t.strand core part w.1).entered = s.cycle ∧
        (o.1 ≠ w.1 → (t.strand core part o.1).active = false)) ∧
    (∀ slot addr j, (s.strand core part slot).openJoin addr = some j →
      ((∀ l < 32, j.mask.getLsbD l = true → ((s.strand core part slot).lane l).exited = true ∨ l ∈ j.waiting) →
        (∀ d, j.deadline = some d → s.cycle ≤ d) →
        ∃ t, exec (.joinCompletion core part slot addr) s = .next t ∧ sameElse s t ∧
          (∀ q ∈ (t.strand core part slot).joins, q.addr ≠ j.addr) ∧ ∀ l ∈ j.waiting, ((s.strand core part slot).lane l).exited = false →
            ((t.strand core part slot).lane l).wait = .none ∧ (j.pred < 7 → ((t.strand core part slot).lane l).getP j.pred = false)) ∧
      ((∃ l < 32, j.mask.getLsbD l = true ∧ ((s.strand core part slot).lane l).exited = false ∧ l ∉ j.waiting) →
        exec (.joinCompletion core part slot addr) s = .fault .notEnabled) ∧
      (∀ d, j.deadline = some d → s.cycle ≤ d → exec (.joinTimeout core part slot addr) s = .fault .notEnabled) ∧
      (∀ d, j.deadline = some d → d < s.cycle →
        exec (.joinCompletion core part slot addr) s = .fault .notEnabled ∧
        ∃ t, exec (.joinTimeout core part slot addr) s = .next t ∧ sameElse s t ∧
          (∀ q ∈ (t.strand core part slot).joins, q.addr ≠ j.addr) ∧ ∀ l ∈ j.waiting, ((s.strand core part slot).lane l).exited = false →
            ((t.strand core part slot).lane l).wait = .none ∧ (j.pred < 7 → ((t.strand core part slot).lane l).getP j.pred = true))) ∧
    (∀ slot l, (s.part core part).hangLimit ≠ 0 → (s.strand core part slot).stopped = false →
      (s.strand core part slot).lanes.find? (fun l => !l.2.exited && decide ((s.part core part).hangLimit ≤ l.2.idle)) = some l →
      exec (.hangDetect core part slot) s = .next (s.gangTrap core (s.strand core part slot).gang part (s.strand core part slot).index
        l.1 l.2.pc .hang 0 l.1)) ∧
    (∀ slot, (s.part core part).hangLimit = 0 ∨ (∀ l ∈ (s.strand core part slot).lanes, l.2.idle < (s.part core part).hangLimit) →
      exec (.hangDetect core part slot) s = .fault .notEnabled) ∧
    (∀ value : Word, ∃ t, exec (.hangctlWrite core part value) s = .next t ∧ (t.part core part).hangNew = some (value.toNat % 2 ^ 32) ∧
      { t.part core part with hangNew := none } = { s.part core part with hangNew := none } ∧ sameElse s t)

/-- 08 R193, R195, R196, R210, 09 R217, R218, 12 R277: waiting queue requests are served in order, a push by the grant of
its place; reds are performed; a bank serves one store in a cycle, those that have waited their bound first, then the lowest
class, then the oldest; and a strand finishes. -/
def Sys2Proof.Claim.QueueRedAndBankRows : Prop :=
  ∀ (s : State) (core : Nat),
    (∀ q req rest, ((s.core core).queue q).ring ≠ none →
      (((s.core core).queue q).pushes = req :: rest → (req.filter (fun w => w.val == 1)).length ≤ ((s.core core).queue q).free →
        (∃ w ∈ req, (s.lane core w.part w.slot w.lane).wait = .qpush q false) →
        ∃ t, exec (.qpushServe core q) s = .next t ∧ t.mem = s.mem ∧ (t.core core).queues = (s.core core).queues ∧
          ∀ w ∈ req, (t.lane core w.part w.slot w.lane).wait = .qpush q true) ∧
      (((s.core core).queue q).pushes = req :: rest → ((s.core core).queue q).free < (req.filter (fun w => w.val == 1)).length →
        exec (.qpushServe core q) s = .fault .notEnabled) ∧
      (((s.core core).queue q).pops = req :: rest → req.length ≤ ((s.core core).queue q).entries → (s.core core).badLand = [] →
        ∃ t, exec (.qpopServe core q) s = .next t ∧ ((t.core core).queue q).pops = rest ∧ sameMemory s t ∧
          ((t.core core).queue q).entries = ((s.core core).queue q).entries - req.length ∧
          ((t.core core).queue q).head = ((s.core core).queue q).head + req.length ∧
          (∀ w ring, req = [w] → ((s.core core).queue q).ring = some ring → w.val < 120 → (s.lane core w.part w.slot w.lane).exited = false →
            filled (t.lane core w.part w.slot w.lane) w.wide w.val (BitVec.ofNat 64
              ((s.core core).landRead (((s.core core).ring ring).slotAt ((s.core core).queue q).head) (if w.wide then 8 else 4)))))) ∧
    (∀ part slot n r, (s.strand core part slot).reds[n]? = some r → r.space = 1 → s.redHeld core part slot n r = false → (s.core r.core).landBad r.addr (tySize r.ty) = false →
      0x1000 ≤ r.addr → ∃ t, exec (.redPerform core part slot n) s = .next t ∧ t.mem = s.mem ∧
        (t.strand core part slot).reds = (s.strand core part slot).reds.eraseIdx n ∧
        (∀ i < tySize r.ty, (t.core r.core).landing.byte (r.addr + i) = BitVec.ofNat 8
          ((atomVal r.op r.ty ((s.core r.core).landRead r.addr (tySize r.ty)) r.a.toNat).1 / 256 ^ i)) ∧
        (∀ k a, k ≠ r.core ∨ a < r.addr ∨ r.addr + tySize r.ty ≤ a → (t.core k).landing.byte a = (s.core k).landing.byte a)) ∧
    (∀ part slot n r, (s.strand core part slot).reds[n]? = some r → s.redHeld core part slot n r = false → s.redBad r = false →
      ∃ t, exec (.redPerform core part slot n) s = .next t ∧ (t.strand core part slot).reds = (s.strand core part slot).reds.eraseIdx n) ∧
    (∀ bank q l l' off bs, (s.core core).bankQ.filter (fun q => q.bank == bank) = l ++ q :: l' →
      ((atBound s q ∧ (∀ x ∈ l, atBound s x → q.cls < x.cls) ∧ ∀ x ∈ l', atBound s x → q.cls ≤ x.cls) ∨
        ((∀ x ∈ l ++ q :: l', ¬ atBound s x) ∧ (∀ x ∈ l, q.cls < x.cls) ∧ ∀ x ∈ l', q.cls ≤ x.cls)) →
      q.writes = [(off, bs)] → 0x1000 ≤ off → (s.core core).hold = 0 → Tab.get (s.core core).bankAt 0 bank ≠ s.cycle + 1 →
      ∃ t, exec (.landingBankServe core bank) s = .next t ∧ t.mem = s.mem ∧ Tab.get (t.core core).bankAt 0 bank = s.cycle + 1 ∧
        (t.core core).bankQ.map (fun q => { q with since := none }) = ((s.core core).bankQ.erase q).map (fun q => { q with since := none }) ∧
        (∀ i < bs.length, (t.core core).landing.byte (off + i) = bs.getD i 0) ∧
        (∀ k a, k ≠ core ∨ a < off ∨ off + bs.length ≤ a → (t.core k).landing.byte a = (s.core k).landing.byte a)) ∧
    (∀ bank, (s.core core).hold ≠ 0 ∨ Tab.get (s.core core).bankAt 0 bank = s.cycle + 1 ∨ (∀ q ∈ (s.core core).bankQ, q.bank ≠ bank) →
      exec (.landingBankServe core bank) s = .fault .notEnabled) ∧
    (∀ part slot, s.strandOver core part slot = true →
      ∃ t, exec (.strandFinish core part slot) s = .next t ∧ (t.strand core part slot).finished = true ∧
        (t.strand core part slot).active = false ∧ ∀ j, (s.core core).job (s.strand core part slot).gang = some j →
          (∀ e ∈ (s.part core part).strands, e.2.gang = (s.strand core part slot).gang → e.1 = slot ∨ e.2.finished = true) →
          ∃ j', (t.core core).job (s.strand core part slot).gang = some j' ∧ part ∈ j'.done ∧
            ((s.strand core part slot).index = 0 → part = j.parts.foldl min 3 →
              j'.xout = (List.range 4).map (fun i => (i, (s.strand core part slot).getS i))))

/-- 04 R92, 12 R283: with no emulation installed, the firmware passes a RETIRED_OP on; with one, a retired lane opcode's
pass advances, its record is withdrawn and counted, and its gang goes on. Of the model's own readings and choices (NOTES.md) it rests on log 11. -/
def Obligations.RetiredOperations : Prop :=
  ∀ (s : State) (core : Nat),
    (∀ c r, s.retiredRec core c = some r → r.inst = none →
      ∃ t, exec (.retiredOpEmulation core (.ctx c) false) s = .next t ∧ sameMemory s t ∧ (t.ctx core c).stopped = (s.ctx core c).stopped ∧
        (t.ctx core c).recs = (s.ctx core c).recs.map (fun q => if q = r then { q with passed := true } else q)) ∧
    (∀ p sl j r w0 w1 s1, (s.core core).job (s.strand core p sl).gang = some j → s.retiredRec core j.ctx = some r → r.inst = some j.id →
      fieldNat r.status 55 52 = (s.strand core p sl).index → r.eidx = p →
      ∀ (pc : Word) (here : List Nat), pc = ((s.strand core p sl).lane (fieldNat r.status 51 47)).pc → here = (s.strand core p sl).lanesAt pc →
      s.fetchLane core p (s.strand core p sl).gang (maskClass false here) pc = .ok (w0, w1, s1) → here ≠ [] →
      (∀ l ∈ here, ((s.strand core p sl).lane l).issuable (passRetiredLaneOpcode w0 w1) = true) →
      vOk (s.strand core p sl).nregs (fieldNat w0 20 14, false) = true →
      ∃ t, exec (.retiredOpEmulation core (.strand p sl) true) s = .next t ∧
        (∀ l ∈ here, (t.lane core p sl l).pc = pc + BitVec.ofNat 64 (laneSize w0)) ∧
        (t.ctx core j.ctx).recs = (s.ctx core j.ctx).recs.erase r ∧ (t.space r.asid).emulated = (s.space r.asid).emulated + 1 ∧
        ∃ j', (t.core core).job j.id = some j' ∧ j'.err = false) ∧
    (∀ c r b s1 n f e s2 pc late, s.retiredRec core c = some r → r.inst = none → s.fetchBundle core c r.pc = .ok (b, s1) →
      retiredFigure b (s.ctx core c) = some (n, f) → e = s.figEntry (s.ctx core c).asid n → entryKind e = 3 →
      issueRoutine n e f ⟨core, c, s.ctx core c, 2, b.lend, false, s1⟩ s1 = .ok s2 pc late →
      ∃ t, exec (.retiredOpEmulation core (.ctx c) true) s = .next t ∧ (t.ctx core c).wait = .emulated (s.core core).nextJob ∧
        (t.ctx core c).skip = 2 :: (s.ctx core c).skip ∧ (t.ctx core c).pc = (s.ctx core c).pc)

/-- 11 R256 to R258, 15 R317, 16 R332, R333, R338, R342, 22 R414: what happens in memory and translation of itself. Of the model's own readings and choices (NOTES.md) it rests on log 9, 39, 54. -/
def Obligations.MemoryRows : Prop :=
  ∀ (s : State),
    (∀ core n i w, pendingWrite (s.core core).writes 0 n = some i → (s.core core).writes[i]? = some w →
      (∀ x ∈ (s.core core).writes.drop (i + 1), x.addr = w.addr → x.arrived = true) → s.writeDropped w.addr = false →
      ∃ t, exec (.writeArrival core n) s = .next t ∧ t.mem.byte w.addr = w.val ∧ (∀ a, a ≠ w.addr → t.mem.byte a = s.mem.byte a) ∧
        (t.core core).writes = (s.core core).writes.set i { w with arrived := true } ∧ ∀ k, (t.core k).snapshot = (s.core k).snapshot) ∧
    (∀ core n ph, (s.core core).phases[n]? = some ph →
      (∃ t, exec (.phaseComplete core n) s = .next t ∧ (t.core core).phases.map (fun q => { q with old := [] }) = ((s.core core).phases.eraseIdx n).map (fun q => { q with old := [] }) ∧
        (ph.snap = false → (t.core core).phases = (s.core core).phases.eraseIdx n) ∧
        (∀ c, ph.who = .ctx c → (s.ctx core c).wait = .phase → (t.ctx core c).wait = .none) ∧
        (ph.pub = false → t.mem = s.mem) ∧ (ph.snap = false → (t.core core).snapshot = (s.core core).snapshot)) ∧
      (ph.pub = true → ph.snap = false → (∀ w ∈ (s.core core).writes, s.writeDropped w.addr = false) →
        ∃ t, exec (.phaseComplete core n) s = .next t ∧ (∀ w ∈ (t.core core).writes, w.arrived = true) ∧
          ∀ a, t.mem.byte a = (newestWrite ((s.core core).writes.filter (fun w => !w.arrived)) a).getD (s.mem.byte a)) ∧
      (ph.pub = false → ph.snap = true → ∃ t, exec (.phaseComplete core n) s = .next t ∧
        (t.core core).writes = (s.core core).writes.filter (fun w => !w.arrived) ∧
        ∀ a, (t.core core).snapshot.byte a = s.mem.byte a ∨
          ((∀ w ∈ (s.core core).writes, w.addr ≠ a) ∧ (t.core core).snapshot.byte a = ph.old.byte a))) ∧
    (∀ core asid va, core < 288 → va.toNat < 2 ^ 54 → (s.space asid).ptbase.toNat % 2 = 1 → (s.core core).tlbFind asid va.toNat = none →
      (∀ w, s.walk asid va.toNat = .ok w → ∃ t, exec (.tlbMissWalk core asid va) s = .next t ∧
        (t.core core).tlbFind asid va.toNat = some ⟨asid, va.toNat / 2 ^ w.bits * 2 ^ w.bits, w.bits, w.pte ||| 0x80⟩ ∧
        t.mem.read w.at_ 8 = (w.pte ||| 0x80).toNat ∧ ∀ a, a < w.at_ ∨ w.at_ + 8 ≤ a → t.mem.byte a = s.mem.byte a) ∧
      (∀ e, s.walk asid va.toNat = .error e → exec (.tlbMissWalk core asid va) s = .next s)) ∧
    (∀ i v, s.tlbBusy = false → sysValueOk 0x208 v = true → ∃ t, exec (.tlbinvWrite i v) s = .next t ∧
      t.tlbBusy = decide (v.toNat % 2 = 1) ∧ t.tlbinvAsid = s.asselOf i ∧ t.tlbinv.toNat / 2 % 4 = v.toNat / 2 % 4 ∧
      t.tlbinv.toNat / 2 ^ 15 % 2 ^ 39 = v.toNat / 2 ^ 15 % 2 ^ 39 ∧ t.cores = s.cores ∧ t.mem = s.mem) ∧
    (s.tlbBusy = true → ∃ t, exec .tlbinvComplete s = .next t ∧ t.tlbBusy = false ∧ t.mem = s.mem ∧
      ∀ k e, e ∈ (t.core k).tlb ↔ e ∈ (s.core k).tlb ∧ s.tlbCovers e = false) ∧
    (∀ i (dbg : Bool) v, sysValueOk (if dbg then 0x205 else 0x204) v = true → ∃ t, exec (.trapringWrite i dbg v) s = .next t ∧
      (if dbg then (t.space (s.asselOf i)).dbgring = v ∧ (t.space (s.asselOf i)).seqD = 0
        else (t.space (s.asselOf i)).trapring = v ∧ (t.space (s.asselOf i)).seqT = 0) ∧
      t.cores = s.cores ∧ t.mem = s.mem ∧ ∀ a, a ≠ s.asselOf i → t.space a = s.space a) ∧
    (∀ a, s.phys a = .tierH ∨ s.phys a = .tierC → ∃ t, exec (.softError (.line a)) s = .next t ∧ t.mem = s.mem ∧
      ∀ b, t.lineBad b = (s.lineBad b || b / 64 == a / 64)) ∧
    (∀ k off, k < 288 → 0x1000 ≤ off → off < 0x800000 → ∃ t, exec (.softError (.landing k off)) s = .next t ∧ sameMemory s t ∧
      (t.core k).landBad off 1 = true) ∧
    (∀ k p off, k < 288 → p < 4 → ∃ t, exec (.softError (.operandBuffer k p off)) s = .next t ∧ sameMemory s t ∧
      off ∈ (t.part k p).badObuf) ∧
    (∀ k p z row, k < 288 → p < 4 → z < 8 → row < 128 → ∃ t, exec (.softError (.accumulator k p z row)) s = .next t ∧ sameMemory s t ∧
      z * 128 + row ∈ (t.part k p).badAcc) ∧
    (∀ p, p < 2 → (∃ t, exec (.pcieLinkDown p false) s = .next t ∧ (t.port p).down = true ∧ t.mem = s.mem ∧
      ∀ a, s.phys a = .host p → t.lineBad a = true ∧ t.writeDropped a = true) ∧
      ((Tab.get s.purser.steps default 3).units = 0 → s.purser.mode ≠ 1 → ∃ t, exec (.pcieLinkDown p true) s = .next t ∧
        (t.port p).down = false ∧ t.mem = s.mem))

/-- 10 R245 to R248: a slot fires once when its condition holds, and not before; a TIMER slot when its clock has reached the
threshold; EVPOST posts the slots armed with SOFT that no evarm or evdis of the cycle has acted on. What fires in a cycle is
pending in the next (`coming`). -/
def Sys2Proof.Claim.EventSlotRows : Prop :=
  ∀ (s : State) (core : Nat) (w : Waiter) (j : Nat) (e : EvSlot), e = (s.evOf core w).slotAt j → s.isWaiter core w = true →
    (j < 16 → e.armed = true → e.spent = false →
      ((e.src = 1 ∧ serialReached ((s.core core).chan (e.index % 4)).wm e.thr.toNat = true) ∨
        (e.src = 2 ∧ e.thr.toNat ≤ (counter s core (e.index / 8)).toNat) ∨
        (e.src = 3 ∧ e.thr.toNat ≤ (Tab.get (s.core core).mbox 0 e.index).toNat) ∨
        (e.src = 7 ∧ (s.noticeOf e.thr).isSome = true) ∨
        (∃ c t, w = .ctx c ∧ (s.ctx core c).task = some t ∧ ((e.src = 6 ∧ e.thr.toNat ≤ (s.task t).mergedN) ∨
          (e.src = 0 ∧ serialReached (s.tbarCount core c) e.thr.toNat = true))) ∨
        (∃ p sl, w = .strand p sl ∧ e.src = 0 ∧
          serialReached ((s.part core p).barrier (s.strand core p sl).gang e.index).count e.thr.toNat = true) →
        ∃ t, exec (.eventFire core w j) s = .next t ∧ sameMemory s t ∧ (t.evOf core w).coming.getLsbD j = true ∧ (t.evOf core w).pend = (s.evOf core w).pend ∧
          (t.evOf core w).slotAt j = { e with spent := true } ∧
          (∀ i, i ≠ j → (t.evOf core w).slotAt i = (s.evOf core w).slotAt i ∧ (t.evOf core w).coming.getLsbD i = (s.evOf core w).coming.getLsbD i)) ∧
      ((e.src = 2 ∧ (counter s core (e.index / 8)).toNat < e.thr.toNat) ∨
        (e.src = 3 ∧ (Tab.get (s.core core).mbox 0 e.index).toNat < e.thr.toNat) ∨ e.src = 4 ∨ e.src = 5 ∨ e.src = 8 →
        exec (.eventFire core w j) s = .fault .notEnabled) ∧
      (e.src = 5 → ∀ now, now = (if e.index = 0 then s.devtime else s.cycle) →
        (e.thr.toNat ≤ now → ∃ t, exec (.timerSlotExpiry core w j) s = .next t ∧ sameMemory s t ∧
          (t.evOf core w).coming.getLsbD j = true ∧ (t.evOf core w).slotAt j = { e with spent := true }) ∧
        (now < e.thr.toNat → exec (.timerSlotExpiry core w j) s = .fault .notEnabled))) ∧
    (e.armed = false ∨ e.spent = true → exec (.eventFire core w j) s = .fault .notEnabled) ∧
    (∀ v : Word, ∃ t, exec (.evpostWrite core w v) s = .next t ∧ sameMemory s t ∧ (t.evOf core w).pend = (s.evOf core w).pend ∧ ∀ i < 16, (t.evOf core w).coming.getLsbD i =
      ((s.evOf core w).coming.getLsbD i || (v.getLsbD i && !(s.evOf core w).acted.getLsbD i && ((s.evOf core w).slotAt i).armed && ((s.evOf core w).slotAt i).src == 8)))

/-- 05 R117, R118, 08 R199 to R201, 10 R250, R252: a waiter at rest enters the handler of the lowest slot that qualifies; an
occurrence at a saved context reaches its save area. -/
def Sys2Proof.Claim.HandlerRows : Prop :=
  ∀ (s : State) (core : Nat) (j : Nat),
    (∀ ctx c resume list, c = s.ctx core ctx → c.running = true → c.stopped = false → c.preStop = none → c.skip = [] → c.ev.inh = false →
      c.issued ≠ s.cycle + 1 → (s.core core).bundleHeld ctx = false → (∀ q ∈ (s.core core).jobs, q.ctx = ctx → q.redo = false) →
      (c.wait = .twany list resume ∨ ((c.wait = .none ∨ c.wait = .sync ∨ c.wait = .released ∨ ∃ k, c.wait = .tbar k) ∧
        list = c.ev.asyncMask ∧ resume = c.pc)) →
      j < 16 → (c.ev.ready list).getLsbD j = true → (∀ i < j, (c.ev.ready list).getLsbD i = false) →
      ∃ t, exec (.handlerEntry core ctx) s = .next t ∧ sameMemory s t ∧ (t.ctx core ctx).pc = (c.ev.slotAt j).handler ∧
        (t.ctx core ctx).ev.pc = resume ∧ (t.ctx core ctx).ev.inh = true ∧ (t.ctx core ctx).ev.slot = j ∧
        (t.ctx core ctx).ev.pend.getLsbD j = false ∧ (t.ctx core ctx).wait = .none ∧
        (∀ r, r < 56 → (t.ctx core ctx).getX r = c.getX r) ∧
        (∀ r, 56 ≤ r → r < 64 → (t.ctx core ctx).getX r = Tab.get c.shX 0 r ∧ Tab.get (t.ctx core ctx).shX 0 r = c.getX r)) ∧
    (∀ ctx, (s.ctx core ctx).ev.inh = true ∨ (s.ctx core ctx).stopped = true ∨ (s.ctx core ctx).preStop ≠ none →
      exec (.handlerEntry core ctx) s = .fault .notEnabled) ∧
    (∀ part slot st resume list, st = s.strand core part slot → (Tab.find (s.part core part).strands slot).isSome = true →
      st.stopped = false → st.finished = false → st.ev.inh = false →
      ((∃ l, st.lanes.find? (fun l => !l.2.exited && l.2.wait == .wany) = some l ∧ list = st.listW ∧ resume = l.2.pc) ∨
        ((∀ l ∈ st.lanes, l.2.wait ≠ .wany ∨ l.2.exited = true) ∧ s.restPc core part slot st = some resume ∧ list = st.ev.asyncMask)) →
      j < 16 → (st.ev.ready list).getLsbD j = true → (∀ i < j, (st.ev.ready list).getLsbD i = false) →
      ∃ t, exec (.strandHandlerEntry core part slot) s = .next t ∧ sameElse s t ∧ (t.strand core part slot).ev.pc = resume ∧
        (t.strand core part slot).ev.inh = true ∧ (t.strand core part slot).ev.slot = j ∧
        (t.strand core part slot).ev.pend.getLsbD j = false ∧
        (∀ i < 4, (t.strand core part slot).getS (28 + i) = Tab.get st.shS 0 (28 + i)) ∧
        ∀ l, Tab.find st.lanes l ≠ none → (st.lane l).exited = false → ((t.strand core part slot).lane l).pc = (st.ev.slotAt j).handler ∧
          ((t.strand core part slot).lane l).wait = .none) ∧
    (∀ task i, (s.task task).tierDue.find? (fun e => e.2 == j) = some (i, j) → j < 16 →
      (∀ b < 8, s.writeDropped (s.partBase task i + 0x2C0 + b) = false) →
      ∃ t, exec (.savedTierDelivery task j) s = .next t ∧ t.mem.read (s.partBase task i + 0x2C0) 8 =
          s.mem.read (s.partBase task i + 0x2C0) 8 ||| 2 ^ j ∧
        (∀ a, a < s.partBase task i + 0x2C0 ∨ s.partBase task i + 0x2C8 ≤ a → t.mem.byte a = s.mem.byte a) ∧
        (t.task task).tierDue = (s.task task).tierDue.erase (i, j))

/-- 09 R227, R234, R235, R239, 16 R345: a channel starts its next transfer; a transfer that meets no sufficient translation
halts its channel with a replayable record; a decode error or uncorrectable data halts it and stops the issuing
context; a page has moved or has not. -/
def Sys2Proof.Claim.FerryChannelRows : Prop :=
  ∀ (s : State) (core ch : Nat),
    (∀ c slot, (s.chan core ch).halt = false → (s.core core).startable (s.chan core ch).cmds = some (c, slot) →
      ∃ t tr, exec (.transferStart core ch) s = .next t ∧ sameMemory s t ∧ (t.chan core ch).active = (s.chan core ch).active ++ [tr] ∧
        tr.num = (c.first + c.begun) % 2 ^ 32 ∧ tr.slot = slot ∧ tr.cmd.desc = c.desc) ∧
    ((s.chan core ch).halt = true → exec (.transferStart core ch) s = .fault .notEnabled ∧
      exec (.ferryPageFault core ch) s = .fault .notEnabled ∧ exec (.ferryHaltError core ch) s = .fault .notEnabled) ∧
    (∀ tr r q, (s.chan core ch).halt = false →
      s.endingTransfer core ch (fun e => match e with | .page _ => true | _ => false) = some (tr, r, .page q) →
      ∃ t rec, exec (.ferryPageFault core ch) s = .next t ∧ (t.chan core ch).halt = true ∧ (t.chan core ch).halted = some tr.num ∧
        (t.chan core ch).cause = 1 ∧ (t.chan core ch).frec = some rec ∧ rec.cls = q.cls ∧ rec.addr = q.addr ∧ rec.replay = true ∧
        rec.engine = 3 ∧ rec.eidx = ch ∧ rec.pc = tr.cmd.pc ∧ rec.nrec = 0 ∧ rec.last = true ∧ t.mem = r.s.mem ∧
        (∀ c, (t.ctx core c).stopped = (r.s.ctx core c).stopped) ∧
        ∀ d ∈ (r.s.chan core ch).active, d.num = tr.num → ∃ d' ∈ (t.chan core ch).active, d'.num = tr.num ∧ d'.done = r.done) ∧
    (∀ tr r cls addr det, (s.chan core ch).halt = false →
      s.endingTransfer core ch (fun e => match e with | .bad .. => true | _ => false) = some (tr, r, .bad cls addr det) →
      ∃ t, exec (.ferryHaltError core ch) s = .next t ∧ (t.chan core ch).halt = true ∧ (t.chan core ch).halted = some tr.num ∧
        (t.chan core ch).cause = (if cls = .format then 2 else 3) ∧ (t.chan core ch).frec = none ∧ t.mem = r.s.mem ∧
        (∀ q ∈ (t.chan core ch).active, numBefore q.num tr.num = true) ∧
        ((r.s.ctx core tr.cmd.ctx).task = tr.cmd.task → (r.s.ctx core tr.cmd.ctx).recs.length < 8 →
          (t.ctx core tr.cmd.ctx).stopped = true ∧ ∃ rec ∈ (t.ctx core tr.cmd.ctx).recs, rec.cls = cls ∧ rec.addr = addr ∧ rec.engine = 3 ∧
            rec.eidx = ch ∧ rec.pc = tr.cmd.pc ∧ rec.replay = false)) ∧
    (∀ tr p, (s.chan core ch).active.findSome? (fun t => t.cmd.fpage.map (fun p => (t, p))) = some (tr, p) →
      ∃ t, exec (.fpageComplete core ch) s = .next t ∧ (∀ q ∈ (t.chan core ch).active, q.num ≠ tr.num) ∧
        (∀ e, s.walk tr.cmd.asid p.1 = .error e → (t.chan core ch).pgres = 3 ∧ t.mem = s.mem) ∧
        (∀ w, s.walk tr.cmd.asid p.1 = .ok w →
          (w.bits ≠ 15 → (t.chan core ch).pgres = 4 ∧ t.mem = s.mem) ∧
          (w.bits = 15 → natField w.pte.toNat 4 4 = p.2 → (t.chan core ch).pgres = 1 ∧ t.mem = s.mem)) ∧
        (t.chan core ch).pgres < 5)

namespace Sys2Proof.Claim

/-- The pool of a die is full, contexts of it are parked at spawn, every other that holds a task waits in sync, and no task
of the pool would fit, or would leave it, were the parked tasks saved (14 R307). -/
def deadlocked (s : State) (die : Nat) : Prop :=
  2048 ≤ (s.die die).pool.length ∧ (∃ e ∈ s.dieCtxs die, (s.ctx e.1 e.2).parked = true) ∧
  (∀ e ∈ s.dieCtxs die, (s.ctx e.1 e.2).parked = true ∨ (s.ctx e.1 e.2).wait = .sync) ∧
  ∀ c ∈ (s.die die).pool, ∀ z, z = (s.withParkedSaved die).examine c →
    (z.task c).malformed = false ∧ z.neverFits (z.task c) die = false ∧ z.fitsDie (z.task c) die none = none

end Sys2Proof.Claim

/-- 05 R111, 11 R259, 14 R296 to R301, R310: a step starts on the context that became free first, with the registers that the
rule gives and a new snapshot; a
step ends with its publication, and the last step of a launched task completes it; a release from sync opens a new
epoch. -/
def Sys2Proof.Claim.StepRows : Prop :=
  ∀ (s : State) (core ctx t : Nat), (s.ctx core ctx).task = some t → (s.task t).troupe = false →
    ((s.task t).moreSteps = true → ((s.task t).nview = 0 ∨ (s.task t).viewsOk = true) →
      (core, ctx) ∈ (s.task t).places → (s.ctx core ctx).freeFor t = true → (s.ctx core ctx).freeAt < s.cycle →
      (∀ e ∈ (s.task t).places, (s.ctx e.1 e.2).freeFor t = true → (s.ctx e.1 e.2).freeAt < s.cycle → e = (core, ctx) ∨
        (s.ctx core ctx).freeAt < (s.ctx e.1 e.2).freeAt ∨ ((s.ctx core ctx).freeAt = (s.ctx e.1 e.2).freeAt ∧ ctx < e.2)) →
      ∃ z, exec (.stepStart core ctx) s = .next z ∧ z.mem = s.mem ∧ (z.core core).snapshot = s.mem ∧
        (z.ctx core ctx).running = true ∧ (z.ctx core ctx).pc = BitVec.ofNat 64 ((s.task t).field 0 53 0) ∧ (z.ctx core ctx).c = 0 ∧
        (∀ r, (z.ctx core ctx).full r = true ∧ (z.ctx core ctx).getX r =
          if 1 ≤ r ∧ r ≤ 8 then BitVec.ofNat 64 ((s.task t).words.read (8 * (7 + r)) 8) else 0) ∧
        (∀ d < 6, Tab.get (z.ctx core ctx).ireg 0 d = BitVec.ofNat 64 ((s.task t).stepPos (s.task t).nextStep d)) ∧
        (z.ctx core ctx).ev = EvState.init ∧ (z.ctx core ctx).wait = .none ∧ (z.task t).nextStep = (s.task t).nextStep + 1 ∧
        (z.task t).running = (s.task t).running + 1 ∧ ∀ c, c ≠ ctx → z.ctx core c = s.ctx core c) ∧
    (∀ kind, (s.ctx core ctx).wait = .stepEnd kind → (s.ctx core ctx).running = true → (s.ctx core ctx).stopped = false →
      (s.ctx core ctx).preStop = none → s.stepQuiet core ctx = true → s.allMerged t = true →
      (((s.task t).running ≠ 1 ∨ (s.task t).moreSteps = true) → (s.task t).running ≠ 0 →
        ∃ z, exec (.stepEnd core ctx) s = .next z ∧ (z.ctx core ctx).running = false ∧ (z.ctx core ctx).wait = .none ∧
          (z.ctx core ctx).task = some t ∧ (z.task t).running = (s.task t).running - 1 ∧ (z.task t).complete = (s.task t).complete ∧
          ∀ w ∈ (z.core core).writes, w.arrived = true) ∧
      ((s.task t).running = 1 → (s.task t).moreSteps = false → (core, ctx) ∈ (s.task t).places →
        ∃ z, exec (.stepEnd core ctx) s = .next z ∧ (z.ctx core ctx).task = none ∧
          ((s.task t).parent = none → (z.task t).complete = true))) ∧
    ((s.ctx core ctx).wait = .sync → (s.ctx core ctx).stopped = false → (s.ctx core ctx).preStop = none → s.allMerged t = true →
      (core, ctx) ∈ (s.task t).places → ∃ z, exec (.syncRelease core ctx) s = .next z ∧ z.mem = s.mem ∧ (z.core core).snapshot = s.mem ∧
        (∀ e ∈ (s.task t).places, (s.ctx e.1 e.2).wait = .sync → (s.ctx e.1 e.2).stopped = false → (s.ctx e.1 e.2).preStop = none →
          (z.core e.1).snapshot = s.mem) ∧
        (z.task t).epoch = (s.task t).spawned + 1 ∧ ∀ e ∈ (s.task t).places, (z.ctx e.1 e.2).wait =
          if (s.ctx e.1 e.2).wait = .sync ∧ (s.ctx e.1 e.2).stopped = false ∧ (s.ctx e.1 e.2).preStop = none then .released
          else (s.ctx e.1 e.2).wait)

/-- 14 R300 to R303, 22 R417, R418: a launch record is taken; a dispatcher fails a bad head, or starts the first that fits;
a stagger ends. -/
def Sys2Proof.Claim.DispatchRows : Prop :=
  ∀ (s : State),
    (∀ queue q a n, q = s.queue queue → q.qctl.toNat / 2 ^ 63 % 2 = 1 → q.qhead ≠ q.qtail →
      a = natField q.qbase.toNat 47 12 * 4096 + 64 * (q.qhead % 2 ^ natField q.qctl.toNat 39 35) → n = s.mem.read a 64 →
      (launchBad n = false → s.lineBad a = false →
        ∃ t la, exec (.launchRecordTake queue) s = .next t ∧ t.mem = s.mem ∧ (t.queue queue).qhead = (q.qhead + 1) % 2 ^ 32 ∧
          Tab.find t.launches s.nextLaunch = some la ∧ la.queue = queue ∧ la.topba = BitVec.ofNat 64 (launchField n 0 53 0) ∧
          la.ntask = launchField n 1 19 0 ∧ la.stagger = launchField n 1 47 32 ∧ la.diemask = launchField n 1 63 56 ∧
          la.lctr = BitVec.ofNat 64 (launchField n 2 53 0) ∧ la.started = 0 ∧ la.asid = natField q.qctl.toNat 55 40 ∧
          la.pri = natField q.qctl.toNat 58 56 ∧ t.nextLaunch = s.nextLaunch + 1) ∧
      (launchBad n = true ∨ s.lineBad a = true → ∃ t, exec (.launchRecordTake queue) s = .next t ∧
        (s.lineBad a = true ∨ launchField n 2 53 0 = 0 → t.mem = s.mem) ∧
        (t.queue queue).qhead = (q.qhead + 1) % 2 ^ 32 ∧ (t.queue queue).qdone = q.qdone + 1 ∧ (t.queue queue).nfail = q.nfail + 1 ∧
        (t.queue queue).cause = 5)) ∧
    (∀ queue, (s.queue queue).qctl.toNat / 2 ^ 63 % 2 = 0 ∨ (s.queue queue).qhead = (s.queue queue).qtail →
      exec (.launchRecordTake queue) s = .fault .notEnabled) ∧
    (∀ die s1, s1 = s.examineHeads die →
      (∀ h, (s1.openHeads die).find? (fun h => s1.headCause die h != 0) = some h → h.kind = 2 →
        ∃ t, exec (.taskDispatch die) s = .next t ∧ (t.task h.task).complete = true ∧ (t.task h.task).failure = true) ∧
      (∀ h ps gs, (∀ x ∈ s1.openHeads die, s1.headCause die x = 0) → s1.chooseHead die (s1.openHeads die) = some (h, ps) → h.kind ≠ 0 →
        s1.headFits die h = some gs → ∃ t, exec (.taskDispatch die) s = .next t ∧ (t.task h.task).started = true ∧
          (t.task h.task).places = gs.flatMap (fun g => g.2.map (fun c => (g.1, c.1))) ∧
          ∀ g ∈ gs, ∀ c ∈ g.2, (t.ctx g.1 c.1).task = some h.task ∧ (t.ctx g.1 c.1).running = false ∧
            (t.ctx g.1 c.1).pri = (s1.task h.task).pri ∧ (t.ctx g.1 c.1).asid = (s1.task h.task).asid)) ∧
    (∀ die launch e, e ∈ (s.die die).stagger → e.1 = launch → e.2 ≤ s.cycle →
      ∃ t, exec (.staggerExpiry die launch) s = .next t ∧ t.mem = s.mem ∧ t.cores = s.cores ∧
        ∀ x, x ∈ (t.die die).stagger ↔ x ∈ (s.die die).stagger ∧ ¬ (x.1 = launch ∧ x.2 ≤ s.cycle))

/-- 05 R112, R113, 14 R305, R307: a parked spawn issues once the pool has room; the answer to spawn.nb arrives: the
spawn index and a clear condition bit, or 0 and a set one; a die in which no
spawn can go on traps every parked context. -/
def Sys2Proof.Claim.SpawnRows : Prop :=
  ∀ (s : State),
    (∀ die ready, ready = (s.dieCtxs die).filter (fun e => (s.ctx e.1 e.2).parked && !(s.ctx e.1 e.2).stopped &&
        (s.ctx e.1 e.2).preStop.isNone && (s.ctx e.1 e.2).issued != s.cycle + 1 && decide ((s.ctx e.1 e.2).busy ≤ s.cycle) &&
        s.callerFree e.1 && s.poolRoom die ((s.ctx e.1 e.2).task.getD 0)) →
      (ready ≠ [] → ∃ t, exec (.spawnUnpark die) s = .next t) ∧
      (∀ e z, ready = [e] → z = ((({ s with fresh := s.fresh + 1 } : State).modCtx e.1 e.2 (fun x => { x with wait := .none })).issueCtx e.1 e.2).1 →
        ∃ t, exec (.spawnUnpark die) s = .next t ∧ t.mem = z.mem ∧ t.dies = z.dies ∧ ∀ k c, t.ctx k c = z.ctx k c) ∧
      (ready = [] → exec (.spawnUnpark die) s = .fault .notEnabled)) ∧
    (∀ core ctx r n, (s.ctx core ctx).results.find? (fun r => r.spawn.isSome) = some r →
      r.reg ≠ 0 → r.reg < 56 → r.cbit = some n → n < 15 → n ≠ 7 →
        ∃ z, exec (.spawnAnswer core ctx) s = .next z ∧ z.mem = s.mem ∧ z.tasks = s.tasks ∧ z.dies = s.dies ∧
          (z.ctx core ctx).getX r.reg = r.value ∧ r.reg ∉ (z.ctx core ctx).empty ∧ r.reg ∈ (z.ctx core ctx).late ∧
          (z.ctx core ctx).getC n = decide (r.value = 0) ∧ (z.ctx core ctx).results = (s.ctx core ctx).results.erase r ∧
          (z.ctx core ctx).pc = (s.ctx core ctx).pc ∧ ∀ x, x ≠ r.reg → (z.ctx core ctx).getX x = (s.ctx core ctx).getX x) ∧
    (∀ core ctx, (∀ r ∈ (s.ctx core ctx).results, r.spawn = none) → exec (.spawnAnswer core ctx) s = .fault .notEnabled) ∧
    (∀ die, deadlocked s die → (∀ e ∈ s.tasks, e.2.swapped = false) →
      ∃ t, exec (.spawnDeadlockDetect die) s = .next t ∧ t.mem = s.mem ∧ ∀ e ∈ s.dieCtxs die, ∀ slot,
        (s.ctx e.1 e.2).wait = .spawnPark slot → (s.ctx e.1 e.2).recs.length < 8 → (t.ctx e.1 e.2).stopped = true ∧
          (t.ctx e.1 e.2).wait = .none ∧ ∃ r ∈ (t.ctx e.1 e.2).recs, r.cls = .spawnDeadlock ∧ r.slot = slot ∧ r.pc = (s.ctx e.1 e.2).pc)

/-- 14 R308 to R315: the merge unit fills a backing with the identity of its operator; it combines a child's backing with
its target, granule by granule; a child that has merged is complete and counted. -/
def Sys2Proof.Claim.MergeRows : Prop :=
  ∀ (s : State) (task : Nat) (tk : Task), tk = s.task task →
    (tk.started = true → tk.complete = false → tk.viewsOk = false → tk.saved = [] →
      (∃ t, exec (.viewFill task) s = .next t) ∧
      (tk.nview = 1 → tk.viewSpace 0 = true → 0x1000 ≤ tk.viewBack 0 → tk.viewBack 0 + tk.viewLen 0 ≤ 0x800000 →
        tk.viewLen 0 % 128 = 0 → ∃ t, exec (.viewFill task) s = .next t ∧ t.mem = s.mem ∧ (t.task task).viewsOk = true ∧
          ∀ i < tk.viewLen 0 / 8, (t.core tk.lastCore).landing.read (tk.viewBack 0 + 8 * i) 8 =
            identOf tk.mop (tk.field 19 63 0) % 2 ^ 64)) ∧
    (∀ p, tk.parent = some p → tk.merged = false →
      (tk.failedC = true → s.treeDone tk = true → p ≠ task → ∃ t, exec (.childMerge task) s = .next t ∧ t.mem = s.mem ∧
        t.cores = s.cores ∧ (t.task task).merged = true ∧ (t.task p).mergedN = (s.task p).mergedN + 1) ∧
      (tk.failedC = false → tk.endedMerge = true → tk.mstop = false → (s.task p).failure = false → s.treeDone tk = true →
        s.mergeTarget tk tk.position 13 = some none → tk.minst = none →
        s.mergeHeld task none = false →
        (tk.nview ≤ tk.mview → ∃ t, exec (.childMerge task) s = .next t ∧ (t.task task).merged = true ∧ (t.task task).complete = true) ∧
        (∀ sg s1 sb tg s2 tb, tk.mview < tk.nview → tk.mop ≠ 7 →
          s.granule tk (tk.viewSpace tk.mview) tk.lastCore (tk.viewBack tk.mview + 128 * tk.mgran) .read = .ok (sg, s1) →
          s1.granuleRead sg = some sb →
          s1.targetGranule task none = .ok (tg, s2) →
          s2.granuleRead tg = some tb →
          exec (.childMerge task) s = .next (s2.commitGranule task tg (mergeOp tk.mop tb sb).1 (mergeOp tk.mop tb sb).2)) ∧
        (∀ c, tk.mview < tk.nview → tk.mview < 4 → tk.spawnIx < 4096 → tk.mgran < 2 ^ 24 →
          s.granule tk (tk.viewSpace tk.mview) tk.lastCore (tk.viewBack tk.mview + 128 * tk.mgran) .read = .error c →
          ∃ t, exec (.childMerge task) s = .next t ∧ (t.task task).mstop = true ∧
            ∃ st, (t.task task).mstat = some st ∧ st.toNat / 2 ^ 60 = c)))


namespace Sys2Proof.Claim

/-- The eight words of a trap record (16 R340). -/
def recordWords (r : TrapRec) (asid seq nrec : Nat) (last : Bool) : List Nat :=
  [asid * 2 ^ 32 + (if last then 2 ^ 25 else 0) + nrec * 2 ^ 22 + (if r.replay then 2 ^ 21 else 0) + (if r.inh then 2 ^ 20 else 0) +
      r.privl * 2 ^ 18 + r.eidx * 2 ^ 12 + r.engine * 2 ^ 8 + r.cls.code,
   seq % 2 ^ 32 * 2 ^ 32 + r.ctxid, r.slot * 2 ^ 48 + r.cmd % 2 ^ 48, r.pc.toNat, r.addr.toNat, r.status.toNat, r.topb.toNat % 2 ^ 54,
   r.time % 2 ^ 64]

/-- The ring a record goes to, its SEQ, and the address of its slot (16 R342). -/
def ringWord (s : State) (r : TrapRec) (dbg : Bool) : Nat := (if dbg then (s.space r.asid).dbgring else (s.space r.asid).trapring).toNat
def ringSeq (s : State) (r : TrapRec) (dbg : Bool) : Nat := if dbg then (s.space r.asid).seqD else (s.space r.asid).seqT
def ringSlot (s : State) (r : TrapRec) (dbg : Bool) : Nat :=
  natField (ringWord s r dbg) 47 12 * 4096 + ringSeq s r dbg % 2 ^ natField (ringWord s r dbg) 63 59 * 64

/-- A `brk` record goes to DBGRING while ASCTL.DBG is set; every other goes to TRAPRING. -/
def goesToDebug (s : State) (r : TrapRec) : Bool :=
  r.cls == .break_ && r.status.toNat / 65536 % 2 == 0 && (s.space r.asid).asctl.toNat / 2 % 2 == 1

/-- What an issuer reads of TRESUME: RESULT (16 R344). -/
def resumeResult (s : State) (i : Issuer) : Nat :=
  match i with
  | .host p => (s.port p).result
  | .ctx k c => (match s.resumeRes.find? (fun e => e.1 == .ctx k c) with | some e => e.2 | none => 0)
  | .strand k p sl => (match s.resumeRes.find? (fun e => e.1 == .strand k p sl) with | some e => e.2 | none => 0)

/-- A write of TRESUME names an outstanding record. -/
abbrev names (v : Word) (r : TrapRec) : Prop := r.seq = some (fieldNat v 59 28) ∧ r.ctxid = fieldNat v 17 0 ∧ r.answer = none

/-- The core and context of TRESUME's target, in the layout of 05 R120. -/
abbrev aims (v : Word) (k c : Nat) : Prop := ctxOfId (fieldNat v 17 0) = (k, c)

end Sys2Proof.Claim

/-- 16 R340, R342, R343: the next record of a stop, or a record that stops no context, is written to the free slot of its
ring with its SEQ, NREC and LAST; it waits while the slot is occupied; without a ring the task ends as failed. -/
def Obligations.TrapRecordRows : Prop :=
  ∀ (s : State) (core ctx : Nat), ctx < 8 →
    (∀ r dbg a n, firstUnwritten (s.ctx core ctx).recs = some r → dbg = goesToDebug s r → a = ringSlot s r dbg →
      n = ((s.ctx core ctx).recs.filter (fun q => q.seq.isNone)).length →
      (∀ p ∈ (s.core core).pendingCmds ctx, placeBefore p (r.cmd, r.slot) = false) → (n = 1 → (s.core core).pendingCmds ctx = []) →
      (r.cls = .retiredOp → r.passed = true) →
      (natField (ringWord s r dbg) 63 59 ≠ 0 → s.mem.read a 8 = 0 → (∀ i < 64, s.writeDropped (a + i) = false) →
        ∃ t q, exec (.trapRecordWrite core ctx) s = .next t ∧ q ∈ (t.ctx core ctx).recs ∧
          q = { r with seq := some (ringSeq s r dbg), nrec := writtenInStop (s.ctx core ctx).recs, last := decide (n = 1) } ∧
          (∀ i < 8, t.mem.read (a + 8 * i) 8 =
            (recordWords r r.asid (ringSeq s r dbg) (writtenInStop (s.ctx core ctx).recs) (decide (n = 1))).getD i 0 % 2 ^ 64) ∧
          (∀ b, b < a ∨ a + 64 ≤ b → t.mem.byte b = s.mem.byte b) ∧
          ringSeq t r dbg = (ringSeq s r dbg + 1) % 2 ^ 32 ∧ (t.ctx core ctx).stopped = (s.ctx core ctx).stopped) ∧
      (natField (ringWord s r dbg) 63 59 ≠ 0 → s.mem.read a 8 ≠ 0 → s.writeNotice core ctx = none →
        exec (.trapRecordWrite core ctx) s = .fault .notEnabled) ∧
      (natField (ringWord s r dbg) 63 59 = 0 → ∀ tk, (s.ctx core ctx).task = some tk →
        ∃ t, exec (.trapRecordWrite core ctx) s = .next t ∧ (t.task tk).complete = true ∧ (t.task tk).failure = true)) ∧
    (∀ ch r a, ch < 4 → firstUnwritten (s.ctx core ctx).recs = none → (∀ i < ch, (s.chan core i).frec = none) →
      (s.chan core ch).frec = some r → r.seq = none → r.ctxid = ctxId core ctx → r.cls ≠ .break_ → a = ringSlot s r false →
      natField (ringWord s r false) 63 59 ≠ 0 → s.mem.read a 8 = 0 → (∀ i < 64, s.writeDropped (a + i) = false) →
      ∃ t, exec (.trapRecordWrite core ctx) s = .next t ∧ (t.chan core ch).frec = some { r with seq := some (ringSeq s r false) } ∧
        (∀ i < 8, t.mem.read (a + 8 * i) 8 =
          (recordWords r r.asid (ringSeq s r false) r.nrec r.last).getD i 0 % 2 ^ 64) ∧
        (t.ctx core ctx).stopped = (s.ctx core ctx).stopped)

/-- No fault of the context is held back but that of the record (16 R343). -/
abbrev Sys2Proof.Claim.noneHeld (s : State) (k c : Nat) (r : TrapRec) : Prop :=
  ∀ j ∈ (s.core k).jobs, j.ctx = c → j.parent = none → j.err = true → (r.engine = 1 ∨ r.engine = 2 ∨ r.engine = 4 ∨ r.engine = 7) ∧ r.inst = some j.id

/-- 16 R343, R344: the answers of a stop of one record. RETRY and SKIP reissue the command's bundle; REPLAY lets the engine
operation, the instance or the merge start again; DISCARD restarts the step; ABORT ends the task as failed. An operation whose fault was held back starts again when the stop ends. -/
def Sys2Proof.Claim.TrapAnswers : Prop :=
  ∀ (s : State) (i : Issuer) (v : Word) (k c : Nat) (r : TrapRec), aims v k c → (s.ctx k c).recs = [r] → names v r → r.cls ≠ .savedNotice →
    r.last = true → r.engine ≠ 6 →
    (∀ j, r.engine = 0 → (s.core k).jobs = [j] → j.ctx = c → j.parent = none → j.err = true → (∀ n e, j.kind ≠ .routine n e) →
      ∃ t, exec (.retry i v) s = .next t ∧ (t.core k).jobs = [{ j with started := false, err := false }] ∧ (t.ctx k c).stopped = false) ∧
    (noneHeld s k c r →
    (r.engine = 0 ∨ (r.engine = 3 ∧ r.replay = false) → ∃ t, exec (.retry i v) s = .next t ∧ t.mem = s.mem ∧ resumeResult t i = 0 ∧
      t.ctx k c = { s.ctx k c with recs := [], stopped := false, pc := if r.engine = 0 then r.pc else (s.ctx k c).pc }) ∧
    (r.engine = 0 → ∃ t, exec (.skip i v) s = .next t ∧ t.mem = s.mem ∧ resumeResult t i = 0 ∧
      t.ctx k c = { s.ctx k c with recs := [], stopped := false, pc := r.pc, skip := r.slot :: (s.ctx k c).skip.filter (· != r.slot) }) ∧
    (∀ id j, r.inst = some id → (s.core k).job id = some j → j.parent = none →
      (r.engine = 1 ∨ r.engine = 2 ∨ r.engine = 7 → r.status.toNat / 2 ^ 48 % 2 = 1 →
        (∀ n e, j.kind ≠ .routine n e) → ∃ t, exec (.replay i v) s = .next t ∧ t.mem = s.mem ∧ resumeResult t i = 0 ∧
          (t.core k).job id = some { j with started := false, err := false } ∧ (t.ctx k c).recs = [] ∧ (t.ctx k c).stopped = false) ∧
      (∀ n e, r.engine = 4 → j.kind = .routine n e → ∃ t, exec (.replay i v) s = .next t ∧ resumeResult t i = 0 ∧
        (t.ctx k c).recs = [] ∧ (t.ctx k c).stopped = false ∧ (t.core k).hasGang id = false ∧
        ∃ z, (t.core k).job id = some z ∧ z.started = false ∧ z.err = false ∧ z.gangs = [] ∧ z.done = [] ∧ z.xout = [] ∧ z.copied = j.copied ∧
          z.restarts = min 63 (j.restarts + 1))) ∧
    (∀ id, r.engine = 5 → r.inst = some id → ∃ t, exec (.replay i v) s = .next t ∧ t.mem = s.mem ∧ resumeResult t i = 0 ∧
      (t.task id).mstop = false ∧ (t.ctx k c).recs = [] ∧ (t.ctx k c).stopped = false)) ∧
    (r.engine = 1 ∨ r.engine = 2 ∨ r.engine = 7 → r.status.toNat / 2 ^ 48 % 2 = 0 → r.cls ≠ .break_ →
      ∃ t, exec (.replay i v) s = .next t ∧ t.mem = s.mem ∧ t.cores = s.cores ∧ t.tasks = s.tasks ∧ resumeResult t i = 1) ∧
    (r.engine ≠ 5 → ∀ tk n, (s.ctx k c).task = some tk → (s.task tk).stepOf.find? (fun e => e.1 == k && e.2.1 == c) = some (k, c, n) →
      ∃ t, exec (.discard i v) s = .next t ∧ resumeResult t i = 0 ∧ (t.ctx k c).recs = [] ∧ (t.ctx k c).stopped = false ∧
        (t.ctx k c).pc = BitVec.ofNat 64 ((s.task tk).field 0 53 0) ∧ (t.ctx k c).cmd = 0 ∧ (t.ctx k c).c = 0 ∧
        (t.ctx k c).task = some tk ∧ (∀ j ∈ (t.core k).jobs, j.ctx = c → j.err = true → j.parent = none → False) ∧
        ∀ x, (t.ctx k c).getX x = if 1 ≤ x ∧ x ≤ 8 then BitVec.ofNat 64 ((s.task tk).words.read (8 * (7 + x)) 8) else 0) ∧
    (∀ tk, (s.ctx k c).task = some tk → ∃ t, exec (.abort i v) s = .next t ∧ resumeResult t i = 0 ∧
      (t.task tk).complete = true ∧ (t.task tk).failure = true)

/-- 16 R344, R345, R347: a SEQ that names no record is refused and changes nothing; the answer to a later record is held,
whatever its action; FERRY resumes a halted channel; RESTORE makes a saved task a head of its own, and is refused on another
core than its save area names as ORIGIN while the area says that commands are parked. -/
def Sys2Proof.Claim.TrapAnswerRules : Prop :=
  ∀ (s : State) (i : Issuer) (v : Word) (k c : Nat), aims v k c →
    (s.findRec (fieldNat v 59 28) (fieldNat v 17 0) = none → ∀ f, f ∈ [Instr.retry, .skip, .replay, .discard, .abort, .ferry] →
      ∃ t, exec (f i v) s = .next t ∧ t.mem = s.mem ∧ t.cores = s.cores ∧ t.tasks = s.tasks ∧ t.spaces = s.spaces ∧
        resumeResult t i = 1) ∧
    (∀ r0 r, (s.ctx k c).recs = [r0, r] → r0.answer = none → r0.seq ≠ r.seq → names v r → r.cls ≠ .savedNotice → r.engine = 0 →
      ∀ e ∈ [(Instr.retry, 0), (Instr.skip, 1), (Instr.discard, 3), (Instr.abort, 4)],
        ∃ t, exec (e.1 i v) s = .next t ∧ t.mem = s.mem ∧ t.tasks = s.tasks ∧ resumeResult t i = 2 ∧
          t.ctx k c = { s.ctx k c with recs := [r0, { r with answer := some e.2 }] }) ∧
    (∀ ch r, ch < 4 → (∀ q ∈ (s.ctx k c).recs, ¬ names v q) → (∀ n < ch, (s.chan k n).frec = none) → (s.chan k ch).frec = some r →
      names v r → ∃ t, exec (.ferry i v) s = .next t ∧ t.mem = s.mem ∧ resumeResult t i = 0 ∧
        t.chan k ch = { s.chan k ch with halt := false, halted := none, frec := none } ∧ ∀ x, t.ctx k x = s.ctx k x) ∧
    (∀ asid ix id tk core, fieldNat v 59 44 = 0 → ix = fieldNat v 43 28 → core = fieldNat v 12 7 →
      (∃ sp r, s.spaces = [(asid, sp)] ∧ r ∈ sp.notices ∧ r.cls = .savedNotice ∧ r.seq.isSome = true ∧ r.status.toNat % 65536 = ix) →
      s.tasks = [(id, tk)] → tk.asid = asid → tk.area = some ix → tk.saved ≠ [] → tk.swapped = false → tk.restore = none →
      (∀ i < tk.places.length, natField (s.mem.read (s.partBase id i) 8) 1 1 = 0) →
      (core < 36 ∨ core = 63 → ∃ t, exec (.restore i v) s = .next t ∧ t.mem = s.mem ∧ t.cores = s.cores ∧ resumeResult t i = 0 ∧
        (t.task id).restore = some (fieldNat v 15 13, core) ∧ (t.task id).saved = tk.saved ∧
        ∀ r ∈ (t.space asid).notices, ¬ (r.cls = .savedNotice ∧ r.status.toNat % 65536 = ix)) ∧
      (36 ≤ core → core ≠ 63 → ∃ t, exec (.restore i v) s = .next t ∧ t.tasks = s.tasks ∧ resumeResult t i = 1)) ∧
    (∀ ix asid sp r id tk n, fieldNat v 59 44 = 0 → ix = fieldNat v 43 28 → s.spaces = [(asid, sp)] → r ∈ sp.notices →
      r.cls = .savedNotice → r.seq.isSome = true → r.status.toNat % 65536 = ix → s.tasks = [(id, tk)] → tk.troupe = false →
      n < tk.places.length → natField (s.mem.read (s.partBase id n) 8) 1 1 = 1 →
      ¬ (fieldNat v 12 7 < 36 ∧ fieldNat v 15 13 * 36 + fieldNat v 12 7 = (ctxOfId (natField (s.mem.read (s.partBase id n + 8) 8) 17 0)).1) →
      ∃ t, exec (.restore i v) s = .next t ∧ t.tasks = s.tasks ∧ t.spaces = s.spaces ∧ t.cores = s.cores ∧ resumeResult t i = 1)

/-- 12 R282, 16 R346, R347, R350, R441: a request for pre-emption is noted, and seen in the next cycle; a context stops at a
pre-emption point and its commands that have not started all their transfers are parked (the end of a step that waits is such a
point in the model: log 106); an instance that outlives its grace period is
killed, and one that had started restarts before the context's next bundle; a quiet task is saved and released; a device swap stops every context of a task that waits; a dirty item is
streamed. -/
def Sys2Proof.Claim.PreemptionRows : Prop :=
  ∀ (s : State),
    (∀ i (v : Word), v.toNat / 2 ^ 19 = 0 → v.toNat / 2 ^ 18 = 0 → ∀ kc tk, kc = ctxOfId (fieldNat v 17 0) → (s.ctx kc.1 kc.2).task = some tk →
      ∃ t, exec (.preemptWrite i v) s = .next t ∧ t.mem = s.mem ∧ ∀ e ∈ (s.task tk).places, (s.ctx e.1 e.2).task = some tk →
        t.ctx e.1 e.2 = (if (s.ctx e.1 e.2).preReq then s.ctx e.1 e.2 else { s.ctx e.1 e.2 with preReq := true, preNew := true })) ∧
    (∀ i (v : Word), exec (.preemptWrite (.host i) v) s = exec (.preemptWrite (.host i) (v &&& BitVec.ofNat 64 (2 ^ 19 - 1))) s) ∧
    (∀ i (v : Word), (∀ p, i ≠ .host p) → v.toNat / 2 ^ 19 ≠ 0 → exec (.preemptWrite i v) s = .next s) ∧
    (∀ core ctx x t, x = s.ctx core ctx → x.task = some t →
      (x.preReq = true → x.preNew = false → x.preStop = none →
        (x.stopped = true ∨ x.running = false ∨ x.wait = .loopStop ∨ x.wait = .sync ∨ x.wait = .released ∨ (∃ g, x.wait = .tbar g) ∨
          (∃ l a, x.wait = .twany l a) ∨ (∃ sl, x.wait = .spawnPark sl) ∨ x.wait = .prePoint ∨ (∃ m, x.wait = .stepEnd m)) →
        ∃ z, exec (.preemptStop core ctx) s = .next z ∧ z.mem = s.mem ∧ z.ctx core ctx = { x with preStop := some s.cycle } ∧
          ∀ ch, z.chan core ch = (s.chan core ch).park t ctx ∧
            (z.chan core ch).parked = (s.chan core ch).parked ++
              (s.chan core ch).cmds.filter (fun q => q.task == some t && q.ctx == ctx && decide (q.begun < q.count)) ∧
            ∀ q ∈ (z.chan core ch).cmds, q ∈ (s.chan core ch).cmds ∧ (q.task = some t → q.ctx = ctx → q.count ≤ q.begun)) ∧
      (x.preStop.isSome = true → (s.task t).places = [(core, ctx)] → s.quietForSave core ctx = true →
        ((s.core core).instances ctx).all (fun j => !j.err) = true → (s.task t).swapped = false →
        (∀ b < 8, s.writeDropped (s.partBase t 0 + b) = false) →
        ∃ z r, exec (.preemptStop core ctx) s = .next z ∧ z.ctx core ctx = Ctx.init ∧ (z.task t).saved.length = 1 ∧
          (z.task t).cores = [] ∧ (z.task t).lastCore = core ∧ (z.task t).area = (s.task t).area ∧
          natField (z.mem.read (s.partBase t 0) 8) 63 32 = (s.mem.read (s.partBase t 0 + 4) 4 + 1) % 2 ^ 32 ∧
          natField (z.mem.read (s.partBase t 0) 8) 31 16 = 3 ∧ z.mem.read (s.partBase t 0) 8 % 2 = 1 ∧
          r ∈ (z.space (s.task t).asid).notices ∧ r.cls = .savedNotice ∧ r.engine = 0 ∧ r.ctxid = ctxId core ctx ∧
          r.status = BitVec.ofNat 64 ((s.task t).area.getD 0)) ∧
      ((x.preReq = false ∨ x.preNew = true) → x.preStop = none → (core, ctx) ∈ (s.task t).places → exec (.preemptStop core ctx) s = .fault .notEnabled)) ∧
    (∀ core ctx c0 js, (s.ctx core ctx).preStop = some c0 →
      js = ((s.core core).instances ctx).filter (fun j => !j.err && !j.killed) →
      (js ≠ [] → c0 + s.pregrace < s.cycle → (∀ j ∈ js, (s.core core).job j.id = some j) →
        ∃ t, exec (.graceExpiry core ctx) s = .next t ∧ ∀ j ∈ js, ∃ z, (t.core core).job j.id = some z ∧ z.killed = true ∧ z.started = false ∧ z.redo = j.started) ∧
      (s.cycle ≤ c0 + s.pregrace → exec (.graceExpiry core ctx) s = .fault .notEnabled)) ∧
    (∀ task tk, tk = s.task task → tk.started = true → tk.complete = false → tk.saved = [] →
      (∃ e ∈ tk.places, (s.ctx e.1 e.2).running = true) →
      (∀ e ∈ tk.places, (s.ctx e.1 e.2).task = some task ∧ (s.ctx e.1 e.2).stopped = false ∧ (s.ctx e.1 e.2).preStop = none ∧
        (s.ctx e.1 e.2).preReq = false ∧ ((s.ctx e.1 e.2).running = false ∨ (∃ sl, (s.ctx e.1 e.2).wait = .spawnPark sl) ∨
          (s.ctx e.1 e.2).wait = .sync ∨ ∃ l a, (s.ctx e.1 e.2).wait = .twany l a)) →
      ∃ t, exec (.deviceSwap task) s = .next t ∧ t.mem = s.mem ∧ (t.task task).swapped = true ∧
        ∀ e ∈ tk.places, (t.ctx e.1 e.2).preStop = some s.cycle) ∧
    (∀ core ctx x t n b, x = s.ctx core ctx → b = s.partBase t 0 → x.task = some t → (s.task t).places = [(core, ctx)] → s.ckptEn = true →
      x.running = true → x.preStop = none → n ∈ (s.task t).items 0 → s.itemDirty t 0 core ctx n = true →
      (∀ a, b ≤ a → a < b + (s.task t).areaPart true → s.writeDropped a = false) →
      ∃ z, exec (.checkpointStream core ctx n) s = .next z ∧ z.itemDirty t 0 core ctx n = false ∧
        (1 ≤ n → n ≤ 16 → z.mem.read (b + 0x800 + 128 * (n - 1)) 128 = (Tab.get x.y 0 (n - 1)).toNat) ∧
        (n = 0 → (∀ r < 64, z.mem.read (b + 0x40 + 8 * r) 8 = (x.getX r).toNat) ∧ z.mem.read (b + 0x250) 8 = x.pc.toNat) ∧
        ∀ a, a < b + 8 → z.mem.byte a = s.mem.byte a)

/-- 16 R347, R348, R350, R441, 14 R302: the dispatcher restores the saved task whose turn it is: its contexts take the
registers of its save area. While CKPTCTL.EN is clear nothing is streamed. -/
def Sys2Proof.Claim.RestoreRows : Prop :=
  ∀ (s : State),
    (∀ task tk die s1 h ps gs, tk = s.task task → tk.saved ≠ [] →
      die = (match tk.restore with | some (d, _) => d | none => tk.lastCore / 36) → s1 = s.examineHeads die →
      (∀ x ∈ s1.openHeads die, s1.headCause die x = 0) → s1.chooseHead die (s1.openHeads die) = some (h, ps) → h.kind = 0 →
      h.task = task → s1.headFits die h = some gs →
      ∃ t, exec (.taskRestore task) s = .next t ∧
        (∀ k c base zs sv, gs = [(k, [(c, base, zs)])] → (s1.task task).saved = [sv] → sv.ctx.recs = [] → (s1.task task).tierDue = [] → (s1.task task).area.isSome = true →
          (t.task task).saved = [] ∧ (t.task task).restore = none ∧ (t.task task).swapped = false ∧ (t.task task).places = [(k, c)] ∧
          (∀ r, 1 ≤ r → r < 64 → (t.ctx k c).getX r = BitVec.ofNat 64 (s1.mem.read (s1.partBase task 0 + 0x40 + 8 * r) 8)) ∧
          (sv.ctx.wait ≠ .loopStop → (t.ctx k c).pc = BitVec.ofNat 64 (s1.mem.read (s1.partBase task 0 + 0x250) 8)) ∧
          (t.ctx k c).preReq = false ∧ (t.ctx k c).preStop = none)) ∧
    (∀ core ctx n, s.ckptEn = false → exec (.checkpointStream core ctx n) s = .fault .notEnabled) ∧
    (∀ core part slot pc st run, st = s.strand core part slot → run = { st with stopped := false } →
      Tab.find (s.part core part).strands slot = some st → st.stopped = true → st.finished = false →
      (∃ e ∈ (s.core core).ctxs, ∃ r ∈ e.2.recs, r.cls = .break_ ∧ r.inst = some st.gang) →
      ∀ (s1 : State) (b : Subset), s1 = s.modJob core st.gang (fun j => { j with err := false }) →
        (match pc with
          | none => s1.readySubset core part slot run
          | some a => (s1.subsetAt core part slot run a).filter (fun b => b.ready s1 core part)) = some b →
        ∃ t, exec (.singleStep core part slot pc) s = .next t ∧ t.mem = (PassUnit.issue (b, none) core part s1).mem ∧
          ∀ z, Tab.find (t.part core part).strands slot = some z → z.stopped = true)

namespace Sys2Proof.Claim

/-- The slot of an output that governs the current fabric cycle, and its V, IN and CIRC (19 R375). -/
def slotNow (s : State) (r out : Nat) : Nat := (Tab.get s.fabric.bankA 0 ((r * 32 + out) * 256 + s.cwcyc % 256)).toNat
abbrev reservedFor (s : State) (r out inp circ : Nat) : Prop :=
  natField (slotNow s r out) 20 20 = 1 ∧ natField (slotNow s r out) 19 15 = inp ∧ natField (slotNow s r out) 7 0 = circ

/-- Some output of a router has an active entry for an input and a circuit (19 R376). -/
def routedHere (f : Fabric) (r inp circ : Nat) : Prop :=
  ∃ e ∈ f.bankA, e.1 / 8192 = r ∧ natField e.2.toNat 20 20 = 1 ∧ natField e.2.toNat 19 15 = inp ∧ natField e.2.toNat 7 0 = circ

/-- Whether the output has sent a flit in this fabric cycle. -/
abbrev sentNow (s : State) (r out : Nat) : Prop := Tab.get s.fabric.outCyc 0 (32 * r + out) = s.fabNow + 1

/-- A link of the direction toward a peer is up (19 R371). -/
abbrev linked (s : State) (peer : Nat) : Prop :=
  ∃ dir, s.fabric.direction peer = some dir ∧ ∃ k ∈ [dir, dir + 6, dir + 12], (Tab.find s.fabric.links k).isSome = true

/-- A packet that the device takes: it is for the device, and comes from another, or was delivered inside this one and is the
first of those that stay in its order (19 R373). -/
abbrev takes (s : State) (p : Packet) : Prop :=
  p.dst = s.fabric.peer ∧ (p.src = s.fabric.peer ∨ p.circ ≠ 0 → s.fabric.arrived.find? (pktOrdered p) = some p)

/-- The packet flits that an output can send: they came before this fabric cycle, and their channel is not stopped (19 R374). -/
def sendable (s : State) (r out : Nat) (t : Transit) : Bool :=
  t.router == r && t.out == out && decide (t.at_ < s.fabNow) && !s.fabric.stops.contains (r, out, t.chan)

/-- The answer to a packet has left for its sender (19 R372, R382). -/
def answered (s t : State) (p : Packet) (ty : Nat) (v : Word) : Prop :=
  ∃ q ∈ t.fabric.transit, q.pkt.ptype = ty ∧ q.pkt.src = s.fabric.peer ∧ q.pkt.dst = p.src ∧ q.pkt.tag = p.tag ∧ q.pkt.gen = p.gen ∧
    q.pkt.vclass = 1 ∧ q.pkt.value = v

/-- An answer of a port router can leave. -/
abbrev canAnswer (s : State) (p : Packet) : Prop := p.src = s.fabric.peer ∨ linked s p.src

/-- The gang that sent a request stands in its slot, its instance runs, and its context can take a record. -/
def gangHere (s : State) (k : Nat) (q : Request) (p sl : Nat) (j : Job) : Prop :=
  q.who = .strand p sl ∧ (Tab.find (s.part k p).strands sl).isSome = true ∧ (s.strand k p sl).gang = q.job ∧
    (s.core k).job q.job = some j ∧ j.err = false ∧ (s.ctx k j.ctx).recs.length < 8

/-- The gang has stopped with a trap of a class (12 R279). -/
def instStopped (s t : State) (k id : Nat) (j : Job) (cls : TrapClass) : Prop :=
  (t.core k).job id = some { j with err := true } ∧ (t.ctx k j.ctx).stopped = true ∧
    ∃ r, (t.ctx k j.ctx).recs = (s.ctx k j.ctx).recs ++ [r] ∧ r.cls = cls ∧ r.engine = 4 ∧ r.inst = some id

/-- The outstanding result of a lane that a request fills. -/
def fillsLane (s : State) (k : Nat) (q : Request) (p sl : Nat) (r : LaneResult) : Prop :=
  q.who = .strand p sl ∧ lands (s.strand k p sl) r ∧
    (s.strand k p sl).results.find? (fun x => x.src == .fabric q.id || x.src == .enqueue q.id) = some r

/-- The slot that a handle names, and whether it stands with that generation (19 R384). -/
def rslotOf (s : State) (pr n : Nat) : RSlot := Tab.get s.fabric.slots RSlot.init (64 * pr + n)

end Sys2Proof.Claim

/-- 19 R374, R376 to R379: a packet flit goes only in a cycle that no ready circuit flit claims; STOP holds a channel; a circuit
flit waits for its slot and leaves in it, or is dropped and counted; a schedule is written to the shadow bank and
switched at its period; links train. Of the model's own readings and choices (NOTES.md) it rests on log 14, 22. -/
def Obligations.FlitRows : Prop :=
  ∀ (s : State) (r out : Nat),
    (∀ c, s.circuitAt r out = some c → exec (.packetFlitSend r out) s = .fault .notEnabled) ∧
    (0 < Tab.get s.fabric.holds 0 r → exec (.packetFlitSend r out) s = .fault .notEnabled) ∧
    (s.circuitAt r out = none → ¬ sentNow s r out → Tab.get s.fabric.holds 0 r = 0 →
      (∀ tr, s.fabric.transit.find? (sendable s r out) = some tr →
        ∃ t, exec (.packetFlitSend r out) s = .next t ∧ t.mem = s.mem ∧ t.cores = s.cores ∧ sentNow t r out ∧
          (1 < tr.flits → { tr with flits := tr.flits - 1 } ∈ t.fabric.transit ∧ t.fabric.arrived = s.fabric.arrived) ∧
          (tr.flits ≤ 1 → r < 8 → out < 9 → t.fabric.transit = s.fabric.transit.erase tr ∧ t.fabric.arrived = s.fabric.arrived ++ [tr.pkt])) ∧
      ((∀ tr ∈ s.fabric.transit, tr.router = r → tr.out = out → (r, out, tr.chan) ∈ s.fabric.stops ∨ s.fabNow ≤ tr.at_) →
        exec (.packetFlitSend r out) s = .fault .notEnabled)) ∧
    (∀ ch (on : Bool), r < 10 → out < 18 → ch < 6 → ∃ t, exec (.stopSignal r out ch on) s = .next t ∧
      ((r, out, ch) ∈ t.fabric.stops ↔ on = true) ∧ ∀ x, x ≠ (r, out, ch) → (x ∈ t.fabric.stops ↔ x ∈ s.fabric.stops)) ∧
    (∀ circ p last c, s.fabric.cflight.find? (fun c => c.router == r && c.inp == out && c.circ == circ) = some c →
      (s.cwcyc < c.at_ → exec (.circuitFlitArrival r out circ p last) s = .fault .notEnabled) ∧
      (c.at_ ≤ s.cwcyc → routedHere s.fabric r out circ →
        (s.fabric.cflits.filter (fun x => x.router == r && x.inp == out)).length < 64 →
        ∃ t, exec (.circuitFlitArrival r out circ p last) s = .next t ∧ t.fabric.cflits = s.fabric.cflits ++ [c] ∧
          t.fabric.cflight = s.fabric.cflight.erase c ∧ t.fabric.circdrop = s.fabric.circdrop) ∧
      (c.at_ ≤ s.cwcyc → (¬ routedHere s.fabric r out circ ∨ 64 ≤ (s.fabric.cflits.filter (fun x => x.router == r && x.inp == out)).length) →
        ∃ t, exec (.circuitFlitArrival r out circ p last) s = .next t ∧ t.fabric.cflits.length = s.fabric.cflits.length ∧
          t.fabric.cflight.length + 1 = s.fabric.cflight.length ∧ t.fabric.circdrop = s.fabric.circdrop + 1)) ∧
    (∀ inp circ c, s.fabric.cwcyc.isSome = true → reservedFor s r out inp circ → ¬ sentNow s r out →
      s.fabric.cflits.find? (fun c => c.router == r && c.inp == inp && c.circ == circ && decide (c.at_ + 2 ≤ s.cwcyc)) = some c →
      ∃ t, exec (.circuitFlitDepart r out) s = .next t ∧ t.mem = s.mem ∧ t.cores = s.cores ∧ sentNow t r out ∧
        t.fabric.cflits = s.fabric.cflits.erase c ∧
        (r < 8 → out < 9 → t.fabric.cflight = s.fabric.cflight ∧
          t.fabric.arrived = if c.last then s.fabric.arrived ++ [c.pkt] else s.fabric.arrived) ∧
        (r < 8 → out = 9 ∨ out = 10 → ∃ d, t.fabric.cflight =
          s.fabric.cflight ++ [{ c with router := out - 1, inp := 9 + r, at_ := s.cwcyc + d }]) ∧
        (8 ≤ r → 9 ≤ out → out < 17 → ∃ d, t.fabric.cflight =
          s.fabric.cflight ++ [{ c with router := out - 9, inp := r + 1, at_ := s.cwcyc + d }])) ∧
    (∀ i (v : Word), sysValueOk 0x221 v = true → ∃ t, exec (.cwentWrite i v) s = .next t ∧ t.cores = s.cores ∧ t.mem = s.mem ∧
      t.fabric.bankA = s.fabric.bankA ∧ t.fabric.cwent = fieldNat v 31 24 ∧
      ∀ key, Tab.get t.fabric.bankS 0 key = if key = (s.fabric.cwsel % 16 * 32 + s.fabric.cwsel / 256 % 32) * 256 + fieldNat v 31 24
        then BitVec.ofNat 32 (fieldNat v 20 0) else Tab.get s.fabric.bankS 0 key) ∧
    (∀ i (v : Word), sysValueOk 0x222 v = true → ∃ t, exec (.cwswapWrite i v) s = .next t ∧ t.cores = s.cores ∧ t.mem = s.mem ∧
      t.fabric.period = v.toNat / 2 ∧ t.fabric.arm = decide (v.toNat % 2 = 1) ∧ t.fabric.bankA = s.fabric.bankA ∧ t.fabric.bankS = s.fabric.bankS) ∧
    (s.fabric.arm = true → s.fabric.cwcyc.isSome = true → 256 * s.fabric.period ≤ s.cwcyc → s.cwcyc % 256 = 0 →
      ∃ t, exec .cwswapSwitch s = .next t ∧ t.fabric.bankA = s.fabric.bankS ∧ t.fabric.bankS = s.fabric.bankA ∧ t.fabric.arm = false) ∧
    (s.fabric.arm = false ∨ s.cwcyc < 256 * s.fabric.period ∨ s.cwcyc % 256 ≠ 0 → exec .cwswapSwitch s = .fault .notEnabled) ∧
    (∀ port dly cyc, port < 18 → dly < 0xFFFF →
      (∃ t, exec (.linkTraining port false dly cyc) s = .next t ∧ Tab.find t.fabric.links port = none ∧
        ∀ n, n ≠ port → Tab.find t.fabric.links n = Tab.find s.fabric.links n) ∧
      ((Tab.get s.purser.steps default 9).units = 0 → s.purser.downLinks = [] →
        ∃ t, exec (.linkTraining port true dly cyc) s = .next t ∧ Tab.find t.fabric.links port = some dly ∧
          (s.fabric.cwcyc = none → t.cwcyc = cyc.getD 0) ∧ ∀ n, n ≠ port → Tab.find t.fabric.links n = Tab.find s.fabric.links n))

/-- 08 R203, R204, R207, 19 R372, R381 to R383, R387, R388: what comes back to a core. A reply fills the lane that waits for it;
one that matches no request is dropped and counted; a refusal, a timeout and a stale queue stop the gang; a tag that timed
out rests. Of the model's own readings and choices (NOTES.md) it rests on log 78, 81. -/
def Obligations.ReplyRows : Prop :=
  ∀ (s : State) (k : Nat),
    (∀ p, [3, 5, 7, 9, 14].contains p.ptype = true → takes s p → p.tag < 1024 →
      ((∀ q ∈ (s.core k).requests, ¬ (q.tag = p.tag ∧ q.gen = p.gen ∧ q.peer = p.src ∧ q.want = p.ptype)) →
        ∃ t, exec (.replyArrival k p) s = .next t ∧ t.cores = s.cores ∧ t.mem = s.mem ∧ t.fabric.laterep = s.fabric.laterep + 1) ∧
      (∀ q pt sl r, (s.core k).requests.find? (fun q => q.tag == p.tag && q.gen == p.gen && q.peer == p.src && q.want == p.ptype) = some q →
        fillsLane s k q pt sl r → (q.want = 14 → p.value.toNat % 4 = 0) →
        ∃ t, exec (.replyArrival k p) s = .next t ∧ t.mem = s.mem ∧ t.fabric.laterep = s.fabric.laterep ∧
          filled ((t.strand k pt sl).lane r.lane) r.wide r.dst (if q.want = 14 then 0 else p.value) ∧
          (∀ x, x ∉ regs r.wide r.dst → ((t.strand k pt sl).lane r.lane).getV x = ((s.strand k pt sl).lane r.lane).getV x) ∧
          ∀ l, l ≠ r.lane → (t.strand k pt sl).lane l = (s.strand k pt sl).lane l) ∧
      (∀ q, (s.core k).requests.find? (fun q => q.tag == p.tag && q.gen == p.gen && q.peer == p.src && q.want == p.ptype) = some q →
        q.want = 14 →
        (∀ pt sl j, gangHere s k q pt sl j → (p.value.toNat % 4 = 1 ∨ (2 ≤ p.value.toNat % 4 ∧ 8 ≤ q.tries)) →
          ∃ t, exec (.replyArrival k p) s = .next t ∧ instStopped s t k q.job j .queueStale) ∧
        (2 ≤ p.value.toNat % 4 → q.tries < 8 → ∃ t, exec (.replyArrival k p) s = .next t ∧ t.mem = s.mem ∧
          ∃ z ∈ (t.core k).requests, z.id = q.id ∧ z.tries = q.tries + 1 ∧ z.backoff = some (s.fabNow + 256 * 2 ^ q.tries)))) ∧
    (∀ p q pt sl j, p.ptype = 15 → takes s p → p.tag < 1024 →
      (s.core k).requests.find? (fun q => q.tag == p.tag && q.gen == p.gen && q.peer == p.src) = some q → gangHere s k q pt sl j →
      ∃ t, exec (.refusalArrival k p) s = .next t ∧ instStopped s t k q.job j .page) ∧
    (∀ p q, p.ptype = 1 → takes s p →
      (s.core k).requests.find? (fun q => q.tag == p.tag && q.gen == p.gen && q.peer == p.src && q.want == p.ptype) = some q →
      ∃ t, exec (.bulkAckArrival k p) s = .next t ∧ t.mem = s.mem ∧ ∀ a, counter t k a =
        if q.lctr.map (· / 8) = some a then counter s k a + BitVec.ofNat 64 q.pkt.data.length else counter s k a) ∧
    (∀ n q, (s.core k).requests[n]? = some q → q.tag ≠ 0xFFFF →
      (s.devtime < q.sent + s.fabric.cwtmo * 1000 → exec (.requestTimeout k n) s = .fault .notEnabled) ∧
      (q.sent + s.fabric.cwtmo * 1000 ≤ s.devtime → ∃ t, exec (.requestTimeout k n) s = .next t ∧
        (t.core k).requests = (s.core k).requests.erase q ∧ (q.tag, s.devtime + 2 * (s.fabric.cwtmo * 1000)) ∈ (t.core k).coolTags ∧
        (∀ pt sl j, gangHere s k q pt sl j → instStopped s t k q.job j .fabricTimeout) ∧
        (∀ pt sl, q.who = .strand pt sl → (∀ e ∈ (s.part k pt).strands, e.2.gang ≠ q.job) → q.want = 1 ∨ q.want = 7 →
          t.tasks = s.tasks ∧ (∀ c, t.ctx k c = s.ctx k c) ∧
          ∃ r ∈ (t.space q.asid).notices, r.cls = .fabricTimeout ∧ r.engine = 6 ∧ r.ctxid = q.ctxid ∧ r.asid = q.asid ∧ r.privl = q.priv ∧
            r.status = BitVec.ofNat 64 q.peer))) ∧
    (∀ tag, (∃ e ∈ (s.core k).coolTags, e.1 = tag ∧ e.2 ≤ s.devtime) →
      ∃ t, exec (.timedOutTagRelease k tag) s = .next t ∧ t.mem = s.mem ∧ ∀ e ∈ (t.core k).coolTags, e.1 ≠ tag) ∧
    (∀ tag, (∀ e ∈ (s.core k).coolTags, e.1 = tag → s.devtime < e.2) → exec (.timedOutTagRelease k tag) s = .fault .notEnabled) ∧
    (∀ n q d, (s.core k).requests[n]? = some q → q.backoff = some d →
      (s.fabNow < d → exec (.enqueueRetry k n) s = .fault .notEnabled) ∧
      (d ≤ s.fabNow → ∃ t, exec (.enqueueRetry k n) s = .next t ∧ t.mem = s.mem ∧
        ∃ z ∈ (t.core k).requests, z.id = q.id ∧ z.tries = q.tries ∧ z.backoff = none)) ∧
    (∀ pt st r h d sl j, pt < 4 → (s.core k).parts = [(pt, { s.part k pt with strands := [(sl, st)] })] → st.results = [r] →
      (∃ m, r.src = .notice h m d) → d ≤ s.devtime → s.noticeOf h = none → (s.core k).job st.gang = some j → j.err = false →
      (s.ctx k j.ctx).recs.length < 8 →
      ∃ t, exec (.rslotGetTimeout k 0) s = .next t ∧ instStopped s t k st.gang j .fabricTimeout)

/-- The level of a PAGE detail: that at which the walk ended, or 0 when none was made (16 R341). -/
def Sys2Proof.Claim.endLevel (cause : Nat) (w : Except (Nat × Nat) Walk) (level : Nat) : Prop :=
  if cause = 3 ∨ cause = 6 then level = 0 else match w with | .error e => level = e.1 | .ok w => level = w.level

/-- 08 R202, R204, R205, 19 R372, R380, R383, R388: what a peer asks of the device. A read and an atomic are performed at their
home and answered; bulk data is written, counted and acknowledged; tokens arrive; what a tenant without an address space asks is
refused; an enqueue is taken, put off or stale; requests that combined leave as one. -/
def Sys2Proof.Claim.ServingRows : Prop :=
  ∀ (s : State) (p : Packet), takes s p →
    (∀ asid pa s1, p.ptype = 2 ∨ p.ptype = 4 → canAnswer s p → s.tenantSpace p.tenant = some asid →
      s.spaceXlate asid 0 (if p.ptype = 2 then .read else .atomic) p.addr.toNat = .ok (pa, s1) → s1.lineBad pa = false →
      ∃ t, exec (.remoteRequestServe p) s = .next t ∧ answered s t p (p.ptype + 1) (BitVec.ofNat 64 (s1.mem.read pa (tySize (p.aux % 32)))) ∧
        (p.ptype = 2 → t.mem = s1.mem) ∧
        (p.ptype = 4 → (∀ i < tySize (p.aux % 32), s1.writeDropped (pa + i) = false) → t.mem.read pa (tySize (p.aux % 32)) =
          (atomVal (p.aux / 32) (p.aux % 32) (s1.mem.read pa (tySize (p.aux % 32))) p.value.toNat).1 % 2 ^ (8 * tySize (p.aux % 32)))) ∧
    (∀ asid c level, p.ptype = 2 ∨ p.ptype = 4 → canAnswer s p → s.tenantSpace p.tenant = some asid → 0 < c → c < 8 → level < 8 →
      s.spaceXlate asid 0 (if p.ptype = 2 then .read else .atomic) p.addr.toNat = .error c →
      endLevel c (s.walk asid p.addr.toNat) level →
      ∃ t, exec (.remoteRequestServe p) s = .next t ∧ t.mem = s.mem ∧ answered s t p 15
        (BitVec.ofNat 64 (c * 2 ^ 29 + (if p.ptype = 2 then 0 else 3) * 2 ^ 27 + level * 2 ^ 24 + 1))) ∧
    (s.tenantSpace p.tenant = none →
      (p.ptype = 2 ∨ p.ptype = 4 → canAnswer s p → ∃ t, exec (.remoteRequestServe p) s = .next t ∧ t.mem = s.mem ∧ t.cores = s.cores ∧
        answered s t p 15 2) ∧
      (p.ptype = 13 → canAnswer s p → ∃ t, exec (.enqueueArrival p) s = .next t ∧ t.mem = s.mem ∧ t.cores = s.cores ∧
        t.queues = s.queues ∧ answered s t p 15 2) ∧
      (p.ptype = 6 → p.dcore < 288 → p.laddr < 16 → ∃ t, exec (.mailboxArrival p) s = .next t ∧ t.mem = s.mem ∧ t.cores = s.cores ∧
        answered s t p 15 2) ∧
      (p.ptype = 0 → p.dcore < 288 → 0x1000 ≤ p.laddr → p.laddr + p.data.length ≤ 0x800000 →
        ∃ t, exec (.bulkPacketArrival p) s = .next t ∧ t.mem = s.mem ∧ t.cores = s.cores ∧ answered s t p 15 2)) ∧
    ((s.tenantSpace p.tenant).isSome = true → p.dcore < 288 →
      (p.ptype = 0 → 0x1000 ≤ p.laddr → p.laddr + p.data.length ≤ 0x800000 →
        ∃ t, exec (.bulkPacketArrival p) s = .next t ∧ t.mem = s.mem ∧ answered s t p 1 (BitVec.ofNat 64 p.data.length) ∧
          (∀ a, (t.core p.dcore).landing.byte a = if p.laddr ≤ a ∧ a < p.laddr + p.data.length then p.data.getD (a - p.laddr) 0
            else (s.core p.dcore).landing.byte a) ∧
          (∀ n, counter t p.dcore n = if n = p.dctr / 8 then counter s p.dcore n + BitVec.ofNat 64 p.data.length else counter s p.dcore n) ∧
          ∀ k, k ≠ p.dcore → t.core k = s.core k) ∧
      (p.ptype = 6 → p.laddr < 16 → ∃ t, exec (.mailboxArrival p) s = .next t ∧ sameMemory s t ∧ answered s t p 7 0 ∧
        (∀ n, Tab.get (t.core p.dcore).mbox 0 n =
          if n = p.laddr then Tab.get (s.core p.dcore).mbox 0 n + p.value else Tab.get (s.core p.dcore).mbox 0 n))) ∧
    (∀ a w0, p.ptype = 13 → canAnswer s p → (s.tenantSpace p.tenant).isSome = true → a = fieldNat s.fabric.rqbase 47 13 * 8192 + 32 * fieldNat p.addr 23 16 → w0 = s.mem.read a 8 →
      (s.fabric.rqbase.toNat % 2 = 0 ∨ w0 % 2 = 0 ∨ natField w0 63 48 ≠ fieldNat p.addr 63 48 ∨ natField w0 47 32 ≠ p.tenant →
        ∃ t, exec (.enqueueArrival p) s = .next t ∧ t.mem = s.mem ∧ t.queues = s.queues ∧ answered s t p 14 1) ∧
      (s.fabric.rqbase.toNat % 2 = 1 → w0 % 2 = 1 → natField w0 63 48 = fieldNat p.addr 63 48 → natField w0 47 32 = p.tenant →
        (natField w0 2 2 = 1 → ∃ t, exec (.enqueueArrival p) s = .next t ∧ t.mem = s.mem ∧ t.queues = s.queues ∧ answered s t p 14 2) ∧
        (∀ q x at_, natField w0 2 2 = 0 → natField w0 1 1 = 1 → q = s.mem.read (a + 8) 8 % 64 → x = s.queue q →
          at_ = fieldNat x.qbase 47 12 * 4096 + 64 * (x.qtail % 2 ^ fieldNat x.qctl 39 35) →
          (2 ^ fieldNat x.qctl 39 35 ≤ (x.qtail + 2 ^ 32 - x.qhead) % 2 ^ 32 →
            ∃ t, exec (.enqueueArrival p) s = .next t ∧ t.mem = s.mem ∧ t.queues = s.queues ∧ answered s t p 14 2) ∧
          ((x.qtail + 2 ^ 32 - x.qhead) % 2 ^ 32 < 2 ^ fieldNat x.qctl 39 35 → p.data.length = 64 → (∀ i < 64, s.writeDropped (at_ + i) = false) →
            ∃ t, exec (.enqueueArrival p) s = .next t ∧ answered s t p 14 0 ∧ (t.queue q).qtail = (x.qtail + 1) % 2 ^ 32 ∧
              ∀ b, t.mem.byte b = if at_ ≤ b ∧ b < at_ + 64 then p.data.getD (b - at_) 0 else s.mem.byte b)) ∧
        (∀ asid base pa s1 tail, natField w0 2 2 = 0 → natField w0 1 1 = 0 → base = s.mem.read (a + 8) 8 % 2 ^ 54 →
          s.tenantSpace p.tenant = some asid → s.spaceXlate asid 0 .atomic base = .ok (pa, s1) → tail = s1.mem.read (pa + 8) 8 →
          (s.mem.read (a + 16) 8 % 2 ^ 32 ≤ (tail + 2 ^ 64 - s1.mem.read pa 8) % 2 ^ 64 →
            ∃ t, exec (.enqueueArrival p) s = .next t ∧ t.mem = s1.mem ∧ answered s t p 14 2) ∧
          (∀ ra s2, (tail + 2 ^ 64 - s1.mem.read pa 8) % 2 ^ 64 < s.mem.read (a + 16) 8 % 2 ^ 32 →
            s1.spaceXlate asid 0 .write (base + 64 + 64 * (tail % (s.mem.read (a + 16) 8 % 2 ^ 32))) = .ok (ra, s2) → p.data.length = 64 →
            (∀ i < 64, s2.writeDropped (ra + i) = false) → (∀ i < 8, s2.writeDropped (pa + 8 + i) = false) →
            (ra + 64 ≤ pa + 8 ∨ pa + 16 ≤ ra) →
            ∃ t, exec (.enqueueArrival p) s = .next t ∧ answered s t p 14 0 ∧ t.mem.read (pa + 8) 8 = (tail + 1) % 2 ^ 64 ∧
              ∀ i < 64, t.mem.byte (ra + i) = p.data.getD i 0))))

/-- 19 R383: the held request of a router leaves alone as it is; several leave as one with the sum of their operands, under
a tag of the router's own, and not before their window has passed. -/
def Sys2Proof.Claim.CombiningRows : Prop :=
  ∀ (s : State) (r n : Nat) (c : Combined), (s.fabric.combine.filter (fun c => c.router == r))[n]? = some c →
    (s.fabNow < c.start + s.fabric.cwcomb → c.members.length < 16 → exec (.combineRelease r n) s = .fault .notEnabled) ∧
    (c.start + s.fabric.cwcomb ≤ s.fabNow ∨ 16 ≤ c.members.length → r < 8 →
      (∀ p, c.members = [p] → ∃ t, exec (.combineRelease r n) s = .next t ∧ t.mem = s.mem ∧ t.fabric.combine = s.fabric.combine.erase c ∧
        ∃ q ∈ t.fabric.transit, q.pkt = p) ∧
      (∀ p q rest, c.members = p :: q :: rest → ∃ t z, exec (.combineRelease r n) s = .next t ∧ t.mem = s.mem ∧
        t.fabric.combine = s.fabric.combine.erase c ∧ z ∈ t.fabric.transit ∧ z.pkt.addr = p.addr ∧ z.pkt.aux = p.aux ∧ z.pkt.dst = p.dst ∧
        z.pkt.value.toNat = c.members.foldl (fun a m => a + m.value.toNat) 0 % 2 ^ tyW (p.aux % 32) ∧ 1024 ≤ z.pkt.tag ∧
        t.fabric.merged.find? (fun m => m.1 == z.pkt.tag) = some (z.pkt.tag, c.members)))

/-- 08 R206, 19 R384 to R387: a slot is the lowest free one; it completes when every expected contribution has arrived, or at
its timeout; a late or wrong contribution is dropped and counted; notices enter the device's table; a slot is freed under
its generation; a request of a tenant without an address space is refused (a contribution or a free of one is dropped, which is
the model's choice: log 109). Of the model's own readings and choices (NOTES.md) it rests on log 109. -/
def Obligations.ReductionSlotRows : Prop :=
  ∀ (s : State),
    (∀ p : Packet, takes s p → canAnswer s p → s.fabric.peer < 4096 → p.ptype = 8 → ∀ pr, pr = fieldNat p.value 12 12 →
      (s.tenantSpace p.tenant = none → ∃ t, exec (.rslotAllocServe p) s = .next t ∧ t.mem = s.mem ∧ t.cores = s.cores ∧
        t.fabric.slots = s.fabric.slots ∧ answered s t p 15 2) ∧
      (∀ n, (s.tenantSpace p.tenant).isSome = true → n < 64 → (rslotOf s pr n).used = false → (∀ m < n, (rslotOf s pr m).used = true) →
        ∃ t h, exec (.rslotAllocServe p) s = .next t ∧ t.mem = s.mem ∧ t.cores = s.cores ∧ answered s t p 9 h ∧
          fieldNat h 63 48 = ((rslotOf s pr n).sgen + 1) % 2 ^ 16 ∧ fieldNat h 47 40 = fieldNat p.value 31 24 ∧ fieldNat h 36 32 = 0 ∧
          fieldNat h 18 13 = n ∧ fieldNat h 12 12 = pr ∧ fieldNat h 11 0 = s.fabric.peer ∧
          (rslotOf t pr n).used = true ∧ (rslotOf t pr n).done = false ∧ (rslotOf t pr n).contrib = [] ∧
          (rslotOf t pr n).expect = fieldNat p.value 63 32 ∧ (rslotOf t pr n).op = fieldNat p.value 20 18 ∧
          (rslotOf t pr n).ty = fieldNat p.value 22 21 ∧ (rslotOf t pr n).start = s.devtime) ∧
      ((s.tenantSpace p.tenant).isSome = true → (∀ n < 64, (rslotOf s pr n).used = true) → ∃ t, exec (.rslotAllocServe p) s = .next t ∧ t.fabric.slots = s.fabric.slots ∧
        answered s t p 9 0)) ∧
    (∀ (p : Packet), takes s p → s.tenantSpace p.tenant = none →
      (p.ptype = 10 → ∃ t, exec (.rslotPutArrival p) s = .next t ∧ t.mem = s.mem ∧ t.cores = s.cores ∧ t.fabric.slots = s.fabric.slots ∧
        t.fabric.rsldrop = s.fabric.rsldrop) ∧
      (p.ptype = 12 → ∃ t, exec (.rslotFreeArrival p) s = .next t ∧ t.mem = s.mem ∧ t.fabric.slots = s.fabric.slots)) ∧
    (∀ (p : Packet) (pr n i : Nat) (x : RSlot), takes s p → (s.tenantSpace p.tenant).isSome = true → p.ptype = 10 → pr = fieldNat p.addr 12 12 → n = fieldNat p.addr 18 13 → i = fieldNat p.addr 36 32 →
      x = rslotOf s pr n →
      (x.used = false ∨ x.sgen ≠ fieldNat p.addr 63 48 ∨ (x.done = false ∧ ((Tab.find x.contrib i).isSome = true ∨ x.expect / 2 ^ i % 2 = 0 ∨
          p.aux ≠ [0x0E, 0x0F, 0x06, 0x0A].getD (min x.ty 3) 0)) →
        ∃ t, exec (.rslotPutArrival p) s = .next t ∧ t.mem = s.mem ∧ t.cores = s.cores ∧ t.fabric.slots = s.fabric.slots ∧
          t.fabric.transit = s.fabric.transit ∧ t.fabric.rsldrop = s.fabric.rsldrop + 1) ∧
      (x.used = true → x.sgen = fieldNat p.addr 63 48 → x.done = true →
        ∃ t, exec (.rslotPutArrival p) s = .next t ∧ t.mem = s.mem ∧ t.cores = s.cores ∧ t.fabric.slots = s.fabric.slots ∧
          t.fabric.rsldrop = s.fabric.rsldrop + 1 ∧ (linked s p.src → p.src ≠ s.fabric.peer → ∃ q ∈ t.fabric.transit,
            q.pkt.ptype = 11 ∧ q.pkt.dst = p.src ∧ q.pkt.value = x.value)) ∧
      (x.used = true → x.sgen = fieldNat p.addr 63 48 → x.done = false → Tab.find x.contrib i = none → x.expect / 2 ^ i % 2 = 1 →
        p.aux = [0x0E, 0x0F, 0x06, 0x0A].getD (min x.ty 3) 0 →
        ∃ t, exec (.rslotPutArrival p) s = .next t ∧ t.mem = s.mem ∧ t.cores = s.cores ∧ t.fabric.rsldrop = s.fabric.rsldrop ∧
          Tab.find (rslotOf t pr n).contrib i = some p.value ∧
          (∀ m, m ≠ i → Tab.find (rslotOf t pr n).contrib m = Tab.find x.contrib m) ∧
          (x.contrib = [] → (rslotOf t pr n).done = decide (x.expect = 2 ^ i) ∧
            (x.expect = 2 ^ i → 2 ≤ x.ty → x.op < 3 → (rslotOf t pr n).value = p.value ∧ (rslotOf t pr n).status = 1)))) ∧
    (∀ (pr n : Nat) (x : RSlot), pr < 2 → x = rslotOf s pr n → x.used = true → x.done = false →
      (s.devtime < x.start + x.tmo * 1000 → exec (.rslotTimeout pr n) s = .fault .notEnabled) ∧
      (x.start + x.tmo * 1000 ≤ s.devtime → ∃ t, exec (.rslotTimeout pr n) s = .next t ∧ t.mem = s.mem ∧ t.cores = s.cores ∧
        (rslotOf t pr n).done = true ∧ (x.contrib = [] → x.expect ≠ 0 → (rslotOf t pr n).status = 5 ∧ (rslotOf t pr n).map = 0 ∧
          (rslotOf t pr n).value = (match x.op, x.ty with
            | 0, 0 => 0x80000000 | 0, 1 => 0x8000000000000000 | 1, 0 => 0x7F800000 | 1, 1 => 0x7FF0000000000000
            | 1, 2 => 0x7FFFFFFF | 1, 3 => 0xFFFFFFFF | 2, 0 => 0xFF800000 | 2, 1 => 0xFFF0000000000000 | 2, 2 => 0x80000000
            | _, _ => 0)))) ∧
    (∀ p : Packet, takes s p → p.ptype = 11 → ∃ t, exec (.noticeArrival p) s = .next t ∧ t.mem = s.mem ∧ t.cores = s.cores ∧
      t.noticeOf p.addr = some ⟨p.addr, p.value, p.aux, p.dctr⟩ ∧
      (s.fabric.notices.length ≤ 256 → t.fabric.notices.length ≤ 256)) ∧
    (∀ (p : Packet) (pr n : Nat), takes s p → (s.tenantSpace p.tenant).isSome = true → p.ptype = 12 → pr = fieldNat p.addr 12 12 → n = fieldNat p.addr 18 13 →
      ((rslotOf s pr n).sgen = fieldNat p.addr 63 48 → ∃ t, exec (.rslotFreeArrival p) s = .next t ∧ t.mem = s.mem ∧
        rslotOf t pr n = { rslotOf s pr n with used := false } ∧ ∀ a b, 64 * a + b ≠ 64 * pr + n → rslotOf t a b = rslotOf s a b) ∧
      ((rslotOf s pr n).sgen ≠ fieldNat p.addr 63 48 → ∃ t, exec (.rslotFreeArrival p) s = .next t ∧ t.fabric.slots = s.fabric.slots))

namespace Sys2Proof.Claim

/-- The device physical address of a BAR 2 offset, and whether a host reaches the range through a port (22 R413). -/
def bar2 (s : State) (p off : Nat) : Nat := (s.port p).win * 2 ^ 36 + off
abbrev reaches (s : State) (p off n : Nat) : Prop := p < 2 ∧ (s.port p).down = false ∧ 1 ≤ n ∧ off + n ≤ 2 ^ 36

/-- A range of tier H or tier C: its first and its last byte lie there (22 R411). -/
abbrev memoryHere (s : State) (a n : Nat) : Prop :=
  (s.phys a = .tierH ∨ s.phys a = .tierC) ∧ (s.phys (a + n - 1) = .tierH ∨ s.phys (a + n - 1) = .tierC)

/-- Every line of a range holds good data. -/
def goodLines (s : State) (a n : Nat) : Prop := ∀ l, a / 64 ≤ l → 64 * l < a + n → s.lineBad (64 * l) = false

/-- Window in ns, threshold, and whether corrected errors count, of a unit (23 R435). -/
def unitLimit (u : ErrUnit) : Nat × Nat × Bool :=
  match u with
  | .hbmLine _ => (24 * 3600 * 1000000000, 2, true)
  | .landingWord .. => (3600 * 1000000000, 2, true)
  | .operandWord .. => (3600 * 1000000000, 2, true)
  | .accumWord .. => (3600 * 1000000000, 2, true)
  | .core _ => (24 * 3600 * 1000000000, 4, false)
  | .link _ => (60 * 1000000000, 1000, true)
  | .bootUnit .. => (0, 2, false)

/-- A read of BAR 0 at an offset completes with a value, whole or one half (22 R412), and changes nothing else. -/
def readsAs (s : State) (p off v : Nat) : Prop :=
  exec (.bar0AccessError p off 8 false) s = .next (s.modPort p (fun x => { x with ur := false, rdata := v % 2 ^ 64 })) ∧
    ∀ h < 2, exec (.bar0AccessError p (off + 4 * h) 4 false) s =
      .next (s.modPort p (fun x => { x with ur := false, rdata := v / 2 ^ (32 * h) % 2 ^ 32 }))

/-- KIND of a unit (23 R436). -/
def unitKind (u : ErrUnit) : Nat :=
  match u with
  | .hbmLine _ => 1 | .landingWord .. => 2 | .operandWord .. => 3 | .accumWord .. => 4 | .core _ => 5 | .link _ => 6 | .bootUnit .. => 7

/-- The next entry of the error history lies at an index of the ring. -/
abbrev histOk (s : State) : Prop := s.purser.histNext < 30720
def histAt (s : State) : Nat := 0x10000 + 32 * s.purser.histNext

/-- An entry of the history: KIND, STATE, COUNT, STATUS and the next index (23 R436). -/
def entered (s t : State) (u : ErrUnit) (st count : Nat) (status : Word) : Prop :=
  natField (t.mem.read (histAt s + 8) 8) 63 60 = unitKind u ∧ natField (t.mem.read (histAt s + 8) 8) 59 56 = st ∧
  natField (t.mem.read (histAt s + 8) 8) 55 48 = min count 255 ∧ t.mem.read (histAt s + 16) 8 = status.toNat ∧
  t.purser.histNext = (s.purser.histNext + 1) % 30720 ∧ t.mem.read 0x10018 8 = t.purser.histNext ∧
  natField (t.mem.read (histAt s) 8) 63 32 = s.purser.bootcnt % 2 ^ 32

end Sys2Proof.Claim

/-- 00 R8, R9, 16 R336, R337, 19 R379, 22 R412, R415: a host writes and reads registers. Reserved bits of a host's write are
ignored; that a value out of its field's range leaves the register as it is, is the model's choice (log 62). -/
def Sys2Proof.Claim.RegisterRows : Prop :=
  ∀ (s : State) (p : Nat) (v : Word), p < 2 →
    (∀ n, exec (.registerWrite (.host p) (.sys n) v) s = exec (.registerWrite (.host p) (.sys n) (v &&& BitVec.ofNat 64 (sysMask n))) s) ∧
    (∀ n, isSysReg n = true → n ≠ 0x208 → sysValueOk n (v &&& BitVec.ofNat 64 (sysMask n)) = false →
      exec (.registerWrite (.host p) (.sys n) v) s = .next s) ∧
    (∀ i n, issuerOk i = true → (∀ q, i ≠ .host q) → isSysReg n = true → n ≠ 0x208 → sysValueOk n v = false →
      exec (.registerWrite i (.sys n) v) s = .next s) ∧
    (∀ n, n ∈ [0x200, 0x201, 0x202, 0x203, 0x206, 0x207, 0x20B, 0x20C, 0x220, 0x224, 0x225, 0x228] → sysValueOk n v = true →
      ∃ t, exec (.registerWrite (.host p) (.sys n) v) s = .next t ∧ t.cores = s.cores ∧ t.mem = s.mem ∧
        (n = 0x200 → (t.port p).assel = v.toNat % 2 ^ 16 ∧ t.assel = s.assel) ∧
        (n = 0x201 → (t.space (s.port p).assel).ptbase = v) ∧ (n = 0x202 → (t.space (s.port p).assel).asctl = v) ∧
        (n = 0x203 → (t.space (s.port p).assel).savepool = v) ∧ (n = 0x206 → (t.space (s.port p).assel).peermap = v) ∧
        (n = 0x207 → (t.space (s.port p).assel).tenant = v) ∧ (n = 0x20B → t.pregrace = v.toNat) ∧ (n = 0x20C → t.ckptEn = decide (v = 1)) ∧
        (n = 0x220 → t.fabric.cwsel = v.toNat) ∧ (n = 0x224 → t.fabric.cwtmo = v.toNat) ∧ (n = 0x225 → t.fabric.cwcomb = v.toNat) ∧
        (n = 0x228 → t.fabric.rqbase = v)) ∧
    (∃ t, exec (.registerWrite (.host p) .bar2win v) s = .next t ∧ t.mem = s.mem ∧ (t.port p).win = fieldNat v 47 36) ∧
    (∀ q x, q < 64 → x = s.queue q → ∃ t, exec (.registerWrite (.host p) (.qbase q) v) s = .next t ∧ t.mem = s.mem ∧
      (natField x.qctl.toNat 59 59 ≠ p → natField (t.queue q).qctl.toNat 62 62 = 1 ∧ (t.queue q).qbase = x.qbase) ∧
      (natField x.qctl.toNat 59 59 = p → natField x.qctl.toNat 63 63 = 1 → t.queue q = x) ∧
      (natField x.qctl.toNat 59 59 = p → natField x.qctl.toNat 63 63 = 0 →
        t.queue q = { x with qbase := BitVec.ofNat 64 (fieldNat v 47 12 * 4096) })) ∧
    (∀ e w, e < 256 → w < 2 → ∃ t, exec (.registerWrite (.host p) (.msix e w) v) s = .next t ∧ t.mem = s.mem ∧
      (t.port p).msixWord (2 * e + w) = v ∧ ∀ i, i ≠ 2 * e + w → (t.port p).msixWord i = (s.port p).msixWord i) ∧
    (∀ n, n ∈ [0x229, 0x22A, 0x22B] → ∃ t, exec (.readClear (.host p) n) s = .next t ∧ t.mem = s.mem ∧ t.cores = s.cores ∧
      (t.port p).ur = false ∧
      (n = 0x229 → (s.fabric.laterep < 2 ^ 64 → (t.port p).rdata = s.fabric.laterep) ∧ t.fabric.laterep = 0) ∧
      (n = 0x22A → (s.fabric.circdrop < 2 ^ 64 → (t.port p).rdata = s.fabric.circdrop) ∧ t.fabric.circdrop = 0) ∧
      (n = 0x22B → (s.fabric.rsldrop < 2 ^ 64 → (t.port p).rdata = s.fabric.rsldrop) ∧ t.fabric.rsldrop = 0)) ∧
    (∀ off size (wr : Bool), off < 0x100000 → (size ≠ 4 ∧ size ≠ 8) ∨ off % size ≠ 0 →
      exec (.bar0AccessError p off size wr) s =
        .next (s.modPort p (fun x => { x with ur := true, rdata := if wr then x.rdata else 0 }))) ∧
    readsAs s p 0 (0x5659 * 2 ^ 48 + 3 * 2 ^ 40 + s.fabric.peer * 2 ^ 24 + p) ∧
    (∀ n, isSysReg n = true → n ≠ 0x210 → n ∉ [0x229, 0x22A, 0x22B] →
      readsAs s p (0x1000 + 8 * (n - 0x200)) (s.sysRead (.host p) 0 n).1.toNat) ∧
    (∀ q x, q < 64 → x = s.queue q →
      readsAs s p (0x10000 + 64 * q) x.qctl.toNat ∧ readsAs s p (0x10008 + 64 * q) x.qbase.toNat ∧ readsAs s p (0x10010 + 64 * q) x.qtail ∧
      readsAs s p (0x10018 + 64 * q) x.qhead ∧ readsAs s p (0x10020 + 64 * q) x.qdone ∧
      readsAs s p (0x10028 + 64 * q) (x.nfail % 2 ^ 32 * 2 ^ 32 + x.cause % 2 ^ 8 * 2 ^ 24 + x.ftask % 2 ^ 20)) ∧
    (∀ i < 512, readsAs s p (0x20000 + 8 * i) ((s.port p).msixWord i).toNat) ∧
    readsAs s p 0x30000 ((s.port p).win * 2 ^ 36) ∧
    (∀ size off, size = 4 ∨ size = 8 → off % size = 0 → off < 0x100000 → bar0Written off = false →
      exec (.bar0AccessError p off size true) s = .next s)

/-- 22 R410, R413: a host's accesses through BAR 2. -/
def Sys2Proof.Claim.HostMemoryRows : Prop :=
  ∀ (s : State) (p off : Nat),
    (∀ n, reaches s p off n → memoryHere s (bar2 s p off) n → goodLines s (bar2 s p off) n →
      ∃ t, exec (.hostBar2Read p off n) s = .next t ∧ t.mem = s.mem ∧ (t.port p).rdata = s.mem.read (bar2 s p off) n ∧ (t.port p).ur = false) ∧
    (∀ n, reaches s p off n → ¬ memoryHere s (bar2 s p off) n →
      ∃ t, exec (.hostBar2Read p off n) s = .next t ∧ t.mem = s.mem ∧ (t.port p).rdata = 2 ^ (8 * n) - 1 ∧
        t.purser.discards = s.purser.discards + 1) ∧
    (∀ data : List Byte, reaches s p off data.length →
      (memoryHere s (bar2 s p off) data.length → ∃ t, exec (.hostBar2Write p off data) s = .next t ∧ t.cores = s.cores ∧
        ∀ a, t.mem.byte a = if bar2 s p off ≤ a ∧ a < bar2 s p off + data.length ∧ s.writeDropped a = false
          then data.getD (a - bar2 s p off) 0 else s.mem.byte a) ∧
      (¬ memoryHere s (bar2 s p off) data.length → ∃ t, exec (.hostBar2Write p off data) s = .next t ∧ t.mem = s.mem ∧
        t.purser.discards = s.purser.discards + 1)) ∧
    (∀ (wide : Bool) n op (a b : Word), n = (if wide then 8 else 4) → op < 3 → reaches s p off n →
      (off % n = 0 → memoryHere s (bar2 s p off) n → goodLines s (bar2 s p off) n → (∀ i < n, s.writeDropped (bar2 s p off + i) = false) →
        ∃ t old, exec (.hostAtomicop p off wide op a b) s = .next t ∧ old = s.mem.read (bar2 s p off) n ∧ (t.port p).rdata = old ∧
          (op = 0 → t.mem.read (bar2 s p off) n = (old + a.toNat) % 2 ^ (8 * n)) ∧
          (op = 1 → t.mem.read (bar2 s p off) n = a.toNat % 2 ^ (8 * n)) ∧
          (op = 2 → t.mem.read (bar2 s p off) n = if old = a.toNat % 2 ^ (8 * n) then b.toNat % 2 ^ (8 * n) else old) ∧
          ∀ x, x < bar2 s p off ∨ bar2 s p off + n ≤ x → t.mem.byte x = s.mem.byte x) ∧
      (off % n ≠ 0 → exec (.hostAtomicop p off wide op a b) s = .next (s.modPort p (fun x => { x with ur := true }))))

/-- 22 R415 to R417: the registers of a host queue. -/
def Sys2Proof.Claim.QueueRegisterRows : Prop :=
  ∀ (s : State) (p q : Nat) (v : Word) (x : HostQueue), x = s.queue q → p < 2 → q < 64 →
    (x.wait = none → (natField x.qctl.toNat 63 63 = 0 ∨ natField x.qctl.toNat 59 59 = p) →
      ∃ t, exec (.qctlWrite p q v) s = .next t ∧ t.mem = s.mem ∧ t.queue q = { x with wait := some v, since := s.cycle }) ∧
    (x.wait = none → natField x.qctl.toNat 63 63 = 1 → natField x.qctl.toNat 59 59 ≠ p →
      ∃ t, exec (.qctlWrite p q v) s = .next t ∧ t.mem = s.mem ∧ (t.queue q).wait = none ∧ natField (t.queue q).qctl.toNat 62 62 = 1 ∧
        ∀ i < 64, i ≠ 62 → (t.queue q).qctl.getLsbD i = x.qctl.getLsbD i) ∧
    (∀ w : Word, x.wait = some w →
      ((natField w.toNat 63 63 = 1 ∧ (∀ d, s.phys (natField x.qbase.toNat 47 12 * 4096) ≠ .tierH ∧
            s.phys (natField x.qbase.toNat 47 12 * 4096) ≠ .host d)) ∨ 2 ≤ natField w.toNat 61 60 ∨ natField w.toNat 39 35 < 4 ∨
          16 < natField w.toNat 39 35 ∨ (natField x.qctl.toNat 63 63 = 1 ∧ natField w.toNat 61 35 ≠ natField x.qctl.toNat 61 35) ∨
          (natField w.toNat 63 63 = 1 ∧ s.purser.mode = 1) →
        ∃ t, exec (.qctlApply q) s = .next t ∧ t.mem = s.mem ∧ (t.queue q).wait = none ∧ natField (t.queue q).qctl.toNat 62 62 = 1 ∧
          ∀ i < 64, i ≠ 62 → (t.queue q).qctl.getLsbD i = x.qctl.getLsbD i) ∧
      (s.phys (natField x.qbase.toNat 47 12 * 4096) = .tierH ∨ (∃ d, s.phys (natField x.qbase.toNat 47 12 * 4096) = .host d) → natField w.toNat 61 60 < 2 → 4 ≤ natField w.toNat 39 35 →
        natField w.toNat 39 35 ≤ 16 → (natField x.qctl.toNat 63 63 = 1 → natField w.toNat 61 35 = natField x.qctl.toNat 61 35) →
        s.purser.mode = 0 →
        ∃ t, exec (.qctlApply q) s = .next t ∧ t.mem = s.mem ∧ (t.queue q).wait = none ∧
          natField (t.queue q).qctl.toNat 63 63 = natField w.toNat 63 63 ∧ natField (t.queue q).qctl.toNat 61 35 = natField w.toNat 61 35 ∧
          natField (t.queue q).qctl.toNat 34 0 = 0 ∧
          natField (t.queue q).qctl.toNat 62 62 = if natField w.toNat 62 62 = 1 then 0 else natField x.qctl.toNat 62 62)) ∧
    (x.wait = none → exec (.qctlApply q) s = .fault .notEnabled) ∧
    ((natField x.qctl.toNat 59 59 ≠ p ∨ 2 ^ natField x.qctl.toNat 39 35 < (v.toNat % 2 ^ 32 + 2 ^ 32 - x.qhead) % 2 ^ 32) →
      ∃ t, exec (.qtailWrite p q v) s = .next t ∧ t.mem = s.mem ∧ (t.queue q).qtail = x.qtail ∧ natField (t.queue q).qctl.toNat 62 62 = 1) ∧
    (natField x.qctl.toNat 59 59 = p → (v.toNat % 2 ^ 32 + 2 ^ 32 - x.qhead) % 2 ^ 32 ≤ 2 ^ natField x.qctl.toNat 39 35 →
      ∃ t, exec (.qtailWrite p q v) s = .next t ∧ t.mem = s.mem ∧ t.queue q = { x with qtail := v.toNat % 2 ^ 32 })

/-- 23 R430, R431, R437: a reset of the device runs the boot. -/
def Sys2Proof.Claim.BootRows : Prop :=
  ∀ (s : State),
    (∀ os, ∃ t, exec (.deviceReset os) s = .next t ∧ t.purser.bootcnt = s.purser.bootcnt + 1) ∧
    (∀ os, s.purser.steps = [] → s.purser.lasting = [] → (∀ o ∈ os, o.failed = false ∧ o.units = [] ∧ o.time ≤ 50000) →
      ∃ t, exec (.deviceReset os) s = .next t ∧ t.purser.attempt = 0 ∧ t.purser.mode = 0 ∧
        (∀ n, 1 ≤ n → n ≤ 10 → (Tab.get t.purser.steps default n).state = 1 ∧ (Tab.get t.purser.steps default n).next = 0) ∧
        natField (t.mem.read 0 8) 63 32 = (s.purser.bootcnt + 1) % 2 ^ 32 ∧ natField (t.mem.read 0 8) 31 24 = 0 ∧
        (∀ n, 1 ≤ n → n ≤ 10 → t.mem.read (0x40 + 16 * (n - 1)) 8 % 256 = 1) ∧
        t.cores = State.reset.cores ∧ t.spaces = State.reset.spaces ∧ t.queues = State.reset.queues ∧ t.tasks = State.reset.tasks ∧
        t.cycle = 0 ∧ t.pregrace = 0x10000 ∧ t.fabric.cwtmo = 100 ∧ t.fabric.cwcomb = 16 ∧ t.fabric.peer = s.fabric.peer ∧
        t.fabric.cwdim = s.fabric.cwdim ∧ t.fabric.links = [] ∧ (∀ p < 2, (t.port p).down = false) ∧
        ∀ m, 3 ≤ m → Tab.get t.purser.meas 0 m = 0) ∧
    (∀ o, s.purser.steps = [] → o.failed = true → o.time ≤ 50000 →
      ∃ t, exec (.deviceReset [o]) s = .next t ∧ t.purser.attempt = min 3 (s.purser.attempt + 1) ∧
        (Tab.get t.purser.steps default 1).state = 2 ∧ (t.purser.mode = 1 ↔ 2 ≤ s.purser.attempt) ∧
        (t.port 1).down = true ∧ (t.port 0).down = decide (s.purser.attempt < 2)) ∧
    (∀ n, s.purser.current = some n →
      (∃ t, exec (.bootStepLimitExpiry n) s = .next t) ∧
      (n = 1 ∨ n = 10 → ∃ t, exec (.bootStepLimitExpiry n) s = .next t ∧ t.purser.current = none ∧
        t.purser.attempt = min 3 (s.purser.attempt + 1) ∧ (Tab.get t.purser.steps default n).state = 2)) ∧
    (∀ n, s.purser.current ≠ some n → exec (.bootStepLimitExpiry n) s = .fault .notEnabled)

/-- 00 R5, 23 R432 to R438: a hold of a block keeps it from new work for its cycles and changes nothing else; the power status, the error history, the sparing
of rows and the attestation are written as the rules say. -/
def Sys2Proof.Claim.PurserRows : Prop :=
  ∀ (s : State),
    (∀ die block n, die < 8 → ∃ t, exec (.blockHold die block n) s = .next t ∧ t.mem = s.mem ∧ t.cycle = s.cycle ∧
      (∀ k c, t.ctx k c = s.ctx k c) ∧
      (∀ k p, t.part k p = if block < 144 ∧ k = 36 * die + block / 4 ∧ p = block % 4
        then { s.part k p with hold := (s.part k p).hold + n } else s.part k p) ∧
      (∀ k, (t.core k).landing = (s.core k).landing ∧ (t.core k).hold =
        if 144 ≤ block ∧ block < 180 ∧ k = 36 * die + (block - 144) then (s.core k).hold + n else (s.core k).hold) ∧
      ∀ r, Tab.get t.fabric.holds 0 r = if (block = 180 ∧ r = die) ∨ (block = 181 ∧ r = 8) ∨ (block = 182 ∧ r = 9)
        then Tab.get s.fabric.holds 0 r + n else Tab.get s.fabric.holds 0 r) ∧
    (∀ k p, 0 < (s.part k p).hold → exec (.issuePass k p) s = .fault .notEnabled) ∧
    (∀ k b, 0 < (s.core k).hold → exec (.landingBankServe k b) s = .fault .notEnabled) ∧
    (s.purser.powers < s.devtime / 10000000 → ∃ t, exec .powerStatusUpdate s = .next t ∧ t.cores = s.cores ∧
      t.purser.powers = s.devtime / 10000000 ∧ (∀ i < 8, t.mem.read (0x8040 + 8 * i) 8 = (s.die i).heldCyc % 2 ^ 64) ∧
      (∀ i < 6, t.mem.read (0x8000 + 8 * i) 8 ≤ [6400000, 3200000, 1500000, 700000, 500000, 500000].getD i 0) ∧ t.mem.read 0x8030 16 = 0 ∧ ∀ a, a < 0x8000 ∨ 0x8080 ≤ a → t.mem.byte a = s.mem.byte a) ∧
    (s.devtime / 10000000 ≤ s.purser.powers → exec .powerStatusUpdate s = .fault .notEnabled) ∧
    (∀ u (cor rec_ : Bool) (status : Word) n, histOk s → n = (match s.purser.errors.find? (fun e => e.unit == u) with
        | some e => (e.times.filter (fun x => decide (s.purser.clock + s.devtime ≤ x + (unitLimit u).1))).length | none => 0) +
          (if cor = (unitLimit u).2.2 then 1 else 0) →
      ∃ t, exec (.errorHistoryEntry u cor rec_ status) s = .next t ∧ t.cores = s.cores ∧
        entered s t u (if (unitLimit u).2.1 ≤ n ∨ (rec_ = true ∧ cor = false) then 2 else 1) n status ∧
        ((unitLimit u).2.1 ≤ n ∨ (rec_ = true ∧ cor = false) →
          (∀ a, u = .hbmLine a → a / 64 ∈ t.purser.sparing) ∧ (∀ k, u = .core k → (7, k) ∈ t.purser.lasting) ∧
          (∀ l, u = .link l → l ∈ t.purser.downLinks))) ∧
    (∀ a, histOk s → a / 64 ∈ s.purser.sparing →
      (Tab.get s.purser.spares 0 (a / 0xC00000000) < 512 → ∃ t, exec (.rowSpare a) s = .next t ∧ t.cores = s.cores ∧
        Tab.get t.purser.spares 0 (a / 0xC00000000) = Tab.get s.purser.spares 0 (a / 0xC00000000) + 1 ∧ entered s t (.hbmLine a) 3 0 0 ∧
        a / 64 ∉ t.purser.sparing) ∧
      (512 ≤ Tab.get s.purser.spares 0 (a / 0xC00000000) → ∃ t, exec (.rowSpare a) s = .next t ∧ t.cores = s.cores ∧
        a / 2 ^ 15 ∈ t.purser.retired ∧ entered s t (.hbmLine a) 5 0 0)) ∧
    (∀ a, a / 64 ∉ s.purser.sparing → exec (.rowSpare a) s = .fault .notEnabled) ∧
    (∀ req, s.purser.polls < s.devtime / 100000 → req = s.mem.read 0x1020 8 →
      (req ≠ 0 → req ≠ s.purser.served.toNat → ∃ t, exec .attestationPoll s = .next t ∧ t.cores = s.cores ∧ t.mem.read 0x2000 8 = req ∧
        (∀ i < 32, t.mem.byte (0x2020 + i) = s.mem.byte (0x1000 + i)) ∧
        (∀ m < 8, t.mem.read (0x2040 + 32 * m) 32 = (Tab.get s.purser.meas 0 m).toNat) ∧ t.purser.served.toNat = req ∧
        ∀ a, a < 0x2000 ∨ 0x8000 ≤ a → t.mem.byte a = s.mem.byte a) ∧
      (req = 0 ∨ req = s.purser.served.toNat → ∃ t, exec .attestationPoll s = .next t ∧ t.mem = s.mem))

namespace Sys2Proof.Claim

/-- An instruction that has words of its own: every one that its encoding names but two spellings of figure numbers 0x70 to
0xFF, whose words the decoder reads as a figure that its table entry binds (04 R87, R88). -/
def hasWords (i : Instr) : Prop :=
  encForm i ≠ .none ∧ (∀ n f, i ≠ .hardBoundFigure n f) ∧ ∀ n f, i = .unboundFigureIssue n f → n.toNat < 0x70

/-- The values of x[0], c[15] and p7, whatever is written to them. -/
def hardwired (c : Ctx) (l : Lane) : Prop :=
  (∀ v : Word, (c.setX 0 v).getX 0 = 0 ∧ (c.setX 0 v).full 0 = true) ∧ (∀ v, (c.setC 15 v).getC 15 = true) ∧
    ∀ v, (l.setP 7 v).getP 7 = true

end Sys2Proof.Claim

/-- 02 R41 to R46, 03 R74, R75, 04 R85 to R91: decoding an encoded instruction gives it back, every operand at every value its
encoding admits. -/
def Obligations.EncodingRoundTrip : Prop := ∀ i : Instr, i.wf = true → hasWords i → decode (encode i) = .ok i

/-- 03 R74, R75, 04 R90, R91: two different lane words never mean the same: the words of what a lane word decodes to are that word. -/
def Obligations.LaneWordsKept : Prop :=
  ∀ (w0 w1 : W32) (i : Instr), decodeLane w0 w1 = .ok i → i.wf = true ∧ encode i = if w0.getLsbD 25 then [w0, w1] else [w0]

/-- 02 R41 to R46, 03 R74, R75, 04 R85, R87, R90, R91: words written out from the encodings of the spec. -/
def Obligations.DecodeSampleWords : Prop :=
  -- iadd.n32-short v3, v4, v5: op 0x01, short, guard p7
  decodeLane 0b000001_0_0_111_0000011_0000100_0000101 0 = .ok (.iadd ⟨false, 7, 3, 4, 5⟩) ∧
  -- the long form of opcode 0x01: type .n32, an immediate of 9
  decodeLane 0b000001_1_1_010_0000011_0000100_0000000 0b000000_01010_1_0000_0000000000001001 =
    .ok (.iaddLong ⟨true, 2, 3, 4, 0, 0x0A, true, 0, 9⟩) ∧
  decodeTableWord 32 0b000001_0_0_111_0000011_0000100_0000101 = some (.iadd ⟨false, 7, 3, 4, 5⟩) ∧
  (∀ w1, decodeLane 0 w1 = .error .laneUnassigned) ∧
  -- add x3, x4, x5 alone in S0: opcode 0x01, guard 31
  (let w : BitVec 48 := 0b0000001_11111_000011_1_000100_1_000101_0000000000000000
   slotOp w = 1 ∧ slotGuard w = 31 ∧ (slotFields w none).dst = 3 ∧ (slotFields w none).sa = 4 ∧ (slotFields w none).sb = 5) ∧
  -- tres in E
  decodeEngine 0b00000000_11111_000_00_000001_0_00_000000_0_00_000000_0_00_000000_0_000000000000 =
    .tres ⟨0, ⟨0, 1, false⟩, ⟨0, 0, false⟩, ⟨0, 0, false⟩, ⟨0, 0, false⟩, 0⟩

/-- 02 R43, 03 R73, R74, 04 R82 to R91, 23 R442: a step runs what comes next: the agenda, else what is due in the
cycle, else the end of the cycle or any happening that may come (logs 3, 4); a pass runs the lane instruction that the words at its
PC decode to, and a slot of a bundle the operation that its word decodes to. Of the model's own readings and choices (NOTES.md) it rests on log 3, 4, 6, 7, 45. -/
def Obligations.StepRunsDecodedInstruction : Prop :=
  ∀ (s : State),
    (∀ n i rest, s.agenda = (n, i) :: rest → step s = exec i { (s.advance n) with tick := s.tick + 1, agenda := rest }) ∧
    (∀ s0 : State, s.agenda = [] → s0 = { s with tick := s.tick + 1 } →
      (∀ t, s0.runDue = some t → step s = .next t ∧ ∃ h ∈ s0.dues, h s0 = .next t) ∧
      (s0.runDue = none → (∀ h ∈ s0.dues, ∀ t, h s0 ≠ .next t) ∧
        (Config.cycleEnds s.tick = true → step s = .next s0.passTime) ∧
        ∀ i, Config.cycleEnds s.tick = false → i = Config.nextTurn s.tick →
          (i.wf = true → ∀ t, exec i s0 = .next t → step s = .next t) ∧
          (i.wf = false ∨ exec i s0 = .fault .notEnabled → step s = .next s0))) ∧
    (∀ k p b w0 w1 s0 s1 i z t, (s.part k p).strands ≠ [] → s.mayPass k p = true →
      s0 = s.modCore k (fun c => { c with passed := (s.cycle + 1, p + 1) }) → s0.pushWait k p = none → s0.unitsNow k p = [(b, none)] →
      s0.fetchLane k p b.gang (maskClass false ((passOf [b]).map (fun r => r.lane))) b.pc = .ok (w0, w1, s1) → decodeLane w0 w1 = .ok i →
      z = { s1 with turn := ⟨k, 0, p, passOf [b]⟩ } → exec i z = .next t →
      ∃ y, exec (.issuePass k p) s = .next y ∧ y.mem = t.mem ∧ (∀ j c, y.ctx j c = t.ctx j c) ∧
        ∀ j q sl, y.strand j q sl = t.strand j q sl) ∧
    (∀ op mkI f, codeRow scalarCodes op = some mkI → ∃ mkR, codeRow scalarMeans op = some mkR ∧
      ∀ z, exec (mkI f) z = issueOne (if isFerryCode op then 1 else 0) (mkR f) z) ∧
    (∀ w, ∃ op, engineSlot (decodeEngine w) = some op ∧ ∀ z, exec (decodeEngine w) z = issueOne 2 op z)

/-- Every step keeps global memory in its canonical form. Of the model's own readings and choices (NOTES.md) it rests on log 2, 3. -/
def Obligations.GlobalMemoryCanonicalKept : Prop := ∀ s t : State, s.mem.wf = true → step s = .next t → t.mem.wf = true

/-- The canonical form holds at reset; so do the reset values that the rules state: 05 R119, 09 R214, R227, 03 R71, 16 R337, R342, 19
R379, 22 R412, R415, R416. Of the model's own readings and choices (NOTES.md) it rests on log 2. -/
def Obligations.ResetState : Prop :=
  State.reset.mem.wf = true ∧ State.reset.cycle = 0 ∧ State.reset.devtime = 0 ∧ State.reset.pregrace = 0x10000 ∧
    State.reset.ckptEn = true ∧ State.reset.fabric.cwtmo = 100 ∧ State.reset.fabric.cwcomb = 16 ∧ State.reset.cwcyc = 0 ∧
    (∀ k n, counter State.reset k n = 0) ∧ (∀ k a, (State.reset.core k).landing.byte a = 0) ∧
    (∀ k ch, (State.reset.chan k ch).next = 0 ∧ (State.reset.chan k ch).wm = 0) ∧
    (∀ k p, (State.reset.part k p).hangLimit = 0x00100000) ∧ (∀ a, (State.reset.space a).trapring = 0 ∧ (State.reset.space a).dbgring = 0) ∧
    (∀ q, (State.reset.queue q).qctl = 0 ∧ (State.reset.queue q).qbase = 0 ∧ (State.reset.queue q).qtail = 0 ∧
      (State.reset.queue q).qhead = 0 ∧ (State.reset.queue q).qdone = 0 ∧ (State.reset.queue q).nfail = 0) ∧
    (∀ p, (State.reset.port p).win = 0) ∧ (∀ k c, (State.reset.ctx k c).running = false ∧ (State.reset.ctx k c).task = none)

/-- No step ends in a refusal, and none in a fault but where an instruction's condition does not hold. Of the model's own readings and choices (NOTES.md) it rests on log 3, 5. -/
def Obligations.NoStepRefused : Prop :=
  (∀ (i : Instr) (s : State) r, exec i s ≠ .refused r) ∧ ∀ (s : State) r, step s ≠ .refused r

/-- 02 R32, R48, 03 R57: x0 reads zero, c15 and p7 read one, whatever is written to them. -/
def Obligations.HardwiredRegisters : Prop := ∀ (c : Ctx) (l : Lane), hardwired c l

/-- 02 R39, 16 R340, R343: taking a trap stops the context and adds its record; it changes nothing else. -/
def Obligations.TrapEntry : Prop :=
  ∀ (s : State) (k c : Nat) (at_ : TrapAt) (cls : TrapClass) (addr status : Word) (t : State),
    t = s.takeTrap k c at_ cls addr status → (s.ctx k c).recs.length < 8 →
    (∃ r, t.ctx k c = { s.ctx k c with stopped := true, recs := (s.ctx k c).recs ++ [r] } ∧ r.cls = cls ∧ r.engine = at_.engine ∧
      r.eidx = at_.eidx ∧ r.slot = at_.slot ∧ r.pc = at_.pc ∧ r.cmd = at_.cmd ∧ r.inst = at_.inst ∧ r.addr = addr ∧ r.status = status ∧
      r.replay = false ∧ r.asid = (s.ctx k c).asid ∧ r.privl = (s.ctx k c).priv ∧ r.inh = (s.ctx k c).ev.inh ∧ r.ctxid = ctxId k c ∧
      r.time = s.devtime ∧ r.seq = none ∧ r.answer = none ∧ ∀ n, (s.ctx k c).task = some n → r.topb = (s.task n).topb) ∧
    sameMemory s t ∧ t.tasks = s.tasks ∧ t.spaces = s.spaces ∧ t.fabric = s.fabric ∧ (∀ d, d ≠ c → t.ctx k d = s.ctx k d) ∧
    ∀ j, j ≠ k → t.core j = s.core j

/-- 16 R339: the codes of the trap classes, and of the SAVED notice. -/
def Obligations.TrapClassCodes : Prop :=
  [TrapClass.illegalOp, .retiredOp, .illegalBundle, .unboundFigure, .emptyRead, .illegalConvergence, .nesting, .align].map TrapClass.code =
      [0x01, 0x02, 0x03, 0x04, 0x05, 0x06, 0x07, 0x08] ∧
    [TrapClass.page, .landingRange, .tileState, .format, .memUncorrectable, .fabricPeer, .fabricTimeout, .queueStale].map TrapClass.code =
      [0x09, 0x0A, 0x0B, 0x0C, 0x0D, 0x0E, 0x0F, 0x10] ∧
    [TrapClass.spawnDeadlock, .merge, .hang, .break_, .divide, .priv, .savedNotice].map TrapClass.code =
      [0x11, 0x12, 0x13, 0x14, 0x15, 0x16, 0x80] ∧
    (∀ c : TrapClass, c ≠ .savedNotice → 0x01 ≤ c.code ∧ c.code ≤ 0x16) ∧ ∀ c d : TrapClass, c.code = d.code → c = d

/-- 14 R296: the steps of a nest run in lexicographic order, level 0 outermost and level 5 fastest: the position of step n is a
position of the nest, n is its number in that order, and the step runs with i0 to i5 at its position. -/
def Obligations.StepNestOrder : Prop :=
  ∀ (t : Task),
    (∀ d, t.extent d = natField (t.words.read 32 8) (10 * d + 9) (10 * d) + 1) ∧
    (t.words.read 32 8 = 0 → t.numSteps = 1) ∧ (∀ d < 6, 1 ≤ t.extent d ∧ t.extent d ≤ 1024) ∧
    (∀ c n, ∀ d < 6, Tab.get (startRegs t n c).ireg 0 d = BitVec.ofNat 64 (t.stepPos n d)) ∧
    ∀ n, n < t.numSteps → (∀ d < 6, t.stepPos n d < t.extent d) ∧
      n = ((((t.stepPos n 0 * t.extent 1 + t.stepPos n 1) * t.extent 2 + t.stepPos n 2) * t.extent 3 + t.stepPos n 3) * t.extent 4 +
        t.stepPos n 4) * t.extent 5 + t.stepPos n 5

namespace Sys2Proof.Claim

/-- Every lane of the pass stands at the next PC. -/
def goesOn (s t : State) : Prop := ∀ r ∈ pass s, (lane t r).pc = passPc s + 8

/-- In every active lane the destination register, or pair, is pending: the lane has asked and waits for its answer (03 R61). -/
def awaits (s t : State) (f : LLong) (wide : Bool) : Prop :=
  ∀ r ∈ active s f.gn f.gp, ∀ n ∈ regs wide f.d.toNat, n ∈ (lane t r).pendV

/-- The task may reach the peer that a handle of each active lane names (08 R203). -/
abbrev handlePeersOn (s : State) (f : LLong) : Prop := ∀ r ∈ active s f.gn f.gp, peerOn s ((pairOf s f.a.toNat r).toNat % 2 ^ 12)

/-- The context waits, and can be swapped out (16 R441). -/
def swapWait (x : Ctx) : Prop :=
  x.stopped = false ∧ x.preStop = none ∧ x.preReq = false ∧
    (x.running = false ∨ (∃ sl, x.wait = .spawnPark sl) ∨ x.wait = .sync ∨ ∃ l a, x.wait = .twany l a)

/-- A wait of the core's strands for a notice is overdue (19 R387). -/
def overdueWait (s : State) (k : Nat) : Prop :=
  ∃ p < 4, ∃ e ∈ (s.part k p).strands, ∃ r ∈ e.2.results, ∃ h m d, r.src = .notice h m d ∧ d ≤ s.devtime ∧ s.noticeOf h = none

end Sys2Proof.Claim

/-- 08 R203 to R207: each instruction of the fabric completes: legal fields, ready operands, and a peer that the task may
reach are enough; the pass goes on, and what waits for an answer is pending. Of the model's own readings and choices (NOTES.md) it rests on log 7, 82, 84. -/
def Obligations.LaneFabricCompletes : Prop :=
  ∀ (s : State) (f : LLong), active s f.gn f.gp ≠ [] →
    ((f.u = true → f.b.toNat < 32) → ready s f.gn f.gp ((f.d.toNat, tyWide f.ty.toNat) :: (f.a.toNat, true) :: breg f false false) [] →
      (∀ r ∈ active s f.gn f.gp, peerNo s f r < 4096 ∧ peerOn s (peerNo s f r) ∧ (remoteAddr s f r).toNat % tySize f.ty.toNat = 0) →
      (f.ty.toNat ∈ tysBits → f.mod = 0 → ∃ t, exec (.rget f) s = .next t ∧ goesOn s t ∧ awaits s t f (tyWide f.ty.toNat)) ∧
      (atomTyOk f.mod.toNat f.ty.toNat = true → ∃ t, exec (.ratom f) s = .next t ∧ goesOn s t ∧ awaits s t f (tyWide f.ty.toNat))) ∧
    (f.ty = 0 → f.u = true → f.b.toNat < 32 → f.a = 0 → f.imm = 0 → f.mod = 0 → ready s f.gn f.gp [(f.d.toNat, true)] [] →
      (∀ r ∈ active s f.gn f.gp, slotDescOk ((strand s r.slot).getS f.b.toNat).toNat = true ∧
        peerOn s (((strand s r.slot).getS f.b.toNat).toNat % 2 ^ 12)) →
      ∃ t, exec (.rslotAlloc f) s = .next t ∧ goesOn s t ∧ awaits s t f true) ∧
    (f.d = 0 → f.imm = 0 → solo s → peerOn s ((pairOf s f.a.toNat (firstOn s f.gn f.gp)).toNat % 2 ^ 12) →
      (f.ty.toNat ∈ tysSlot → f.mod = 1 → (f.u = true → f.b.toNat < 32) →
        ready s f.gn f.gp ((f.a.toNat, true) :: breg f false (tyWide f.ty.toNat)) [] →
        ∃ t, exec (.rslotPut f) s = .next t ∧ goesOn s t) ∧
      (f.ty = 0 → f.mod = 3 → f.b = 0 → f.u = false → ready s f.gn f.gp [(f.a.toNat, true)] [] →
        ∃ t, exec (.rslotFree f) s = .next t ∧ goesOn s t)) ∧
    (f.mod.toNat % 4 = 2 → f.mod.toNat < 12 → f.b = 0 → f.u = false → f.imm = 0 →
      (if f.mod.toNat < 4 then f.ty.toNat ∈ tysSlot else f.ty = 2) →
      ready s f.gn f.gp [(f.d.toNat, tyWide f.ty.toNat), (f.a.toNat, true)] [] → handlePeersOn s f →
      ∃ t, exec (.rslotGet f) s = .next t ∧ goesOn s t ∧ (f.mod.toNat < 8 → awaits s t f (tyWide f.ty.toNat))) ∧
    (f.ty = 0 → f.imm = 0 → f.mod = 0 → (f.u = true → f.b.toNat < 32) →
      ready s f.gn f.gp ((f.d.toNat, false) :: (f.a.toNat, true) :: breg f false false) [] → handlePeersOn s f →
      (∀ r ∈ active s f.gn f.gp, bitsIn (pairOf s f.a.toNat r).toNat 0xFFFF000000FF0FFF = true ∧ recordAt s f r % 64 = 0 ∧
        0x1000 ≤ recordPlace s f r ∧ recordPlace s f r + 64 ≤ 0x800000) →
      (∀ q ∈ (s.core s.turn.core).requests, q.want ≠ 14) → (s.core s.turn.core).badLand = [] →
      ∃ t, exec (.renq f) s = .next t ∧ goesOn s t ∧ awaits s t f false) ∧
    (∀ (st : Strand) (d : BxDesc), wholePass s → st = strand s (lead s).slot →
      d = bxDesc (st.getS f.a.toNat) (st.getS (f.a.toNat + 1)) (st.getS (f.a.toNat + 2)) (st.getS (f.a.toNat + 3)) true →
      f.ty = 0 → f.mod = 1 → f.d = 0 → f.b = 0 → f.u = false → f.imm = 0 → f.a.toNat < 32 → f.a.toNat % 4 = 0 → ready s f.gn f.gp [] [] →
      d.ok = true → d.src % 16 = 0 → d.daddr % 16 = 0 → 0x1000 ≤ d.daddr → d.daddr + d.len ≤ 0x800000 →
      (∀ u ∈ s.bxUnits (gangAgent s) true d.src d.len, 0x1000 ≤ u ∧ u + 16 ≤ 0x800000) → (s.core s.turn.core).badLand = [] →
      peerOn s d.peer → ∃ t, exec (.bxfer f) s = .next t ∧ goesOn s t)

/-- 03 R72, 08 R204, 12 R282, 16 R346, R347, R350, R441, 19 R372, R381, R382, R387, R388: the happenings of pre-emption and
restoring, and those of what comes back to a core, complete where their condition holds. Of the model's own readings and choices (NOTES.md) it rests on log 30, 78, 106. -/
def Obligations.PreemptionAndReplyRowsComplete : Prop :=
  ∀ (s : State),
    (∀ i v, ∃ t, exec (.preemptWrite i v) s = .next t) ∧
    (∀ core ctx n, (s.ctx core ctx).task = some n →
      ((s.ctx core ctx).preSeen = true → (s.ctx core ctx).preStop = none → (s.ctx core ctx).atPoint = true →
        ∃ t, exec (.preemptStop core ctx) s = .next t ∧ (t.ctx core ctx).preStop = some s.cycle) ∧
      ((s.ctx core ctx).preStop ≠ none → (∀ e ∈ (s.task n).places, s.quietForSave e.1 e.2 = true) →
        ∃ t, exec (.preemptStop core ctx) s = .next t)) ∧
    (∀ core ctx c0 j, (s.ctx core ctx).preStop = some c0 → c0 + s.pregrace < s.cycle → j ∈ (s.core core).instances ctx → j.err = false →
      j.killed = false → ∃ t, exec (.graceExpiry core ctx) s = .next t) ∧
    (∀ n, (s.task n).started = true → (s.task n).complete = false → (s.task n).saved = [] →
      (∃ e ∈ (s.task n).places, (s.ctx e.1 e.2).running = true) →
      (∀ e ∈ (s.task n).places, (s.ctx e.1 e.2).task = some n ∧ swapWait (s.ctx e.1 e.2)) →
      ∃ t, exec (.deviceSwap n) s = .next t ∧ (t.task n).swapped = true) ∧
    (∀ n die s1 h ps gs, (s.task n).saved ≠ [] → die = (match (s.task n).restore with | some (d, _) => d | none => (s.task n).lastCore / 36) →
      s1 = s.examineHeads die → (∀ x ∈ s1.openHeads die, s1.headCause die x = 0) → s1.chooseHead die (s1.openHeads die) = some (h, ps) →
      h.kind = 0 → h.task = n → s1.headFits die h = some gs → ∃ t, exec (.taskRestore n) s = .next t) ∧
    (∀ core ctx n i item, (s.ctx core ctx).task = some n → (s.task n).placeOf core ctx = some i → s.ckptEn = true →
      (s.ctx core ctx).running = true → (s.ctx core ctx).preStop = none → item ∈ (s.task n).items i →
      s.itemDirty n i core ctx item = true → ∃ t, exec (.checkpointStream core ctx item) s = .next t) ∧
    (∀ core part slot pc st b, Tab.find (s.part core part).strands slot = some st → st.stopped = true → st.finished = false →
      (∃ e ∈ (s.core core).ctxs, ∃ r ∈ e.2.recs, r.cls = .break_ ∧ r.inst = some st.gang) →
      (s.modJob core st.gang (fun j => { j with err := false })).subsetAt core part slot { st with stopped := false } pc = some b →
      b.ready (s.modJob core st.gang (fun j => { j with err := false })) core part = true →
      ∃ t, exec (.singleStep core part slot (some pc)) s = .next t) ∧
    (∀ k p, takes s p →
      ([3, 5, 7, 9, 14].contains p.ptype = true → ∃ t, exec (.replyArrival k p) s = .next t) ∧
      (p.ptype = 15 → ∃ t, exec (.refusalArrival k p) s = .next t) ∧
      (p.ptype = 1 → ∃ t, exec (.bulkAckArrival k p) s = .next t)) ∧
    (∀ k n q, (s.core k).requests[n]? = some q →
      (q.tag ≠ 0xFFFF → q.sent + s.fabric.cwtmo * 1000 ≤ s.devtime → ∃ t, exec (.requestTimeout k n) s = .next t) ∧
      (∀ d, q.backoff = some d → d ≤ s.fabNow → ∃ t, exec (.enqueueRetry k n) s = .next t)) ∧
    (∀ k tag d, (tag, d) ∈ (s.core k).coolTags → d ≤ s.devtime → ∃ t, exec (.timedOutTagRelease k tag) s = .next t) ∧
    (∀ k, overdueWait s k → ∃ t, exec (.rslotGetTimeout k 0) s = .next t)

/-- 05 R97, R98, 02 R45: the results of the scalar arithmetic instructions, in all their forms. Of the model's own readings and choices (NOTES.md) it rests on log 7, 65, 66, 103. -/
def Obligations.ScalarArithmeticResults : Prop :=
  Claim.ScalarRegisterFormResults ∧ Claim.ScalarOneSourceResults ∧ Claim.ScalarImmediateFormResults

/-- 05 R99, R100: the results of division, and of the compares. Of the model's own readings and choices (NOTES.md) it rests on log 7. -/
def Obligations.ScalarDivisionAndCompareResults : Prop :=
  Claim.ScalarDivisionResults ∧ Claim.ScalarCompareResults

/-- 02 R34, R35, 05 R96, R98, R100, R101: what the scalar register and condition instructions leave unchanged, and what an empty register does. Of the model's own readings and choices (NOTES.md) it rests on log 7. -/
def Obligations.ScalarFrames : Prop :=
  Claim.ScalarEmptyRegisters ∧ Claim.ScalarRegisterFrame ∧ Claim.ScalarConditionFrame

/-- 05 R102, R103, R107, R108: the scalar accesses to Landing and its counters: results, traps and frame. Of the model's own readings and choices (NOTES.md) it rests on log 7, 20, 57. -/
def Obligations.LandingAccesses : Prop :=
  Claim.LandingLoadAndStoreResults ∧ Claim.LandingAccessTraps ∧ Claim.LandingAccessFrame ∧ Claim.CounterInstructions

/-- 05 R104, R105, 11 R257, 16 R331, R341: the scalar accesses to global memory: results, traps and frame. Of the model's own readings and choices (NOTES.md) it rests on log 7, 8, 20. -/
def Obligations.GlobalAccesses : Prop :=
  Claim.GlobalLoadAndStoreResults ∧ Claim.GlobalAccessTraps ∧ Claim.GlobalAccessFrame

/-- 05 R111 to R115, 14 R298: the ends of a step, the troupe's barrier, and spawning. Of the model's own readings and choices (NOTES.md) it rests on log 7, 29. -/
def Obligations.StepAndTroupeInstructions : Prop :=
  Claim.StepEndResults ∧ Claim.TroupeBarrier ∧ Claim.SpawnResults

/-- 05 R116 to R118, 10 R244, R247: event slots, waits and the returns from handlers. Of the model's own readings and choices (NOTES.md) it rests on log 7, 15. -/
def Obligations.EventAndWaitInstructions : Prop :=
  Claim.EventSlotResults ∧ Claim.WaitAndHandlerResults

/-- 05 R119, R121, 16 R335, R337: reads and writes of the control and system registers by a context. Of the model's own readings and choices (NOTES.md) it rests on log 7, 18. -/
def Obligations.ControlRegisterAccesses : Prop :=
  Claim.ControlRegisterReads ∧ Claim.ControlRegisterWrites

/-- 09 R219 to R227, R232, R237 to R242: the commands of the Ferry. Of the model's own readings and choices (NOTES.md) it rests on log 7, 25, 26, 27, 108. -/
def Obligations.FerryCommands : Prop :=
  Claim.FerryTableCommands ∧ Claim.FerryTransferCommands ∧ Claim.FerryChannelCommands

/-- 09 R227, R231, R234, R235, R239, 16 R345: what a Ferry transfer writes, and the happenings of a channel. Of the model's own readings and choices (NOTES.md) it rests on log 71, 73. -/
def Obligations.FerryTransfers : Prop :=
  Claim.FerryTransferCompletion ∧ Claim.FerryChannelRows

/-- 04 R88, R92, 06 R127, R128, R131, R148, R149, 12 R271 to R275: the issue of figures, and the fate of every figure number. Of the model's own readings and choices (NOTES.md) it rests on log 7, 11, 67, 97. -/
def Obligations.FigureIssue : Prop :=
  Claim.EngineFigureIssue ∧ Claim.FigureNumberOutcomes

/-- 06 R134, R135, R138, R139: reservation, release and configuration of tiles and accumulators. Of the model's own readings and choices (NOTES.md) it rests on log 7. -/
def Obligations.TileRegisters : Prop :=
  Claim.TileRegisterResults ∧ Claim.TileStateTraps

/-- 06 R127, R129, R143, R148, 11 R264, 12 R275 to R277: the life of an engine job, and of an instance. Of the model's own readings and choices (NOTES.md) it rests on log 21, 70, 95, 96, 98, 99. -/
def Obligations.EngineJobs : Prop :=
  Claim.EngineJobLife ∧ Claim.EngineHappenings

/-- 07 R152 to R156, R163, R164, R166, R167: the results of the lane arithmetic instructions. Of the model's own readings and choices (NOTES.md) it rests on log 7, 10. -/
def Obligations.LaneArithmeticResults : Prop :=
  Claim.LaneTwoSourceResults ∧ Claim.LaneOneSourceResults

/-- 07 R156, R158, R160 to R163, R165, R167 to R170: the bit fields, multiply-adds, compares and conversions of the lanes. Of the model's own readings and choices (NOTES.md) it rests on log 7, 49. -/
def Obligations.LaneFieldCompareConvertResults : Prop :=
  Claim.LaneFieldArithmeticResults ∧ Claim.LaneCompareResults ∧ Claim.LaneConversionResults

/-- 07 R171 to R174, R178, 09 R215, 11 R257, R267: the lanes' accesses to Landing and to global memory, and their traps. Of the model's own readings and choices (NOTES.md) it rests on log 7, 20, 57. -/
def Obligations.LaneMemoryAccesses : Prop :=
  Claim.LaneLandingAccesses ∧ Claim.LaneGlobalAccesses ∧ Claim.LaneAccessTraps

/-- 07 R176, R177, 08 R192 to R194: tile elements, and atomics. Of the model's own readings and choices (NOTES.md) it rests on log 7, 20, 58, 92. -/
def Obligations.LaneTileElementsAndAtomics : Prop :=
  Claim.LaneTileElements ∧ Claim.LaneAtomics

/-- 08 R181 to R187: control flow, joins and the gang barrier. Of the model's own readings and choices (NOTES.md) it rests on log 7. -/
def Obligations.LaneControl : Prop :=
  Claim.LaneControlFlow ∧ Claim.LaneBarriers

/-- 08 R188 to R191, R212: exchanges among lanes, and the ordering instructions. Of the model's own readings and choices (NOTES.md) it rests on log 7, 57. -/
def Obligations.LaneExchangeAndOrdering : Prop :=
  Claim.LaneExchangeResults ∧ Claim.LaneOrdering

/-- 08 R195 to R200, R202, R210, 10 R250: events, queues and mailboxes. Of the model's own readings and choices (NOTES.md) it rests on log 7, 59, 83. -/
def Obligations.LaneEventsQueuesMailboxes : Prop :=
  Claim.LaneEvents ∧ Claim.LaneQueues ∧ Claim.LaneMailboxes

/-- 08 R204 to R207: remote accesses, reduction slots and remote queues. Of the model's own readings and choices (NOTES.md) it rests on log 7, 81, 82, 84. -/
def Obligations.LaneFabric : Prop :=
  Claim.LaneRemoteAccesses ∧ Claim.LaneSlotsAndRemoteQueues

/-- 04 R92, 08 R208, R209, R211, R212, 16 R335, R337: figures of a routine, breakpoints, and control registers of a strand. Of the model's own readings and choices (NOTES.md) it rests on log 7, 18, 101. -/
def Obligations.LaneFigureBreakAndRegisters : Prop :=
  Claim.LaneFigureAndBreaks ∧ Claim.LaneControlRegisters

/-- 02 R37 to R40, R43, 03 R63 to R67: what issues, and what its issue does. Of the model's own readings and choices (NOTES.md) it rests on log 4, 36, 46, 48, 53, 56, 94, 100, 102. -/
def Obligations.IssueOfBundlesAndPasses : Prop :=
  Claim.IssueOfPassesAndBundles ∧ Claim.BundleRunsItsSlot

/-- 02 R33, 03 R61, 05 R105, 07 R175, 08 R193, R195, R196, R208, R210, 09 R217, 12 R277: results arrive; queues, reds and banks are served. Of the model's own readings and choices (NOTES.md) it rests on log 20, 57, 59, 64. -/
def Obligations.ArrivalsAndBanks : Prop :=
  Claim.ResultArrivals ∧ Claim.QueueRedAndBankRows

/-- 05 R117, R118, 08 R199 to R201, 10 R245, R246, R248, R250, R252: the event unit, and the entry of handlers. Of the model's own readings and choices (NOTES.md) it rests on log 3. -/
def Obligations.EventAndHandlerRows : Prop :=
  Claim.EventSlotRows ∧ Claim.HandlerRows

/-- 05 R111, 11 R259, 14 R296 to R303, R310, 22 R417, R418: launches, the dispatchers, and the start and the end of a step. Of the model's own readings and choices (NOTES.md) it rests on log 29, 76, 107. -/
def Obligations.StepAndDispatchRows : Prop :=
  Claim.StepRows ∧ Claim.DispatchRows

/-- 05 R112, R113, 14 R305, R307 to R315: spawning and merging. Of the model's own readings and choices (NOTES.md) it rests on log 31, 44, 63, 75, 79, 112, 114. -/
def Obligations.SpawnAndMergeRows : Prop :=
  Claim.SpawnRows ∧ Claim.MergeRows

/-- 16 R344, R345, R347: the answers to trap records. Of the model's own readings and choices (NOTES.md) it rests on log 19, 50, 52, 60. -/
def Obligations.TrapAnswerRows : Prop :=
  Claim.TrapAnswers ∧ Claim.TrapAnswerRules

/-- 12 R282, 14 R302, 16 R346 to R350, R441: pre-emption, saving, checkpoints and restoring. Of the model's own readings and choices (NOTES.md) it rests on log 30, 32, 47, 80, 90, 106. -/
def Obligations.PreemptionAndRestoreRows : Prop :=
  Claim.PreemptionRows ∧ Claim.RestoreRows

/-- 08 R202, R204, R205, 19 R372, R380, R383, R388: what peers ask, and how requests combine. Of the model's own readings and choices (NOTES.md) it rests on log 33, 34, 77. -/
def Obligations.ServingAndCombiningRows : Prop :=
  Claim.ServingRows ∧ Claim.CombiningRows

/-- 00 R8, 16 R336, R337, 19 R379, 22 R410, R412, R413, R415 to R417: what a host reads and writes. Of the model's own readings and choices (NOTES.md) it rests on log 34, 37, 62, 85, 86. -/
def Obligations.HostRows : Prop :=
  Claim.RegisterRows ∧ Claim.HostMemoryRows ∧ Claim.QueueRegisterRows

/-- 23 R430 to R438: the boot, and what the Purser keeps. Of the model's own readings and choices (NOTES.md) it rests on log 12, 13, 14, 40, 42, 87, 88, 105, 110. -/
def Obligations.BootAndPurserRows : Prop :=
  Claim.BootRows ∧ Claim.PurserRows
end

