-- ==== Sys2Proof/Laws/Tab.lean ====
section
/-! SUPPORT. Tables and memories: reading after writing, and the canonical form that every memory operation keeps. -/
namespace Sys2Proof.Laws
open Sys2Proof.Machine

theorem get_erase_same {α : Type} (t : Tab α) (d : α) (k : Nat) : Tab.get (t.erase k) d k = d := by
  induction t with
  | nil => rfl
  | cons e r ih =>
    obtain ⟨j, v⟩ := e
    by_cases h : j = k
    · simp [Tab.erase, h, ih]
    · simp [Tab.erase, h, Tab.get, ih]

theorem get_erase_other {α : Type} (t : Tab α) (d : α) (k j : Nat) (h : j ≠ k) :
    Tab.get (t.erase k) d j = Tab.get t d j := by
  induction t with
  | nil => rfl
  | cons e r ih =>
    obtain ⟨i, v⟩ := e
    by_cases hi : i = k
    · subst hi
      rw [Tab.erase, if_pos rfl, ih, Tab.get, if_neg (fun e => h e.symm)]
    · rw [Tab.erase, if_neg hi, Tab.get, Tab.get, ih]

theorem get_insert_same {α : Type} (t : Tab α) (d v : α) (k : Nat) (h : k ∉ t.keys) :
    Tab.get (t.insert k v) d k = v := by
  induction t with
  | nil => simp [Tab.insert, Tab.get]
  | cons e r ih =>
    obtain ⟨j, w⟩ := e
    simp only [Tab.keys, List.map_cons, List.mem_cons, not_or] at h
    by_cases hk : k < j
    · simp [Tab.insert, hk, Tab.get]
    · simp only [Tab.insert, hk, if_false, Tab.get]
      rw [if_neg (fun e => h.1 e.symm)]
      exact ih h.2

theorem get_insert_other {α : Type} (t : Tab α) (d v : α) (k j : Nat) (h : j ≠ k) :
    Tab.get (t.insert k v) d j = Tab.get t d j := by
  induction t with
  | nil => simp only [Tab.insert, Tab.get]; rw [if_neg (fun e => h e.symm)]
  | cons e r ih =>
    obtain ⟨i, w⟩ := e
    by_cases hk : k < i
    · simp only [Tab.insert, if_pos hk]; rw [Tab.get, if_neg (fun e => h e.symm)]
    · simp only [Tab.insert, if_neg hk, Tab.get, ih]

theorem not_mem_keys_erase {α : Type} (t : Tab α) (k : Nat) : k ∉ (t.erase k).keys := by
  induction t with
  | nil => simp [Tab.erase, Tab.keys]
  | cons e r ih =>
    obtain ⟨j, v⟩ := e
    by_cases h : j = k
    · simpa [Tab.erase, h] using ih
    · simp only [Tab.erase, h, if_false, Tab.keys, List.map_cons, List.mem_cons, not_or]
      exact ⟨fun e => h e.symm, ih⟩

@[simp] theorem get_put_same {α : Type} (t : Tab α) (d v : α) (k : Nat) : Tab.get (t.put k v) d k = v :=
  get_insert_same _ _ _ _ (not_mem_keys_erase t k)

theorem get_put_other {α : Type} (t : Tab α) (d v : α) (k j : Nat) (h : j ≠ k) :
    Tab.get (t.put k v) d j = Tab.get t d j := by
  rw [Tab.put, get_insert_other _ _ _ _ _ h, get_erase_other _ _ _ _ h]

@[simp] theorem get_set_same {α : Type} [DecidableEq α] (t : Tab α) (d v : α) (k : Nat) : Tab.get (t.set d k v) d k = v := by
  unfold Tab.set
  split
  · next h => rw [get_erase_same, h]
  · exact get_put_same _ _ _ _

theorem get_set_other {α : Type} [DecidableEq α] (t : Tab α) (d v : α) (k j : Nat) (h : j ≠ k) :
    Tab.get (t.set d k v) d j = Tab.get t d j := by
  unfold Tab.set
  split
  · exact get_erase_other _ _ _ _ h
  · exact get_put_other _ _ _ _ _ h

theorem erase_insert_same {α : Type} (t : Tab α) (k : Nat) (v : α) : (t.insert k v).erase k = t.erase k := by
  induction t with
  | nil => simp [Tab.insert, Tab.erase]
  | cons e r ih =>
    obtain ⟨j, w⟩ := e
    by_cases hk : k < j
    · simp [Tab.insert, hk, Tab.erase]
    · by_cases hj : j = k <;> simp [Tab.insert, hk, Tab.erase, hj, ih]

theorem erase_erase {α : Type} (t : Tab α) (k : Nat) : (t.erase k).erase k = t.erase k := by
  induction t with
  | nil => rfl
  | cons e r ih =>
    obtain ⟨j, v⟩ := e
    by_cases h : j = k <;> simp [Tab.erase, h, ih]

/-- A second write of one entry replaces the first. -/
@[simp] theorem put_put {α : Type} (t : Tab α) (k : Nat) (v w : α) : (t.put k v).put k w = t.put k w := by
  simp [Tab.put, erase_insert_same, erase_erase]

/-! ### The canonical form -/

theorem wfFrom_weaken {α : Type} [DecidableEq α] (d : α) (t : Tab α) (lo hi : Nat) (h : hi ≤ lo) (w : Tab.wfFrom d lo t = true) :
    Tab.wfFrom d hi t = true := by
  cases t with
  | nil => rfl
  | cons e r =>
    obtain ⟨j, v⟩ := e
    simp only [Tab.wfFrom, Bool.and_eq_true, decide_eq_true_eq] at w ⊢
    exact ⟨Nat.le_trans h w.1, w.2⟩

theorem wfFrom_erase {α : Type} [DecidableEq α] (d : α) (t : Tab α) (lo k : Nat) (w : Tab.wfFrom d lo t = true) :
    Tab.wfFrom d lo (t.erase k) = true := by
  induction t generalizing lo with
  | nil => rfl
  | cons e r ih =>
    obtain ⟨j, v⟩ := e
    simp only [Tab.wfFrom, Bool.and_eq_true, decide_eq_true_eq] at w
    by_cases h : j = k
    · simp only [Tab.erase, h, if_true]
      exact wfFrom_weaken d _ _ _ (by omega) (ih (j + 1) w.2.2)
    · simp only [Tab.erase, h, if_false, Tab.wfFrom, Bool.and_eq_true, decide_eq_true_eq]
      exact ⟨w.1, w.2.1, ih _ w.2.2⟩

theorem wfFrom_insert {α : Type} [DecidableEq α] (d v : α) (t : Tab α) (lo k : Nat) (hv : v ≠ d) (hk : k ∉ t.keys) (hlo : lo ≤ k)
    (w : Tab.wfFrom d lo t = true) : Tab.wfFrom d lo (t.insert k v) = true := by
  induction t generalizing lo with
  | nil => simp [Tab.insert, Tab.wfFrom, hv, hlo]
  | cons e r ih =>
    obtain ⟨j, x⟩ := e
    simp only [Tab.wfFrom, Bool.and_eq_true, decide_eq_true_eq] at w
    simp only [Tab.keys, List.map_cons, List.mem_cons, not_or] at hk
    by_cases h : k < j
    · simp only [Tab.insert, h, if_true, Tab.wfFrom, Bool.and_eq_true, decide_eq_true_eq]
      exact ⟨hlo, hv, by omega, w.2⟩
    · simp only [Tab.insert, h, if_false, Tab.wfFrom, Bool.and_eq_true, decide_eq_true_eq]
      exact ⟨w.1, w.2.1, ih _ hk.2 (by omega) w.2.2⟩

/-- A write that keeps the default out keeps the canonical form. -/
theorem wfFrom_set {α : Type} [DecidableEq α] (d v : α) (t : Tab α) (k : Nat) (w : Tab.wfFrom d 0 t = true) :
    Tab.wfFrom d 0 (t.set d k v) = true := by
  unfold Tab.set
  split
  · exact wfFrom_erase d t 0 k w
  · next h => exact wfFrom_insert d v _ 0 k h (not_mem_keys_erase t k) (Nat.zero_le k) (wfFrom_erase d t 0 k w)

/-- `setByte` keeps the canonical form. -/
theorem setByte_wf (m : Memory) (a : Nat) (b : Byte) (h : m.wf = true) : (m.setByte a b).wf = true := wfFrom_set _ _ _ _ h

/-- `write` keeps the canonical form. -/
theorem write_wf (n : Nat) (m : Memory) (a v : Nat) (h : m.wf = true) : (m.write a n v).wf = true := by
  induction n generalizing m a v with
  | zero => exact h
  | succ k ih => exact ih _ _ _ (setByte_wf m a _ h)

/-- `writeList` keeps the canonical form. -/
theorem writeList_wf (bs : List Byte) (m : Memory) (a : Nat) (h : m.wf = true) : (m.writeList a bs).wf = true := by
  induction bs generalizing m a with
  | nil => exact h
  | cons b r ih => exact ih _ _ (setByte_wf m a b h)

/-- The empty memory is canonical. -/
theorem empty_wf : Memory.wf [] = true := rfl

/-! ### Reading after writing -/

@[simp] theorem byte_setByte_same (m : Memory) (a : Nat) (b : Byte) : (m.setByte a b).byte a = b := get_set_same m 0 b a

theorem byte_setByte_other (m : Memory) (a j : Nat) (b : Byte) (h : j ≠ a) : (m.setByte a b).byte j = m.byte j :=
  get_set_other m 0 b a j h

/-- A write leaves every byte outside its range alone. -/
theorem byte_write_other (n : Nat) (m : Memory) (a v j : Nat) (h : j < a ∨ a + n ≤ j) : (m.write a n v).byte j = m.byte j := by
  induction n generalizing m a v with
  | zero => rfl
  | succ k ih =>
    rw [Memory.write, ih _ _ _ (by omega), byte_setByte_other _ _ _ _ (by omega)]

theorem byte_writeList_other (bs : List Byte) (m : Memory) (a j : Nat) (h : j < a ∨ a + bs.length ≤ j) :
    (m.writeList a bs).byte j = m.byte j := by
  induction bs generalizing m a with
  | nil => rfl
  | cons b r ih =>
    simp only [List.length_cons] at h
    rw [Memory.writeList, ih _ _ (by omega), byte_setByte_other _ _ _ _ (by omega)]

/-- A read after a write to the same place gives the value written, to the width of the access. -/
theorem read_write_same (n : Nat) (m : Memory) (a v : Nat) : (m.write a n v).read a n = v % 256 ^ n := by
  induction n generalizing m a v with
  | zero => simp [Memory.read, Nat.mod_one]
  | succ k ih =>
    have h : ((m.write a (k + 1) v).byte a).toNat = v % 256 := by
      rw [Memory.write, byte_write_other _ _ _ _ _ (by omega), byte_setByte_same]
      simp
    rw [Memory.read, h, Memory.write, ih, Nat.pow_succ, Nat.mul_comm (256 ^ k) 256, Nat.mod_mul]

end Sys2Proof.Laws
end

