-- ==== Sys2Proof/Laws/State.lean ====
section
/-! SUPPORT. What each update of the state leaves alone: one lemma per field per update, and reading a unit back after an
update of it or of another. -/
namespace Sys2Proof.Laws
open Sys2Proof.Machine

variable (s : State)

@[simp] theorem setCore_mem (k : Nat) (c : Core) : (s.setCore k c).mem = s.mem := rfl
@[simp] theorem setCore_badLines (k : Nat) (c : Core) : (s.setCore k c).badLines = s.badLines := rfl
@[simp] theorem setCore_spaces (k : Nat) (c : Core) : (s.setCore k c).spaces = s.spaces := rfl
@[simp] theorem setCore_tasks (k : Nat) (c : Core) : (s.setCore k c).tasks = s.tasks := rfl
@[simp] theorem setCore_nextTask (k : Nat) (c : Core) : (s.setCore k c).nextTask = s.nextTask := rfl
@[simp] theorem setCore_launches (k : Nat) (c : Core) : (s.setCore k c).launches = s.launches := rfl
@[simp] theorem setCore_nextLaunch (k : Nat) (c : Core) : (s.setCore k c).nextLaunch = s.nextLaunch := rfl
@[simp] theorem setCore_dies (k : Nat) (c : Core) : (s.setCore k c).dies = s.dies := rfl
@[simp] theorem setCore_queues (k : Nat) (c : Core) : (s.setCore k c).queues = s.queues := rfl
@[simp] theorem setCore_ports (k : Nat) (c : Core) : (s.setCore k c).ports = s.ports := rfl
@[simp] theorem setCore_fabric (k : Nat) (c : Core) : (s.setCore k c).fabric = s.fabric := rfl
@[simp] theorem setCore_purser (k : Nat) (c : Core) : (s.setCore k c).purser = s.purser := rfl
@[simp] theorem setCore_assel (k : Nat) (c : Core) : (s.setCore k c).assel = s.assel := rfl
@[simp] theorem setCore_tlbinv (k : Nat) (c : Core) : (s.setCore k c).tlbinv = s.tlbinv := rfl
@[simp] theorem setCore_tlbinvAsid (k : Nat) (c : Core) : (s.setCore k c).tlbinvAsid = s.tlbinvAsid := rfl
@[simp] theorem setCore_tresume (k : Nat) (c : Core) : (s.setCore k c).tresume = s.tresume := rfl
@[simp] theorem setCore_resumeRes (k : Nat) (c : Core) : (s.setCore k c).resumeRes = s.resumeRes := rfl
@[simp] theorem setCore_pregrace (k : Nat) (c : Core) : (s.setCore k c).pregrace = s.pregrace := rfl
@[simp] theorem setCore_ckptEn (k : Nat) (c : Core) : (s.setCore k c).ckptEn = s.ckptEn := rfl
@[simp] theorem setCore_cycle (k : Nat) (c : Core) : (s.setCore k c).cycle = s.cycle := rfl
@[simp] theorem setCore_tick (k : Nat) (c : Core) : (s.setCore k c).tick = s.tick := rfl
@[simp] theorem setCore_fresh (k : Nat) (c : Core) : (s.setCore k c).fresh = s.fresh := rfl
@[simp] theorem setCore_agenda (k : Nat) (c : Core) : (s.setCore k c).agenda = s.agenda := rfl
@[simp] theorem setCore_turn (k : Nat) (c : Core) : (s.setCore k c).turn = s.turn := rfl

@[simp] theorem modCore_mem (k : Nat) (f : Core → Core) : (s.modCore k f).mem = s.mem := rfl
@[simp] theorem modCore_badLines (k : Nat) (f : Core → Core) : (s.modCore k f).badLines = s.badLines := rfl
@[simp] theorem modCore_spaces (k : Nat) (f : Core → Core) : (s.modCore k f).spaces = s.spaces := rfl
@[simp] theorem modCore_tasks (k : Nat) (f : Core → Core) : (s.modCore k f).tasks = s.tasks := rfl
@[simp] theorem modCore_nextTask (k : Nat) (f : Core → Core) : (s.modCore k f).nextTask = s.nextTask := rfl
@[simp] theorem modCore_launches (k : Nat) (f : Core → Core) : (s.modCore k f).launches = s.launches := rfl
@[simp] theorem modCore_nextLaunch (k : Nat) (f : Core → Core) : (s.modCore k f).nextLaunch = s.nextLaunch := rfl
@[simp] theorem modCore_dies (k : Nat) (f : Core → Core) : (s.modCore k f).dies = s.dies := rfl
@[simp] theorem modCore_queues (k : Nat) (f : Core → Core) : (s.modCore k f).queues = s.queues := rfl
@[simp] theorem modCore_ports (k : Nat) (f : Core → Core) : (s.modCore k f).ports = s.ports := rfl
@[simp] theorem modCore_fabric (k : Nat) (f : Core → Core) : (s.modCore k f).fabric = s.fabric := rfl
@[simp] theorem modCore_purser (k : Nat) (f : Core → Core) : (s.modCore k f).purser = s.purser := rfl
@[simp] theorem modCore_assel (k : Nat) (f : Core → Core) : (s.modCore k f).assel = s.assel := rfl
@[simp] theorem modCore_tlbinv (k : Nat) (f : Core → Core) : (s.modCore k f).tlbinv = s.tlbinv := rfl
@[simp] theorem modCore_tlbinvAsid (k : Nat) (f : Core → Core) : (s.modCore k f).tlbinvAsid = s.tlbinvAsid := rfl
@[simp] theorem modCore_tresume (k : Nat) (f : Core → Core) : (s.modCore k f).tresume = s.tresume := rfl
@[simp] theorem modCore_resumeRes (k : Nat) (f : Core → Core) : (s.modCore k f).resumeRes = s.resumeRes := rfl
@[simp] theorem modCore_pregrace (k : Nat) (f : Core → Core) : (s.modCore k f).pregrace = s.pregrace := rfl
@[simp] theorem modCore_ckptEn (k : Nat) (f : Core → Core) : (s.modCore k f).ckptEn = s.ckptEn := rfl
@[simp] theorem modCore_cycle (k : Nat) (f : Core → Core) : (s.modCore k f).cycle = s.cycle := rfl
@[simp] theorem modCore_tick (k : Nat) (f : Core → Core) : (s.modCore k f).tick = s.tick := rfl
@[simp] theorem modCore_fresh (k : Nat) (f : Core → Core) : (s.modCore k f).fresh = s.fresh := rfl
@[simp] theorem modCore_agenda (k : Nat) (f : Core → Core) : (s.modCore k f).agenda = s.agenda := rfl
@[simp] theorem modCore_turn (k : Nat) (f : Core → Core) : (s.modCore k f).turn = s.turn := rfl

@[simp] theorem setCtx_mem (k c : Nat) (x : Ctx) : (s.setCtx k c x).mem = s.mem := rfl
@[simp] theorem setCtx_badLines (k c : Nat) (x : Ctx) : (s.setCtx k c x).badLines = s.badLines := rfl
@[simp] theorem setCtx_spaces (k c : Nat) (x : Ctx) : (s.setCtx k c x).spaces = s.spaces := rfl
@[simp] theorem setCtx_tasks (k c : Nat) (x : Ctx) : (s.setCtx k c x).tasks = s.tasks := rfl
@[simp] theorem setCtx_nextTask (k c : Nat) (x : Ctx) : (s.setCtx k c x).nextTask = s.nextTask := rfl
@[simp] theorem setCtx_launches (k c : Nat) (x : Ctx) : (s.setCtx k c x).launches = s.launches := rfl
@[simp] theorem setCtx_nextLaunch (k c : Nat) (x : Ctx) : (s.setCtx k c x).nextLaunch = s.nextLaunch := rfl
@[simp] theorem setCtx_dies (k c : Nat) (x : Ctx) : (s.setCtx k c x).dies = s.dies := rfl
@[simp] theorem setCtx_queues (k c : Nat) (x : Ctx) : (s.setCtx k c x).queues = s.queues := rfl
@[simp] theorem setCtx_ports (k c : Nat) (x : Ctx) : (s.setCtx k c x).ports = s.ports := rfl
@[simp] theorem setCtx_fabric (k c : Nat) (x : Ctx) : (s.setCtx k c x).fabric = s.fabric := rfl
@[simp] theorem setCtx_purser (k c : Nat) (x : Ctx) : (s.setCtx k c x).purser = s.purser := rfl
@[simp] theorem setCtx_assel (k c : Nat) (x : Ctx) : (s.setCtx k c x).assel = s.assel := rfl
@[simp] theorem setCtx_tlbinv (k c : Nat) (x : Ctx) : (s.setCtx k c x).tlbinv = s.tlbinv := rfl
@[simp] theorem setCtx_tlbinvAsid (k c : Nat) (x : Ctx) : (s.setCtx k c x).tlbinvAsid = s.tlbinvAsid := rfl
@[simp] theorem setCtx_tresume (k c : Nat) (x : Ctx) : (s.setCtx k c x).tresume = s.tresume := rfl
@[simp] theorem setCtx_resumeRes (k c : Nat) (x : Ctx) : (s.setCtx k c x).resumeRes = s.resumeRes := rfl
@[simp] theorem setCtx_pregrace (k c : Nat) (x : Ctx) : (s.setCtx k c x).pregrace = s.pregrace := rfl
@[simp] theorem setCtx_ckptEn (k c : Nat) (x : Ctx) : (s.setCtx k c x).ckptEn = s.ckptEn := rfl
@[simp] theorem setCtx_cycle (k c : Nat) (x : Ctx) : (s.setCtx k c x).cycle = s.cycle := rfl
@[simp] theorem setCtx_tick (k c : Nat) (x : Ctx) : (s.setCtx k c x).tick = s.tick := rfl
@[simp] theorem setCtx_fresh (k c : Nat) (x : Ctx) : (s.setCtx k c x).fresh = s.fresh := rfl
@[simp] theorem setCtx_agenda (k c : Nat) (x : Ctx) : (s.setCtx k c x).agenda = s.agenda := rfl
@[simp] theorem setCtx_turn (k c : Nat) (x : Ctx) : (s.setCtx k c x).turn = s.turn := rfl

@[simp] theorem modCtx_mem (k c : Nat) (f : Ctx → Ctx) : (s.modCtx k c f).mem = s.mem := rfl
@[simp] theorem modCtx_badLines (k c : Nat) (f : Ctx → Ctx) : (s.modCtx k c f).badLines = s.badLines := rfl
@[simp] theorem modCtx_spaces (k c : Nat) (f : Ctx → Ctx) : (s.modCtx k c f).spaces = s.spaces := rfl
@[simp] theorem modCtx_tasks (k c : Nat) (f : Ctx → Ctx) : (s.modCtx k c f).tasks = s.tasks := rfl
@[simp] theorem modCtx_nextTask (k c : Nat) (f : Ctx → Ctx) : (s.modCtx k c f).nextTask = s.nextTask := rfl
@[simp] theorem modCtx_launches (k c : Nat) (f : Ctx → Ctx) : (s.modCtx k c f).launches = s.launches := rfl
@[simp] theorem modCtx_nextLaunch (k c : Nat) (f : Ctx → Ctx) : (s.modCtx k c f).nextLaunch = s.nextLaunch := rfl
@[simp] theorem modCtx_dies (k c : Nat) (f : Ctx → Ctx) : (s.modCtx k c f).dies = s.dies := rfl
@[simp] theorem modCtx_queues (k c : Nat) (f : Ctx → Ctx) : (s.modCtx k c f).queues = s.queues := rfl
@[simp] theorem modCtx_ports (k c : Nat) (f : Ctx → Ctx) : (s.modCtx k c f).ports = s.ports := rfl
@[simp] theorem modCtx_fabric (k c : Nat) (f : Ctx → Ctx) : (s.modCtx k c f).fabric = s.fabric := rfl
@[simp] theorem modCtx_purser (k c : Nat) (f : Ctx → Ctx) : (s.modCtx k c f).purser = s.purser := rfl
@[simp] theorem modCtx_assel (k c : Nat) (f : Ctx → Ctx) : (s.modCtx k c f).assel = s.assel := rfl
@[simp] theorem modCtx_tlbinv (k c : Nat) (f : Ctx → Ctx) : (s.modCtx k c f).tlbinv = s.tlbinv := rfl
@[simp] theorem modCtx_tlbinvAsid (k c : Nat) (f : Ctx → Ctx) : (s.modCtx k c f).tlbinvAsid = s.tlbinvAsid := rfl
@[simp] theorem modCtx_tresume (k c : Nat) (f : Ctx → Ctx) : (s.modCtx k c f).tresume = s.tresume := rfl
@[simp] theorem modCtx_resumeRes (k c : Nat) (f : Ctx → Ctx) : (s.modCtx k c f).resumeRes = s.resumeRes := rfl
@[simp] theorem modCtx_pregrace (k c : Nat) (f : Ctx → Ctx) : (s.modCtx k c f).pregrace = s.pregrace := rfl
@[simp] theorem modCtx_ckptEn (k c : Nat) (f : Ctx → Ctx) : (s.modCtx k c f).ckptEn = s.ckptEn := rfl
@[simp] theorem modCtx_cycle (k c : Nat) (f : Ctx → Ctx) : (s.modCtx k c f).cycle = s.cycle := rfl
@[simp] theorem modCtx_tick (k c : Nat) (f : Ctx → Ctx) : (s.modCtx k c f).tick = s.tick := rfl
@[simp] theorem modCtx_fresh (k c : Nat) (f : Ctx → Ctx) : (s.modCtx k c f).fresh = s.fresh := rfl
@[simp] theorem modCtx_agenda (k c : Nat) (f : Ctx → Ctx) : (s.modCtx k c f).agenda = s.agenda := rfl
@[simp] theorem modCtx_turn (k c : Nat) (f : Ctx → Ctx) : (s.modCtx k c f).turn = s.turn := rfl

@[simp] theorem modPart_mem (k p : Nat) (f : Part → Part) : (s.modPart k p f).mem = s.mem := rfl
@[simp] theorem modPart_badLines (k p : Nat) (f : Part → Part) : (s.modPart k p f).badLines = s.badLines := rfl
@[simp] theorem modPart_spaces (k p : Nat) (f : Part → Part) : (s.modPart k p f).spaces = s.spaces := rfl
@[simp] theorem modPart_tasks (k p : Nat) (f : Part → Part) : (s.modPart k p f).tasks = s.tasks := rfl
@[simp] theorem modPart_nextTask (k p : Nat) (f : Part → Part) : (s.modPart k p f).nextTask = s.nextTask := rfl
@[simp] theorem modPart_launches (k p : Nat) (f : Part → Part) : (s.modPart k p f).launches = s.launches := rfl
@[simp] theorem modPart_nextLaunch (k p : Nat) (f : Part → Part) : (s.modPart k p f).nextLaunch = s.nextLaunch := rfl
@[simp] theorem modPart_dies (k p : Nat) (f : Part → Part) : (s.modPart k p f).dies = s.dies := rfl
@[simp] theorem modPart_queues (k p : Nat) (f : Part → Part) : (s.modPart k p f).queues = s.queues := rfl
@[simp] theorem modPart_ports (k p : Nat) (f : Part → Part) : (s.modPart k p f).ports = s.ports := rfl
@[simp] theorem modPart_fabric (k p : Nat) (f : Part → Part) : (s.modPart k p f).fabric = s.fabric := rfl
@[simp] theorem modPart_purser (k p : Nat) (f : Part → Part) : (s.modPart k p f).purser = s.purser := rfl
@[simp] theorem modPart_assel (k p : Nat) (f : Part → Part) : (s.modPart k p f).assel = s.assel := rfl
@[simp] theorem modPart_tlbinv (k p : Nat) (f : Part → Part) : (s.modPart k p f).tlbinv = s.tlbinv := rfl
@[simp] theorem modPart_tlbinvAsid (k p : Nat) (f : Part → Part) : (s.modPart k p f).tlbinvAsid = s.tlbinvAsid := rfl
@[simp] theorem modPart_tresume (k p : Nat) (f : Part → Part) : (s.modPart k p f).tresume = s.tresume := rfl
@[simp] theorem modPart_resumeRes (k p : Nat) (f : Part → Part) : (s.modPart k p f).resumeRes = s.resumeRes := rfl
@[simp] theorem modPart_pregrace (k p : Nat) (f : Part → Part) : (s.modPart k p f).pregrace = s.pregrace := rfl
@[simp] theorem modPart_ckptEn (k p : Nat) (f : Part → Part) : (s.modPart k p f).ckptEn = s.ckptEn := rfl
@[simp] theorem modPart_cycle (k p : Nat) (f : Part → Part) : (s.modPart k p f).cycle = s.cycle := rfl
@[simp] theorem modPart_tick (k p : Nat) (f : Part → Part) : (s.modPart k p f).tick = s.tick := rfl
@[simp] theorem modPart_fresh (k p : Nat) (f : Part → Part) : (s.modPart k p f).fresh = s.fresh := rfl
@[simp] theorem modPart_agenda (k p : Nat) (f : Part → Part) : (s.modPart k p f).agenda = s.agenda := rfl
@[simp] theorem modPart_turn (k p : Nat) (f : Part → Part) : (s.modPart k p f).turn = s.turn := rfl

@[simp] theorem setStrand_mem (k p sl : Nat) (x : Strand) : (s.setStrand k p sl x).mem = s.mem := rfl
@[simp] theorem setStrand_badLines (k p sl : Nat) (x : Strand) : (s.setStrand k p sl x).badLines = s.badLines := rfl
@[simp] theorem setStrand_spaces (k p sl : Nat) (x : Strand) : (s.setStrand k p sl x).spaces = s.spaces := rfl
@[simp] theorem setStrand_tasks (k p sl : Nat) (x : Strand) : (s.setStrand k p sl x).tasks = s.tasks := rfl
@[simp] theorem setStrand_nextTask (k p sl : Nat) (x : Strand) : (s.setStrand k p sl x).nextTask = s.nextTask := rfl
@[simp] theorem setStrand_launches (k p sl : Nat) (x : Strand) : (s.setStrand k p sl x).launches = s.launches := rfl
@[simp] theorem setStrand_nextLaunch (k p sl : Nat) (x : Strand) : (s.setStrand k p sl x).nextLaunch = s.nextLaunch := rfl
@[simp] theorem setStrand_dies (k p sl : Nat) (x : Strand) : (s.setStrand k p sl x).dies = s.dies := rfl
@[simp] theorem setStrand_queues (k p sl : Nat) (x : Strand) : (s.setStrand k p sl x).queues = s.queues := rfl
@[simp] theorem setStrand_ports (k p sl : Nat) (x : Strand) : (s.setStrand k p sl x).ports = s.ports := rfl
@[simp] theorem setStrand_fabric (k p sl : Nat) (x : Strand) : (s.setStrand k p sl x).fabric = s.fabric := rfl
@[simp] theorem setStrand_purser (k p sl : Nat) (x : Strand) : (s.setStrand k p sl x).purser = s.purser := rfl
@[simp] theorem setStrand_assel (k p sl : Nat) (x : Strand) : (s.setStrand k p sl x).assel = s.assel := rfl
@[simp] theorem setStrand_tlbinv (k p sl : Nat) (x : Strand) : (s.setStrand k p sl x).tlbinv = s.tlbinv := rfl
@[simp] theorem setStrand_tlbinvAsid (k p sl : Nat) (x : Strand) : (s.setStrand k p sl x).tlbinvAsid = s.tlbinvAsid := rfl
@[simp] theorem setStrand_tresume (k p sl : Nat) (x : Strand) : (s.setStrand k p sl x).tresume = s.tresume := rfl
@[simp] theorem setStrand_resumeRes (k p sl : Nat) (x : Strand) : (s.setStrand k p sl x).resumeRes = s.resumeRes := rfl
@[simp] theorem setStrand_pregrace (k p sl : Nat) (x : Strand) : (s.setStrand k p sl x).pregrace = s.pregrace := rfl
@[simp] theorem setStrand_ckptEn (k p sl : Nat) (x : Strand) : (s.setStrand k p sl x).ckptEn = s.ckptEn := rfl
@[simp] theorem setStrand_cycle (k p sl : Nat) (x : Strand) : (s.setStrand k p sl x).cycle = s.cycle := rfl
@[simp] theorem setStrand_tick (k p sl : Nat) (x : Strand) : (s.setStrand k p sl x).tick = s.tick := rfl
@[simp] theorem setStrand_fresh (k p sl : Nat) (x : Strand) : (s.setStrand k p sl x).fresh = s.fresh := rfl
@[simp] theorem setStrand_agenda (k p sl : Nat) (x : Strand) : (s.setStrand k p sl x).agenda = s.agenda := rfl
@[simp] theorem setStrand_turn (k p sl : Nat) (x : Strand) : (s.setStrand k p sl x).turn = s.turn := rfl

@[simp] theorem modStrand_mem (k p sl : Nat) (f : Strand → Strand) : (s.modStrand k p sl f).mem = s.mem := rfl
@[simp] theorem modStrand_badLines (k p sl : Nat) (f : Strand → Strand) : (s.modStrand k p sl f).badLines = s.badLines := rfl
@[simp] theorem modStrand_spaces (k p sl : Nat) (f : Strand → Strand) : (s.modStrand k p sl f).spaces = s.spaces := rfl
@[simp] theorem modStrand_tasks (k p sl : Nat) (f : Strand → Strand) : (s.modStrand k p sl f).tasks = s.tasks := rfl
@[simp] theorem modStrand_nextTask (k p sl : Nat) (f : Strand → Strand) : (s.modStrand k p sl f).nextTask = s.nextTask := rfl
@[simp] theorem modStrand_launches (k p sl : Nat) (f : Strand → Strand) : (s.modStrand k p sl f).launches = s.launches := rfl
@[simp] theorem modStrand_nextLaunch (k p sl : Nat) (f : Strand → Strand) : (s.modStrand k p sl f).nextLaunch = s.nextLaunch := rfl
@[simp] theorem modStrand_dies (k p sl : Nat) (f : Strand → Strand) : (s.modStrand k p sl f).dies = s.dies := rfl
@[simp] theorem modStrand_queues (k p sl : Nat) (f : Strand → Strand) : (s.modStrand k p sl f).queues = s.queues := rfl
@[simp] theorem modStrand_ports (k p sl : Nat) (f : Strand → Strand) : (s.modStrand k p sl f).ports = s.ports := rfl
@[simp] theorem modStrand_fabric (k p sl : Nat) (f : Strand → Strand) : (s.modStrand k p sl f).fabric = s.fabric := rfl
@[simp] theorem modStrand_purser (k p sl : Nat) (f : Strand → Strand) : (s.modStrand k p sl f).purser = s.purser := rfl
@[simp] theorem modStrand_assel (k p sl : Nat) (f : Strand → Strand) : (s.modStrand k p sl f).assel = s.assel := rfl
@[simp] theorem modStrand_tlbinv (k p sl : Nat) (f : Strand → Strand) : (s.modStrand k p sl f).tlbinv = s.tlbinv := rfl
@[simp] theorem modStrand_tlbinvAsid (k p sl : Nat) (f : Strand → Strand) : (s.modStrand k p sl f).tlbinvAsid = s.tlbinvAsid := rfl
@[simp] theorem modStrand_tresume (k p sl : Nat) (f : Strand → Strand) : (s.modStrand k p sl f).tresume = s.tresume := rfl
@[simp] theorem modStrand_resumeRes (k p sl : Nat) (f : Strand → Strand) : (s.modStrand k p sl f).resumeRes = s.resumeRes := rfl
@[simp] theorem modStrand_pregrace (k p sl : Nat) (f : Strand → Strand) : (s.modStrand k p sl f).pregrace = s.pregrace := rfl
@[simp] theorem modStrand_ckptEn (k p sl : Nat) (f : Strand → Strand) : (s.modStrand k p sl f).ckptEn = s.ckptEn := rfl
@[simp] theorem modStrand_cycle (k p sl : Nat) (f : Strand → Strand) : (s.modStrand k p sl f).cycle = s.cycle := rfl
@[simp] theorem modStrand_tick (k p sl : Nat) (f : Strand → Strand) : (s.modStrand k p sl f).tick = s.tick := rfl
@[simp] theorem modStrand_fresh (k p sl : Nat) (f : Strand → Strand) : (s.modStrand k p sl f).fresh = s.fresh := rfl
@[simp] theorem modStrand_agenda (k p sl : Nat) (f : Strand → Strand) : (s.modStrand k p sl f).agenda = s.agenda := rfl
@[simp] theorem modStrand_turn (k p sl : Nat) (f : Strand → Strand) : (s.modStrand k p sl f).turn = s.turn := rfl

@[simp] theorem modLane_mem (k p sl l : Nat) (f : Lane → Lane) : (s.modLane k p sl l f).mem = s.mem := rfl
@[simp] theorem modLane_badLines (k p sl l : Nat) (f : Lane → Lane) : (s.modLane k p sl l f).badLines = s.badLines := rfl
@[simp] theorem modLane_spaces (k p sl l : Nat) (f : Lane → Lane) : (s.modLane k p sl l f).spaces = s.spaces := rfl
@[simp] theorem modLane_tasks (k p sl l : Nat) (f : Lane → Lane) : (s.modLane k p sl l f).tasks = s.tasks := rfl
@[simp] theorem modLane_nextTask (k p sl l : Nat) (f : Lane → Lane) : (s.modLane k p sl l f).nextTask = s.nextTask := rfl
@[simp] theorem modLane_launches (k p sl l : Nat) (f : Lane → Lane) : (s.modLane k p sl l f).launches = s.launches := rfl
@[simp] theorem modLane_nextLaunch (k p sl l : Nat) (f : Lane → Lane) : (s.modLane k p sl l f).nextLaunch = s.nextLaunch := rfl
@[simp] theorem modLane_dies (k p sl l : Nat) (f : Lane → Lane) : (s.modLane k p sl l f).dies = s.dies := rfl
@[simp] theorem modLane_queues (k p sl l : Nat) (f : Lane → Lane) : (s.modLane k p sl l f).queues = s.queues := rfl
@[simp] theorem modLane_ports (k p sl l : Nat) (f : Lane → Lane) : (s.modLane k p sl l f).ports = s.ports := rfl
@[simp] theorem modLane_fabric (k p sl l : Nat) (f : Lane → Lane) : (s.modLane k p sl l f).fabric = s.fabric := rfl
@[simp] theorem modLane_purser (k p sl l : Nat) (f : Lane → Lane) : (s.modLane k p sl l f).purser = s.purser := rfl
@[simp] theorem modLane_assel (k p sl l : Nat) (f : Lane → Lane) : (s.modLane k p sl l f).assel = s.assel := rfl
@[simp] theorem modLane_tlbinv (k p sl l : Nat) (f : Lane → Lane) : (s.modLane k p sl l f).tlbinv = s.tlbinv := rfl
@[simp] theorem modLane_tlbinvAsid (k p sl l : Nat) (f : Lane → Lane) : (s.modLane k p sl l f).tlbinvAsid = s.tlbinvAsid := rfl
@[simp] theorem modLane_tresume (k p sl l : Nat) (f : Lane → Lane) : (s.modLane k p sl l f).tresume = s.tresume := rfl
@[simp] theorem modLane_resumeRes (k p sl l : Nat) (f : Lane → Lane) : (s.modLane k p sl l f).resumeRes = s.resumeRes := rfl
@[simp] theorem modLane_pregrace (k p sl l : Nat) (f : Lane → Lane) : (s.modLane k p sl l f).pregrace = s.pregrace := rfl
@[simp] theorem modLane_ckptEn (k p sl l : Nat) (f : Lane → Lane) : (s.modLane k p sl l f).ckptEn = s.ckptEn := rfl
@[simp] theorem modLane_cycle (k p sl l : Nat) (f : Lane → Lane) : (s.modLane k p sl l f).cycle = s.cycle := rfl
@[simp] theorem modLane_tick (k p sl l : Nat) (f : Lane → Lane) : (s.modLane k p sl l f).tick = s.tick := rfl
@[simp] theorem modLane_fresh (k p sl l : Nat) (f : Lane → Lane) : (s.modLane k p sl l f).fresh = s.fresh := rfl
@[simp] theorem modLane_agenda (k p sl l : Nat) (f : Lane → Lane) : (s.modLane k p sl l f).agenda = s.agenda := rfl
@[simp] theorem modLane_turn (k p sl l : Nat) (f : Lane → Lane) : (s.modLane k p sl l f).turn = s.turn := rfl

@[simp] theorem modChan_mem (k ch : Nat) (f : Chan → Chan) : (s.modChan k ch f).mem = s.mem := rfl
@[simp] theorem modChan_badLines (k ch : Nat) (f : Chan → Chan) : (s.modChan k ch f).badLines = s.badLines := rfl
@[simp] theorem modChan_spaces (k ch : Nat) (f : Chan → Chan) : (s.modChan k ch f).spaces = s.spaces := rfl
@[simp] theorem modChan_tasks (k ch : Nat) (f : Chan → Chan) : (s.modChan k ch f).tasks = s.tasks := rfl
@[simp] theorem modChan_nextTask (k ch : Nat) (f : Chan → Chan) : (s.modChan k ch f).nextTask = s.nextTask := rfl
@[simp] theorem modChan_launches (k ch : Nat) (f : Chan → Chan) : (s.modChan k ch f).launches = s.launches := rfl
@[simp] theorem modChan_nextLaunch (k ch : Nat) (f : Chan → Chan) : (s.modChan k ch f).nextLaunch = s.nextLaunch := rfl
@[simp] theorem modChan_dies (k ch : Nat) (f : Chan → Chan) : (s.modChan k ch f).dies = s.dies := rfl
@[simp] theorem modChan_queues (k ch : Nat) (f : Chan → Chan) : (s.modChan k ch f).queues = s.queues := rfl
@[simp] theorem modChan_ports (k ch : Nat) (f : Chan → Chan) : (s.modChan k ch f).ports = s.ports := rfl
@[simp] theorem modChan_fabric (k ch : Nat) (f : Chan → Chan) : (s.modChan k ch f).fabric = s.fabric := rfl
@[simp] theorem modChan_purser (k ch : Nat) (f : Chan → Chan) : (s.modChan k ch f).purser = s.purser := rfl
@[simp] theorem modChan_assel (k ch : Nat) (f : Chan → Chan) : (s.modChan k ch f).assel = s.assel := rfl
@[simp] theorem modChan_tlbinv (k ch : Nat) (f : Chan → Chan) : (s.modChan k ch f).tlbinv = s.tlbinv := rfl
@[simp] theorem modChan_tlbinvAsid (k ch : Nat) (f : Chan → Chan) : (s.modChan k ch f).tlbinvAsid = s.tlbinvAsid := rfl
@[simp] theorem modChan_tresume (k ch : Nat) (f : Chan → Chan) : (s.modChan k ch f).tresume = s.tresume := rfl
@[simp] theorem modChan_resumeRes (k ch : Nat) (f : Chan → Chan) : (s.modChan k ch f).resumeRes = s.resumeRes := rfl
@[simp] theorem modChan_pregrace (k ch : Nat) (f : Chan → Chan) : (s.modChan k ch f).pregrace = s.pregrace := rfl
@[simp] theorem modChan_ckptEn (k ch : Nat) (f : Chan → Chan) : (s.modChan k ch f).ckptEn = s.ckptEn := rfl
@[simp] theorem modChan_cycle (k ch : Nat) (f : Chan → Chan) : (s.modChan k ch f).cycle = s.cycle := rfl
@[simp] theorem modChan_tick (k ch : Nat) (f : Chan → Chan) : (s.modChan k ch f).tick = s.tick := rfl
@[simp] theorem modChan_fresh (k ch : Nat) (f : Chan → Chan) : (s.modChan k ch f).fresh = s.fresh := rfl
@[simp] theorem modChan_agenda (k ch : Nat) (f : Chan → Chan) : (s.modChan k ch f).agenda = s.agenda := rfl
@[simp] theorem modChan_turn (k ch : Nat) (f : Chan → Chan) : (s.modChan k ch f).turn = s.turn := rfl

@[simp] theorem modCQueue_mem (k q : Nat) (f : Queue → Queue) : (s.modCQueue k q f).mem = s.mem := rfl
@[simp] theorem modCQueue_badLines (k q : Nat) (f : Queue → Queue) : (s.modCQueue k q f).badLines = s.badLines := rfl
@[simp] theorem modCQueue_spaces (k q : Nat) (f : Queue → Queue) : (s.modCQueue k q f).spaces = s.spaces := rfl
@[simp] theorem modCQueue_tasks (k q : Nat) (f : Queue → Queue) : (s.modCQueue k q f).tasks = s.tasks := rfl
@[simp] theorem modCQueue_nextTask (k q : Nat) (f : Queue → Queue) : (s.modCQueue k q f).nextTask = s.nextTask := rfl
@[simp] theorem modCQueue_launches (k q : Nat) (f : Queue → Queue) : (s.modCQueue k q f).launches = s.launches := rfl
@[simp] theorem modCQueue_nextLaunch (k q : Nat) (f : Queue → Queue) : (s.modCQueue k q f).nextLaunch = s.nextLaunch := rfl
@[simp] theorem modCQueue_dies (k q : Nat) (f : Queue → Queue) : (s.modCQueue k q f).dies = s.dies := rfl
@[simp] theorem modCQueue_queues (k q : Nat) (f : Queue → Queue) : (s.modCQueue k q f).queues = s.queues := rfl
@[simp] theorem modCQueue_ports (k q : Nat) (f : Queue → Queue) : (s.modCQueue k q f).ports = s.ports := rfl
@[simp] theorem modCQueue_fabric (k q : Nat) (f : Queue → Queue) : (s.modCQueue k q f).fabric = s.fabric := rfl
@[simp] theorem modCQueue_purser (k q : Nat) (f : Queue → Queue) : (s.modCQueue k q f).purser = s.purser := rfl
@[simp] theorem modCQueue_assel (k q : Nat) (f : Queue → Queue) : (s.modCQueue k q f).assel = s.assel := rfl
@[simp] theorem modCQueue_tlbinv (k q : Nat) (f : Queue → Queue) : (s.modCQueue k q f).tlbinv = s.tlbinv := rfl
@[simp] theorem modCQueue_tlbinvAsid (k q : Nat) (f : Queue → Queue) : (s.modCQueue k q f).tlbinvAsid = s.tlbinvAsid := rfl
@[simp] theorem modCQueue_tresume (k q : Nat) (f : Queue → Queue) : (s.modCQueue k q f).tresume = s.tresume := rfl
@[simp] theorem modCQueue_resumeRes (k q : Nat) (f : Queue → Queue) : (s.modCQueue k q f).resumeRes = s.resumeRes := rfl
@[simp] theorem modCQueue_pregrace (k q : Nat) (f : Queue → Queue) : (s.modCQueue k q f).pregrace = s.pregrace := rfl
@[simp] theorem modCQueue_ckptEn (k q : Nat) (f : Queue → Queue) : (s.modCQueue k q f).ckptEn = s.ckptEn := rfl
@[simp] theorem modCQueue_cycle (k q : Nat) (f : Queue → Queue) : (s.modCQueue k q f).cycle = s.cycle := rfl
@[simp] theorem modCQueue_tick (k q : Nat) (f : Queue → Queue) : (s.modCQueue k q f).tick = s.tick := rfl
@[simp] theorem modCQueue_fresh (k q : Nat) (f : Queue → Queue) : (s.modCQueue k q f).fresh = s.fresh := rfl
@[simp] theorem modCQueue_agenda (k q : Nat) (f : Queue → Queue) : (s.modCQueue k q f).agenda = s.agenda := rfl
@[simp] theorem modCQueue_turn (k q : Nat) (f : Queue → Queue) : (s.modCQueue k q f).turn = s.turn := rfl

@[simp] theorem modRing_mem (k r : Nat) (f : Ring → Ring) : (s.modRing k r f).mem = s.mem := rfl
@[simp] theorem modRing_badLines (k r : Nat) (f : Ring → Ring) : (s.modRing k r f).badLines = s.badLines := rfl
@[simp] theorem modRing_spaces (k r : Nat) (f : Ring → Ring) : (s.modRing k r f).spaces = s.spaces := rfl
@[simp] theorem modRing_tasks (k r : Nat) (f : Ring → Ring) : (s.modRing k r f).tasks = s.tasks := rfl
@[simp] theorem modRing_nextTask (k r : Nat) (f : Ring → Ring) : (s.modRing k r f).nextTask = s.nextTask := rfl
@[simp] theorem modRing_launches (k r : Nat) (f : Ring → Ring) : (s.modRing k r f).launches = s.launches := rfl
@[simp] theorem modRing_nextLaunch (k r : Nat) (f : Ring → Ring) : (s.modRing k r f).nextLaunch = s.nextLaunch := rfl
@[simp] theorem modRing_dies (k r : Nat) (f : Ring → Ring) : (s.modRing k r f).dies = s.dies := rfl
@[simp] theorem modRing_queues (k r : Nat) (f : Ring → Ring) : (s.modRing k r f).queues = s.queues := rfl
@[simp] theorem modRing_ports (k r : Nat) (f : Ring → Ring) : (s.modRing k r f).ports = s.ports := rfl
@[simp] theorem modRing_fabric (k r : Nat) (f : Ring → Ring) : (s.modRing k r f).fabric = s.fabric := rfl
@[simp] theorem modRing_purser (k r : Nat) (f : Ring → Ring) : (s.modRing k r f).purser = s.purser := rfl
@[simp] theorem modRing_assel (k r : Nat) (f : Ring → Ring) : (s.modRing k r f).assel = s.assel := rfl
@[simp] theorem modRing_tlbinv (k r : Nat) (f : Ring → Ring) : (s.modRing k r f).tlbinv = s.tlbinv := rfl
@[simp] theorem modRing_tlbinvAsid (k r : Nat) (f : Ring → Ring) : (s.modRing k r f).tlbinvAsid = s.tlbinvAsid := rfl
@[simp] theorem modRing_tresume (k r : Nat) (f : Ring → Ring) : (s.modRing k r f).tresume = s.tresume := rfl
@[simp] theorem modRing_resumeRes (k r : Nat) (f : Ring → Ring) : (s.modRing k r f).resumeRes = s.resumeRes := rfl
@[simp] theorem modRing_pregrace (k r : Nat) (f : Ring → Ring) : (s.modRing k r f).pregrace = s.pregrace := rfl
@[simp] theorem modRing_ckptEn (k r : Nat) (f : Ring → Ring) : (s.modRing k r f).ckptEn = s.ckptEn := rfl
@[simp] theorem modRing_cycle (k r : Nat) (f : Ring → Ring) : (s.modRing k r f).cycle = s.cycle := rfl
@[simp] theorem modRing_tick (k r : Nat) (f : Ring → Ring) : (s.modRing k r f).tick = s.tick := rfl
@[simp] theorem modRing_fresh (k r : Nat) (f : Ring → Ring) : (s.modRing k r f).fresh = s.fresh := rfl
@[simp] theorem modRing_agenda (k r : Nat) (f : Ring → Ring) : (s.modRing k r f).agenda = s.agenda := rfl
@[simp] theorem modRing_turn (k r : Nat) (f : Ring → Ring) : (s.modRing k r f).turn = s.turn := rfl

@[simp] theorem modSpace_cores (a : Nat) (f : Space → Space) : (s.modSpace a f).cores = s.cores := rfl
@[simp] theorem modSpace_mem (a : Nat) (f : Space → Space) : (s.modSpace a f).mem = s.mem := rfl
@[simp] theorem modSpace_badLines (a : Nat) (f : Space → Space) : (s.modSpace a f).badLines = s.badLines := rfl
@[simp] theorem modSpace_tasks (a : Nat) (f : Space → Space) : (s.modSpace a f).tasks = s.tasks := rfl
@[simp] theorem modSpace_nextTask (a : Nat) (f : Space → Space) : (s.modSpace a f).nextTask = s.nextTask := rfl
@[simp] theorem modSpace_launches (a : Nat) (f : Space → Space) : (s.modSpace a f).launches = s.launches := rfl
@[simp] theorem modSpace_nextLaunch (a : Nat) (f : Space → Space) : (s.modSpace a f).nextLaunch = s.nextLaunch := rfl
@[simp] theorem modSpace_dies (a : Nat) (f : Space → Space) : (s.modSpace a f).dies = s.dies := rfl
@[simp] theorem modSpace_queues (a : Nat) (f : Space → Space) : (s.modSpace a f).queues = s.queues := rfl
@[simp] theorem modSpace_ports (a : Nat) (f : Space → Space) : (s.modSpace a f).ports = s.ports := rfl
@[simp] theorem modSpace_fabric (a : Nat) (f : Space → Space) : (s.modSpace a f).fabric = s.fabric := rfl
@[simp] theorem modSpace_purser (a : Nat) (f : Space → Space) : (s.modSpace a f).purser = s.purser := rfl
@[simp] theorem modSpace_assel (a : Nat) (f : Space → Space) : (s.modSpace a f).assel = s.assel := rfl
@[simp] theorem modSpace_tlbinv (a : Nat) (f : Space → Space) : (s.modSpace a f).tlbinv = s.tlbinv := rfl
@[simp] theorem modSpace_tlbinvAsid (a : Nat) (f : Space → Space) : (s.modSpace a f).tlbinvAsid = s.tlbinvAsid := rfl
@[simp] theorem modSpace_tresume (a : Nat) (f : Space → Space) : (s.modSpace a f).tresume = s.tresume := rfl
@[simp] theorem modSpace_resumeRes (a : Nat) (f : Space → Space) : (s.modSpace a f).resumeRes = s.resumeRes := rfl
@[simp] theorem modSpace_pregrace (a : Nat) (f : Space → Space) : (s.modSpace a f).pregrace = s.pregrace := rfl
@[simp] theorem modSpace_ckptEn (a : Nat) (f : Space → Space) : (s.modSpace a f).ckptEn = s.ckptEn := rfl
@[simp] theorem modSpace_cycle (a : Nat) (f : Space → Space) : (s.modSpace a f).cycle = s.cycle := rfl
@[simp] theorem modSpace_tick (a : Nat) (f : Space → Space) : (s.modSpace a f).tick = s.tick := rfl
@[simp] theorem modSpace_fresh (a : Nat) (f : Space → Space) : (s.modSpace a f).fresh = s.fresh := rfl
@[simp] theorem modSpace_agenda (a : Nat) (f : Space → Space) : (s.modSpace a f).agenda = s.agenda := rfl
@[simp] theorem modSpace_turn (a : Nat) (f : Space → Space) : (s.modSpace a f).turn = s.turn := rfl

@[simp] theorem modTask_cores (t : Nat) (f : Task → Task) : (s.modTask t f).cores = s.cores := rfl
@[simp] theorem modTask_mem (t : Nat) (f : Task → Task) : (s.modTask t f).mem = s.mem := rfl
@[simp] theorem modTask_badLines (t : Nat) (f : Task → Task) : (s.modTask t f).badLines = s.badLines := rfl
@[simp] theorem modTask_spaces (t : Nat) (f : Task → Task) : (s.modTask t f).spaces = s.spaces := rfl
@[simp] theorem modTask_nextTask (t : Nat) (f : Task → Task) : (s.modTask t f).nextTask = s.nextTask := rfl
@[simp] theorem modTask_launches (t : Nat) (f : Task → Task) : (s.modTask t f).launches = s.launches := rfl
@[simp] theorem modTask_nextLaunch (t : Nat) (f : Task → Task) : (s.modTask t f).nextLaunch = s.nextLaunch := rfl
@[simp] theorem modTask_dies (t : Nat) (f : Task → Task) : (s.modTask t f).dies = s.dies := rfl
@[simp] theorem modTask_queues (t : Nat) (f : Task → Task) : (s.modTask t f).queues = s.queues := rfl
@[simp] theorem modTask_ports (t : Nat) (f : Task → Task) : (s.modTask t f).ports = s.ports := rfl
@[simp] theorem modTask_fabric (t : Nat) (f : Task → Task) : (s.modTask t f).fabric = s.fabric := rfl
@[simp] theorem modTask_purser (t : Nat) (f : Task → Task) : (s.modTask t f).purser = s.purser := rfl
@[simp] theorem modTask_assel (t : Nat) (f : Task → Task) : (s.modTask t f).assel = s.assel := rfl
@[simp] theorem modTask_tlbinv (t : Nat) (f : Task → Task) : (s.modTask t f).tlbinv = s.tlbinv := rfl
@[simp] theorem modTask_tlbinvAsid (t : Nat) (f : Task → Task) : (s.modTask t f).tlbinvAsid = s.tlbinvAsid := rfl
@[simp] theorem modTask_tresume (t : Nat) (f : Task → Task) : (s.modTask t f).tresume = s.tresume := rfl
@[simp] theorem modTask_resumeRes (t : Nat) (f : Task → Task) : (s.modTask t f).resumeRes = s.resumeRes := rfl
@[simp] theorem modTask_pregrace (t : Nat) (f : Task → Task) : (s.modTask t f).pregrace = s.pregrace := rfl
@[simp] theorem modTask_ckptEn (t : Nat) (f : Task → Task) : (s.modTask t f).ckptEn = s.ckptEn := rfl
@[simp] theorem modTask_cycle (t : Nat) (f : Task → Task) : (s.modTask t f).cycle = s.cycle := rfl
@[simp] theorem modTask_tick (t : Nat) (f : Task → Task) : (s.modTask t f).tick = s.tick := rfl
@[simp] theorem modTask_fresh (t : Nat) (f : Task → Task) : (s.modTask t f).fresh = s.fresh := rfl
@[simp] theorem modTask_agenda (t : Nat) (f : Task → Task) : (s.modTask t f).agenda = s.agenda := rfl
@[simp] theorem modTask_turn (t : Nat) (f : Task → Task) : (s.modTask t f).turn = s.turn := rfl

@[simp] theorem modDie_cores (d : Nat) (f : Die → Die) : (s.modDie d f).cores = s.cores := rfl
@[simp] theorem modDie_mem (d : Nat) (f : Die → Die) : (s.modDie d f).mem = s.mem := rfl
@[simp] theorem modDie_badLines (d : Nat) (f : Die → Die) : (s.modDie d f).badLines = s.badLines := rfl
@[simp] theorem modDie_spaces (d : Nat) (f : Die → Die) : (s.modDie d f).spaces = s.spaces := rfl
@[simp] theorem modDie_tasks (d : Nat) (f : Die → Die) : (s.modDie d f).tasks = s.tasks := rfl
@[simp] theorem modDie_nextTask (d : Nat) (f : Die → Die) : (s.modDie d f).nextTask = s.nextTask := rfl
@[simp] theorem modDie_launches (d : Nat) (f : Die → Die) : (s.modDie d f).launches = s.launches := rfl
@[simp] theorem modDie_nextLaunch (d : Nat) (f : Die → Die) : (s.modDie d f).nextLaunch = s.nextLaunch := rfl
@[simp] theorem modDie_queues (d : Nat) (f : Die → Die) : (s.modDie d f).queues = s.queues := rfl
@[simp] theorem modDie_ports (d : Nat) (f : Die → Die) : (s.modDie d f).ports = s.ports := rfl
@[simp] theorem modDie_fabric (d : Nat) (f : Die → Die) : (s.modDie d f).fabric = s.fabric := rfl
@[simp] theorem modDie_purser (d : Nat) (f : Die → Die) : (s.modDie d f).purser = s.purser := rfl
@[simp] theorem modDie_assel (d : Nat) (f : Die → Die) : (s.modDie d f).assel = s.assel := rfl
@[simp] theorem modDie_tlbinv (d : Nat) (f : Die → Die) : (s.modDie d f).tlbinv = s.tlbinv := rfl
@[simp] theorem modDie_tlbinvAsid (d : Nat) (f : Die → Die) : (s.modDie d f).tlbinvAsid = s.tlbinvAsid := rfl
@[simp] theorem modDie_tresume (d : Nat) (f : Die → Die) : (s.modDie d f).tresume = s.tresume := rfl
@[simp] theorem modDie_resumeRes (d : Nat) (f : Die → Die) : (s.modDie d f).resumeRes = s.resumeRes := rfl
@[simp] theorem modDie_pregrace (d : Nat) (f : Die → Die) : (s.modDie d f).pregrace = s.pregrace := rfl
@[simp] theorem modDie_ckptEn (d : Nat) (f : Die → Die) : (s.modDie d f).ckptEn = s.ckptEn := rfl
@[simp] theorem modDie_cycle (d : Nat) (f : Die → Die) : (s.modDie d f).cycle = s.cycle := rfl
@[simp] theorem modDie_tick (d : Nat) (f : Die → Die) : (s.modDie d f).tick = s.tick := rfl
@[simp] theorem modDie_fresh (d : Nat) (f : Die → Die) : (s.modDie d f).fresh = s.fresh := rfl
@[simp] theorem modDie_agenda (d : Nat) (f : Die → Die) : (s.modDie d f).agenda = s.agenda := rfl
@[simp] theorem modDie_turn (d : Nat) (f : Die → Die) : (s.modDie d f).turn = s.turn := rfl

@[simp] theorem modQueue_cores (q : Nat) (f : HostQueue → HostQueue) : (s.modQueue q f).cores = s.cores := rfl
@[simp] theorem modQueue_mem (q : Nat) (f : HostQueue → HostQueue) : (s.modQueue q f).mem = s.mem := rfl
@[simp] theorem modQueue_badLines (q : Nat) (f : HostQueue → HostQueue) : (s.modQueue q f).badLines = s.badLines := rfl
@[simp] theorem modQueue_spaces (q : Nat) (f : HostQueue → HostQueue) : (s.modQueue q f).spaces = s.spaces := rfl
@[simp] theorem modQueue_tasks (q : Nat) (f : HostQueue → HostQueue) : (s.modQueue q f).tasks = s.tasks := rfl
@[simp] theorem modQueue_nextTask (q : Nat) (f : HostQueue → HostQueue) : (s.modQueue q f).nextTask = s.nextTask := rfl
@[simp] theorem modQueue_launches (q : Nat) (f : HostQueue → HostQueue) : (s.modQueue q f).launches = s.launches := rfl
@[simp] theorem modQueue_nextLaunch (q : Nat) (f : HostQueue → HostQueue) : (s.modQueue q f).nextLaunch = s.nextLaunch := rfl
@[simp] theorem modQueue_dies (q : Nat) (f : HostQueue → HostQueue) : (s.modQueue q f).dies = s.dies := rfl
@[simp] theorem modQueue_ports (q : Nat) (f : HostQueue → HostQueue) : (s.modQueue q f).ports = s.ports := rfl
@[simp] theorem modQueue_fabric (q : Nat) (f : HostQueue → HostQueue) : (s.modQueue q f).fabric = s.fabric := rfl
@[simp] theorem modQueue_purser (q : Nat) (f : HostQueue → HostQueue) : (s.modQueue q f).purser = s.purser := rfl
@[simp] theorem modQueue_assel (q : Nat) (f : HostQueue → HostQueue) : (s.modQueue q f).assel = s.assel := rfl
@[simp] theorem modQueue_tlbinv (q : Nat) (f : HostQueue → HostQueue) : (s.modQueue q f).tlbinv = s.tlbinv := rfl
@[simp] theorem modQueue_tlbinvAsid (q : Nat) (f : HostQueue → HostQueue) : (s.modQueue q f).tlbinvAsid = s.tlbinvAsid := rfl
@[simp] theorem modQueue_tresume (q : Nat) (f : HostQueue → HostQueue) : (s.modQueue q f).tresume = s.tresume := rfl
@[simp] theorem modQueue_resumeRes (q : Nat) (f : HostQueue → HostQueue) : (s.modQueue q f).resumeRes = s.resumeRes := rfl
@[simp] theorem modQueue_pregrace (q : Nat) (f : HostQueue → HostQueue) : (s.modQueue q f).pregrace = s.pregrace := rfl
@[simp] theorem modQueue_ckptEn (q : Nat) (f : HostQueue → HostQueue) : (s.modQueue q f).ckptEn = s.ckptEn := rfl
@[simp] theorem modQueue_cycle (q : Nat) (f : HostQueue → HostQueue) : (s.modQueue q f).cycle = s.cycle := rfl
@[simp] theorem modQueue_tick (q : Nat) (f : HostQueue → HostQueue) : (s.modQueue q f).tick = s.tick := rfl
@[simp] theorem modQueue_fresh (q : Nat) (f : HostQueue → HostQueue) : (s.modQueue q f).fresh = s.fresh := rfl
@[simp] theorem modQueue_agenda (q : Nat) (f : HostQueue → HostQueue) : (s.modQueue q f).agenda = s.agenda := rfl
@[simp] theorem modQueue_turn (q : Nat) (f : HostQueue → HostQueue) : (s.modQueue q f).turn = s.turn := rfl

@[simp] theorem modPort_cores (p : Nat) (f : Port → Port) : (s.modPort p f).cores = s.cores := rfl
@[simp] theorem modPort_mem (p : Nat) (f : Port → Port) : (s.modPort p f).mem = s.mem := rfl
@[simp] theorem modPort_badLines (p : Nat) (f : Port → Port) : (s.modPort p f).badLines = s.badLines := rfl
@[simp] theorem modPort_spaces (p : Nat) (f : Port → Port) : (s.modPort p f).spaces = s.spaces := rfl
@[simp] theorem modPort_tasks (p : Nat) (f : Port → Port) : (s.modPort p f).tasks = s.tasks := rfl
@[simp] theorem modPort_nextTask (p : Nat) (f : Port → Port) : (s.modPort p f).nextTask = s.nextTask := rfl
@[simp] theorem modPort_launches (p : Nat) (f : Port → Port) : (s.modPort p f).launches = s.launches := rfl
@[simp] theorem modPort_nextLaunch (p : Nat) (f : Port → Port) : (s.modPort p f).nextLaunch = s.nextLaunch := rfl
@[simp] theorem modPort_dies (p : Nat) (f : Port → Port) : (s.modPort p f).dies = s.dies := rfl
@[simp] theorem modPort_queues (p : Nat) (f : Port → Port) : (s.modPort p f).queues = s.queues := rfl
@[simp] theorem modPort_fabric (p : Nat) (f : Port → Port) : (s.modPort p f).fabric = s.fabric := rfl
@[simp] theorem modPort_purser (p : Nat) (f : Port → Port) : (s.modPort p f).purser = s.purser := rfl
@[simp] theorem modPort_assel (p : Nat) (f : Port → Port) : (s.modPort p f).assel = s.assel := rfl
@[simp] theorem modPort_tlbinv (p : Nat) (f : Port → Port) : (s.modPort p f).tlbinv = s.tlbinv := rfl
@[simp] theorem modPort_tlbinvAsid (p : Nat) (f : Port → Port) : (s.modPort p f).tlbinvAsid = s.tlbinvAsid := rfl
@[simp] theorem modPort_tresume (p : Nat) (f : Port → Port) : (s.modPort p f).tresume = s.tresume := rfl
@[simp] theorem modPort_resumeRes (p : Nat) (f : Port → Port) : (s.modPort p f).resumeRes = s.resumeRes := rfl
@[simp] theorem modPort_pregrace (p : Nat) (f : Port → Port) : (s.modPort p f).pregrace = s.pregrace := rfl
@[simp] theorem modPort_ckptEn (p : Nat) (f : Port → Port) : (s.modPort p f).ckptEn = s.ckptEn := rfl
@[simp] theorem modPort_cycle (p : Nat) (f : Port → Port) : (s.modPort p f).cycle = s.cycle := rfl
@[simp] theorem modPort_tick (p : Nat) (f : Port → Port) : (s.modPort p f).tick = s.tick := rfl
@[simp] theorem modPort_fresh (p : Nat) (f : Port → Port) : (s.modPort p f).fresh = s.fresh := rfl
@[simp] theorem modPort_agenda (p : Nat) (f : Port → Port) : (s.modPort p f).agenda = s.agenda := rfl
@[simp] theorem modPort_turn (p : Nat) (f : Port → Port) : (s.modPort p f).turn = s.turn := rfl

/-! ### Reading back -/

@[simp] theorem core_setCore_same (k : Nat) (c : Core) : (s.setCore k c).core k = c := get_put_same _ _ _ _
theorem core_setCore_other (k j : Nat) (c : Core) (h : j ≠ k) : (s.setCore k c).core j = s.core j := get_put_other _ _ _ _ _ h
@[simp] theorem core_modCore_same (k : Nat) (f : Core → Core) : (s.modCore k f).core k = f (s.core k) := get_put_same _ _ _ _
theorem core_modCore_other (k j : Nat) (f : Core → Core) (h : j ≠ k) : (s.modCore k f).core j = s.core j := get_put_other _ _ _ _ _ h

@[simp] theorem ctx_coreSetCtx_same (c : Core) (k : Nat) (x : Ctx) : (c.setCtx k x).ctx k = x := get_put_same _ _ _ _
theorem ctx_coreSetCtx_other (c : Core) (k j : Nat) (x : Ctx) (h : j ≠ k) : (c.setCtx k x).ctx j = c.ctx j := get_put_other _ _ _ _ _ h
@[simp] theorem ctx_setCtx_same (k c : Nat) (x : Ctx) : (s.setCtx k c x).ctx k c = x := by simp [State.setCtx, State.ctx]
theorem ctx_setCtx_other (k c k' c' : Nat) (x : Ctx) (h : k' ≠ k ∨ c' ≠ c) : (s.setCtx k c x).ctx k' c' = s.ctx k' c' := by
  unfold State.setCtx State.ctx
  by_cases hk : k' = k
  · subst hk
    rw [core_modCore_same, ctx_coreSetCtx_other _ _ _ _ (by simpa using h)]
  · rw [core_modCore_other _ _ _ _ hk]
@[simp] theorem ctx_modCtx_same (k c : Nat) (f : Ctx → Ctx) : (s.modCtx k c f).ctx k c = f (s.ctx k c) := ctx_setCtx_same _ _ _ _
theorem ctx_modCtx_other (k c k' c' : Nat) (f : Ctx → Ctx) (h : k' ≠ k ∨ c' ≠ c) : (s.modCtx k c f).ctx k' c' = s.ctx k' c' :=
  ctx_setCtx_other _ _ _ _ _ _ h

/-- A second update of one context replaces the first. -/
@[simp] theorem setCtx_setCtx (k c : Nat) (x y : Ctx) : (s.setCtx k c x).setCtx k c y = s.setCtx k c y := by
  simp [State.setCtx, State.modCore, State.setCore, State.core, Core.setCtx]
@[simp] theorem modCtx_modCtx (k c : Nat) (f g : Ctx → Ctx) : (s.modCtx k c f).modCtx k c g = s.modCtx k c (fun x => g (f x)) := by
  simp [State.modCtx]

@[simp] theorem part_coreSetPart_same (c : Core) (p : Nat) (x : Part) : (c.setPart p x).part p = x := get_put_same _ _ _ _
@[simp] theorem part_modPart_same (k p : Nat) (f : Part → Part) : (s.modPart k p f).part k p = f (s.part k p) := by
  simp [State.modPart, State.setPart, State.part]
theorem part_modPart_other (k p k' p' : Nat) (f : Part → Part) (h : k' ≠ k ∨ p' ≠ p) : (s.modPart k p f).part k' p' = s.part k' p' := by
  unfold State.modPart State.setPart State.part
  by_cases hk : k' = k
  · subst hk
    rw [core_modCore_same]
    exact get_put_other _ _ _ _ _ (by simpa using h)
  · rw [core_modCore_other _ _ _ _ hk]
@[simp] theorem strand_modStrand_same (k p sl : Nat) (f : Strand → Strand) : (s.modStrand k p sl f).strand k p sl = f (s.strand k p sl) := by
  simp [State.modStrand, State.setStrand, State.strand, Part.strand]
theorem strand_modStrand_other (k p sl j : Nat) (f : Strand → Strand) (h : j ≠ sl) :
    (s.modStrand k p sl f).strand k p j = s.strand k p j := by
  simp [State.modStrand, State.setStrand, State.strand, Part.strand, get_put_other _ _ _ _ _ h]
@[simp] theorem lane_setLane_same (st : Strand) (l : Nat) (x : Lane) : (st.setLane l x).lane l = x := get_put_same _ _ _ _
theorem lane_setLane_other (st : Strand) (l j : Nat) (x : Lane) (h : j ≠ l) : (st.setLane l x).lane j = st.lane j :=
  get_put_other _ _ _ _ _ h
@[simp] theorem lane_modLane_same (k p sl l : Nat) (f : Lane → Lane) : (s.modLane k p sl l f).lane k p sl l = f (s.lane k p sl l) := by
  simp [State.modLane, State.lane, Strand.modLane]
theorem lane_modLane_other (k p sl l j m : Nat) (f : Lane → Lane) (h : j ≠ sl ∨ m ≠ l) :
    (s.modLane k p sl l f).lane k p j m = s.lane k p j m := by
  unfold State.modLane State.lane
  by_cases hj : j = sl
  · subst hj
    rw [strand_modStrand_same]
    exact lane_setLane_other _ _ _ _ (by simpa using h)
  · rw [strand_modStrand_other _ _ _ _ _ _ hj]

@[simp] theorem space_modSpace_same (a : Nat) (f : Space → Space) : (s.modSpace a f).space a = f (s.space a) := get_put_same _ _ _ _
@[simp] theorem task_modTask_same (t : Nat) (f : Task → Task) : (s.modTask t f).task t = f (s.task t) := get_put_same _ _ _ _
@[simp] theorem die_modDie_same (d : Nat) (f : Die → Die) : (s.modDie d f).die d = f (s.die d) := get_put_same _ _ _ _
@[simp] theorem queue_modQueue_same (q : Nat) (f : HostQueue → HostQueue) : (s.modQueue q f).queue q = f (s.queue q) := get_put_same _ _ _ _
@[simp] theorem port_modPort_same (p : Nat) (f : Port → Port) : (s.modPort p f).port p = f (s.port p) := get_put_same _ _ _ _
@[simp] theorem chan_modChan_same (k ch : Nat) (f : Chan → Chan) : (s.modChan k ch f).chan k ch = f (s.chan k ch) := by
  simp [State.modChan, State.chan, Core.chan]
@[simp] theorem cqueue_modCQueue_same (k q : Nat) (f : Queue → Queue) : ((s.modCQueue k q f).core k).queue q = f ((s.core k).queue q) := by
  simp [State.modCQueue, Core.queue]

/-! ### Registers of a context (02 R32, R33) -/

/-- x0 reads zero. -/
@[simp] theorem getX_zero (x : Ctx) : x.getX 0 = 0 := rfl
/-- A write of x[r] is read back, but of x0. -/
theorem getX_setX_same (x : Ctx) (r : Nat) (v : Word) (h : r ≠ 0) : (x.setX r v).getX r = v := by simp [Ctx.getX, Ctx.setX, h]
theorem getX_setX_other (x : Ctx) (r j : Nat) (v : Word) (h : j ≠ r) : (x.setX r v).getX j = x.getX j := by
  unfold Ctx.getX Ctx.setX
  by_cases hj : j = 0
  · simp [hj]
  · by_cases hr : r = 0
    · simp [hr]
    · simp [hj, hr, get_set_other _ _ _ _ _ h]
/-- A write of x0 changes nothing. -/
@[simp] theorem setX_zero (x : Ctx) (v : Word) : x.setX 0 v = x := rfl
/-- c15 reads 1. -/
@[simp] theorem getC_15 (x : Ctx) : x.getC 15 = true := rfl
/-- A write of c15 changes nothing. -/
@[simp] theorem setC_15 (x : Ctx) (v : Bool) : x.setC 15 v = x := rfl

/-! ### Registers of a lane (03 R57) -/

/-- p7 reads 1. -/
@[simp] theorem getP_7 (l : Lane) : l.getP 7 = true := rfl
/-- A write of p7 changes nothing. -/
@[simp] theorem setP_7 (l : Lane) (b : Bool) : l.setP 7 b = l := rfl
theorem getV_setV_other (l : Lane) (n m v : Nat) (h : m ≠ n) : (l.setV n v).getV m = l.getV m := by
  simp [Lane.getV, Lane.setV, get_set_other _ _ _ _ _ h]
@[simp] theorem getV_setV_same (l : Lane) (n v : Nat) : (l.setV n v).getV n = v % 2 ^ 32 := by simp [Lane.getV, Lane.setV]

end Sys2Proof.Laws
end

