-- ==== Sys2Proof/Laws/Banks.lean ====
section
/-! SUPPORT. What serving Landing stores at their banks leaves alone, once for all callers. -/
namespace Sys2Proof.Laws
open Sys2Proof.Machine

/-- Two states agree on everything but what a served Landing store writes: the bytes and counters of Landings, the requests
at their banks, and the entries of strands that wait for them. -/
structure AgreeButBanks (s t : State) : Prop where
  rest : { t with cores := [] } = { s with cores := [] }
  core : ∀ k, { t.core k with bankQ := [], landing := [], counters := [], ctrOld := [], badLand := [], parts := [] } =
    { s.core k with bankQ := [], landing := [], counters := [], ctrOld := [], badLand := [], parts := [] }
  strand : ∀ k p sl, { t.strand k p sl with spills := [] } = { s.strand k p sl with spills := [] }

theorem AgreeButBanks.refl (s : State) : AgreeButBanks s s := ⟨rfl, fun _ => rfl, fun _ _ _ => rfl⟩

theorem AgreeButBanks.trans {a b c : State} (h : AgreeButBanks a b) (g : AgreeButBanks b c) : AgreeButBanks a c :=
  ⟨g.rest.trans h.rest, fun k => (g.core k).trans (h.core k), fun k p sl => (g.strand k p sl).trans (h.strand k p sl)⟩

/-- Folding an update that keeps to these parts keeps to them. -/
theorem AgreeButBanks.fold {α : Type} {f : State → α → State} (h : ∀ s a, AgreeButBanks s (f s a)) (l : List α) (s : State) :
    AgreeButBanks s (l.foldl f s) := by
  induction l generalizing s with
  | nil => exact .refl s
  | cons a r ih => exact (h s a).trans (ih (f s a))

/-- The contexts, jobs and channels of a core, memory and the tasks are among what agrees. -/
theorem AgreeButBanks.ctx {s t : State} (h : AgreeButBanks s t) (k c : Nat) : t.ctx k c = s.ctx k c := by
  have e := congrArg (fun x : Core => x.ctx c) (h.core k)
  exact e
theorem AgreeButBanks.jobs {s t : State} (h : AgreeButBanks s t) (k : Nat) : (t.core k).jobs = (s.core k).jobs := by
  have e := congrArg Core.jobs (h.core k)
  exact e
theorem AgreeButBanks.chan {s t : State} (h : AgreeButBanks s t) (k n : Nat) : t.chan k n = s.chan k n := by
  have e := congrArg (fun x : Core => x.chan n) (h.core k)
  exact e
theorem AgreeButBanks.mem {s t : State} (h : AgreeButBanks s t) : t.mem = s.mem := by
  have e := congrArg State.mem h.rest
  exact e
theorem AgreeButBanks.tasks {s t : State} (h : AgreeButBanks s t) : t.tasks = s.tasks := by
  have e := congrArg State.tasks h.rest
  exact e
theorem AgreeButBanks.spaces {s t : State} (h : AgreeButBanks s t) : t.spaces = s.spaces := by
  have e := congrArg State.spaces h.rest
  exact e
theorem AgreeButBanks.cycle {s t : State} (h : AgreeButBanks s t) : t.cycle = s.cycle := by
  have e := congrArg State.cycle h.rest
  exact e
theorem AgreeButBanks.turn {s t : State} (h : AgreeButBanks s t) : t.turn = s.turn := by
  have e := congrArg State.turn h.rest
  exact e

/-- An update of a core that keeps its partitions and all but Landing. -/
theorem agree_modCore (s : State) (k : Nat) (f : Core → Core) (h : ∀ c : Core,
    { f c with bankQ := [], landing := [], counters := [], ctrOld := [], badLand := [] } =
      { c with bankQ := [], landing := [], counters := [], ctrOld := [], badLand := [] }) : AgreeButBanks s (s.modCore k f) := by
  have g : ∀ j, { (s.modCore k f).core j with bankQ := [], landing := [], counters := [], ctrOld := [], badLand := [] } =
      { s.core j with bankQ := [], landing := [], counters := [], ctrOld := [], badLand := [] } := by
    intro j
    by_cases e : j = k
    · subst e; rw [core_modCore_same]; exact h _
    · rw [core_modCore_other _ _ _ _ e]
  exact ⟨rfl, fun j => congrArg (fun x : Core => { x with parts := [] }) (g j),
    fun j p sl => congrArg (fun x : Core => { (x.part p).strand sl with spills := [] }) (g j)⟩

theorem landWrite_agrees (c : Core) (off : Nat) (bs : List Byte) :
    { c.landWrite off bs with bankQ := [], landing := [], counters := [], ctrOld := [], badLand := [] } =
      { c with bankQ := [], landing := [], counters := [], ctrOld := [], badLand := [] } := by
  unfold Core.landWrite
  split
  · rfl
  · rfl

theorem landWrites_agree (l : List (Nat × List Byte)) (c : Core) :
    { l.foldl (fun (y : Core) w => y.landWrite w.1 w.2) c with bankQ := [], landing := [], counters := [], ctrOld := [], badLand := [] } =
      { c with bankQ := [], landing := [], counters := [], ctrOld := [], badLand := [] } := by
  induction l generalizing c with
  | nil => rfl
  | cons a r ih => rw [List.foldl_cons, ih, landWrite_agrees]

/-- An update of the waiting entries of a strand. -/
theorem agree_modStrand (s : State) (k p sl : Nat) (f : Strand → Strand)
    (h : ∀ st : Strand, { f st with spills := [] } = { st with spills := [] }) : AgreeButBanks s (s.modStrand k p sl f) := by
  refine ⟨rfl, fun j => ?_, fun j q n => ?_⟩
  · by_cases e : j = k
    · subst e
      show { (s.modCore j _).core j with bankQ := [], landing := [], counters := [], ctrOld := [], badLand := [], parts := [] } = _
      rw [core_modCore_same]; rfl
    · show { (s.modCore k _).core j with bankQ := [], landing := [], counters := [], ctrOld := [], badLand := [], parts := [] } = _
      rw [core_modCore_other _ _ _ _ e]
  · by_cases e : j = k ∧ q = p
    · obtain ⟨rfl, rfl⟩ := e
      by_cases e : n = sl
      · subst e; rw [strand_modStrand_same]; exact h _
      · rw [strand_modStrand_other _ _ _ _ _ _ e]
    · have e : j ≠ k ∨ q ≠ p := by by_cases a : j = k <;> simp_all
      show { ((s.modPart k p _).part j q).strand n with spills := [] } = _
      rw [part_modPart_other _ _ _ _ _ _ e]; rfl

theorem serveBank_agrees (s : State) (q : BankReq) (m : Nat) : AgreeButBanks s (s.serveBank q m) :=
  (agree_modCore s m _ (fun c => landWrites_agree q.writes c)).trans
    (.fold (fun x (e : Nat × Nat) => agree_modStrand x q.core q.part e.1 (fun st => st.serveEntry m q.bank e.2) (fun _ => rfl)) _ _)

/-- Serving every selected request of the banks changes Landings, the requests and the strands' waiting entries alone. -/
theorem drainBanks_agrees (s : State) (sel : BankReq → Bool) : AgreeButBanks s (s.drainBanks sel) := by
  refine .fold (fun x m => ?_) _ _
  dsimp only
  split
  · exact .refl x
  · have h : AgreeButBanks x (x.setBankQ m (splitServe sel (x.core m).bankQ).2) := agree_modCore x m _ (fun _ => rfl)
    exact h.trans (.fold (fun y q => serveBank_agrees y q m) _ _)

theorem drainCtx_agrees (s : State) (k c : Nat) : AgreeButBanks s (s.drainCtx k c) := drainBanks_agrees s _

end Sys2Proof.Laws
end

