-- ==== Sys2Proof/Laws/Encode.lean ====
section
/-! SUPPORT. The fields of an encoded word are the fields it was made of (spec 02 R41 to R46, 03 R74, R75). -/
namespace Sys2Proof.Laws

theorem ext_low {n m : Nat} (x : BitVec n) (y : BitVec m) : (x ++ y).extractLsb' 0 m = y := by
  apply BitVec.eq_of_getLsbD_eq
  intro i hi
  simp only [BitVec.getLsbD_extractLsb', BitVec.getLsbD_append, Nat.zero_add, hi, decide_true, Bool.true_and, if_true]

theorem ext_skip {n m : Nat} (x : BitVec n) (y : BitVec m) (k w : Nat) (h : m ≤ k) :
    (x ++ y).extractLsb' k w = x.extractLsb' (k - m) w := by
  apply BitVec.eq_of_getLsbD_eq
  intro i hi
  have h1 : ¬ k + i < m := by omega
  have h2 : k + i - m = k - m + i := by omega
  simp only [BitVec.getLsbD_extractLsb', BitVec.getLsbD_append, h1, if_false, h2]

theorem ext_all {n : Nat} (x : BitVec n) : x.extractLsb' 0 n = x := by
  apply BitVec.eq_of_getLsbD_eq
  intro i hi
  simp [hi]

theorem bit_low {n : Nat} (x : BitVec n) (b : Bool) : (x ++ BitVec.ofBool b).getLsbD 0 = b := by
  rw [BitVec.getLsbD_append]
  simp

theorem bit_skip {n m : Nat} (x : BitVec n) (y : BitVec m) (k : Nat) (h : m ≤ k) : (x ++ y).getLsbD k = x.getLsbD (k - m) := by
  rw [BitVec.getLsbD_append, if_neg (by omega)]

theorem longFields_encode (op sub : Nat) (f : LLong) : longFields (encodeLong0 op f) (encodeLong1 sub f) = f := by
  obtain ⟨gn, gp, d, a, b, ty, u, mod, imm⟩ := f
  simp only [longFields, encodeLong0, encodeLong1]
  simp (disch := decide) only [ext_low, ext_skip, bit_low, bit_skip, Nat.reduceSub]

theorem shortFields_encode (op : Nat) (f : LShort) : shortFields (encodeShort op f) = f := by
  obtain ⟨gn, gp, d, a, b⟩ := f
  simp only [shortFields, encodeShort]
  simp (disch := decide) only [ext_low, ext_skip, bit_low, bit_skip, Nat.reduceSub]

/-- The opcode and form bit of an encoded word, and the sub-opcode of an encoded second word. -/
theorem encodeShort_op (op : Nat) (f : LShort) : (encodeShort op f).extractLsb' 26 6 = BitVec.ofNat 6 op := by
  simp only [encodeShort]
  simp (disch := decide) only [ext_skip, Nat.reduceSub]
  exact ext_all _
theorem encodeLong0_op (op : Nat) (f : LLong) : (encodeLong0 op f).extractLsb' 26 6 = BitVec.ofNat 6 op := by
  simp only [encodeLong0]
  simp (disch := decide) only [ext_skip, Nat.reduceSub]
  exact ext_all _
theorem encodeLong1_sub (sub : Nat) (f : LLong) : (encodeLong1 sub f).extractLsb' 26 6 = BitVec.ofNat 6 sub := by
  simp only [encodeLong1]
  simp (disch := decide) only [ext_skip, Nat.reduceSub]
  exact ext_all _
theorem encodeShort_form (op : Nat) (f : LShort) : (encodeShort op f).getLsbD 25 = false := by
  simp only [encodeShort]
  simp (disch := decide) only [bit_skip, Nat.reduceSub]
  rw [BitVec.getLsbD_append]
  simp
theorem encodeLong0_form (op : Nat) (f : LLong) : (encodeLong0 op f).getLsbD 25 = true := by
  simp only [encodeLong0]
  simp (disch := decide) only [bit_skip, Nat.reduceSub]
  rw [BitVec.getLsbD_append]
  simp

theorem slotFields_encode (op : Nat) (f : SFields) : slotFields (encodeSlot op f) f.x = f := by
  obtain ⟨dst, ma, sa, mb, sb, imm, x⟩ := f
  simp only [slotFields, encodeSlot]
  simp (disch := decide) only [ext_low, ext_skip, bit_low, bit_skip, Nat.reduceSub]
theorem encodeSlot_op (op : Nat) (f : SFields) : slotOp (encodeSlot op f) = op % 128 := by
  simp only [slotOp, encodeSlot]
  simp (disch := decide) only [ext_skip, Nat.reduceSub]
  rw [ext_all]; simp

theorem decodeOperand_encode (o : EOperand) : decodeOperand (encodeOperand o) = o := by
  obtain ⟨k, i, h⟩ := o
  simp only [decodeOperand, encodeOperand]
  simp (disch := decide) only [ext_low, ext_skip, bit_low, Nat.reduceSub]
  rw [ext_all]
theorem engineFields_encode (n : BitVec 8) (f : EFields) : engineFields (encodeEngineSlot n f) = f := by
  obtain ⟨sc, a, b, c, d, m⟩ := f
  simp only [engineFields, encodeEngineSlot]
  simp (disch := decide) only [ext_low, ext_skip, Nat.reduceSub, decodeOperand_encode]
theorem encodeEngineSlot_fig (n : BitVec 8) (f : EFields) : (encodeEngineSlot n f).extractLsb' 56 8 = n := by
  simp only [encodeEngineSlot]
  simp (disch := decide) only [ext_skip, Nat.reduceSub]
  exact ext_all _

/-- The header and slots of an encoded bundle are those it was made of. -/
theorem decodeBundle_encode (b : Bundle) : decodeBundle (encodeBundle b) = b := by
  obtain ⟨s0p, s1p, ep, bp, rsv, lend, xown, s0, s1, e, bb, x⟩ := b
  simp only [decodeBundle, encodeBundle]
  simp (disch := decide) only [ext_low, ext_skip, bit_low, bit_skip, Nat.reduceSub]
  rw [ext_all]

end Sys2Proof.Laws
end

