-- ==== Sys2Proof/Laws/Slots.lean ====
section
/-! SUPPORT. What the shared operations of the scalar slots do, once for all callers: the common part of an operation,
and the issue of a bundle of one. -/
namespace Sys2Proof.Laws
open Sys2Proof.Machine

variable (s : State)

@[simp] theorem turnEnv_core (slot : Nat) : (s.turnEnv slot).core = s.turn.core := rfl
@[simp] theorem turnEnv_ctx (slot : Nat) : (s.turnEnv slot).ctx = s.turn.ctx := rfl
@[simp] theorem turnEnv_pre (slot : Nat) : (s.turnEnv slot).pre = s.ctx s.turn.core s.turn.ctx := rfl
@[simp] theorem turnEnv_slot (slot : Nat) : (s.turnEnv slot).slot = slot := rfl
@[simp] theorem turnEnv_lend (slot : Nat) : (s.turnEnv slot).lend = false := rfl
@[simp] theorem turnEnv_branch (slot : Nat) : (s.turnEnv slot).branch = false := rfl
@[simp] theorem turnEnv_s0 (slot : Nat) : (s.turnEnv slot).s0 = s := rfl

/-- Legal fields, full sources and a destination no result is awaited for, full where it is read too: the operation has its
effect. -/
theorem scalarOp_run {du au bu : FieldUse} {valid : Bool} {f : SFields} {env : SEnv} {k : Word → Word → SlotRes}
    (hl : (dstOk du f.dst.toNat && srcOk au f.ma f.sa.toNat && srcOk bu f.mb f.sb.toNat && valid) = true)
    (ha : srcHolds env.pre au f.ma f.sa.toNat = false) (hb : srcHolds env.pre bu f.mb f.sb.toNat = false)
    (hd : (du == .x && !env.pre.full f.dst.toNat && env.pre.awaits f.dst.toNat) = false)
    (hr : (du == .xr && !env.pre.full f.dst.toNat) = false)
    (ea : srcEmpty env.pre au f.ma f.sa.toNat = false) (eb : srcEmpty env.pre bu f.mb f.sb.toNat = false) :
    scalarOp du au bu valid false f env s k =
      k (if au == .x then env.pre.getX f.sa.toNat else 0) (if bu == .x then env.pre.getX f.sb.toNat else 0) := by
  simp only [scalarOp, hl, ha, hb, hd, hr, ea, eb]; rfl

/-- An illegal field raises ILLEGAL_OP before anything else (02 R40). -/
theorem scalarOp_illegal {du au bu : FieldUse} {valid p : Bool} {f : SFields} {env : SEnv} {k : Word → Word → SlotRes}
    (hl : (dstOk du f.dst.toNat && srcOk au f.ma f.sa.toNat && srcOk bu f.mb f.sb.toNat && valid) = false) :
    scalarOp du au bu valid p f env s k = .trap trapIllegal := by simp [scalarOp, hl]

/-- A privileged operation of a user context raises PRIV after the field checks. -/
theorem scalarOp_priv {du au bu : FieldUse} {valid : Bool} {f : SFields} {env : SEnv} {k : Word → Word → SlotRes}
    (hl : (dstOk du f.dst.toNat && srcOk au f.ma f.sa.toNat && srcOk bu f.mb f.sb.toNat && valid) = true) :
    scalarOp du au bu valid true f env s k = .trap ⟨.priv, 0, 0⟩ := by simp [scalarOp, hl]

/-- Whatever a scalar operation answers, it is its effect on two source values, a trap, or a wait in the state before. -/
theorem scalarOp_cases (du au bu : FieldUse) (valid p : Bool) (f : SFields) (env : SEnv) (k : Word → Word → SlotRes) :
    (∃ t, scalarOp du au bu valid p f env s k = .trap t) ∨ scalarOp du au bu valid p f env s k = .hold s ∨
    ((dstOk du f.dst.toNat && srcOk au f.ma f.sa.toNat && srcOk bu f.mb f.sb.toNat && valid) = true ∧ p = false ∧
      scalarOp du au bu valid p f env s k =
        k (if au == .x then env.pre.getX f.sa.toNat else 0) (if bu == .x then env.pre.getX f.sb.toNat else 0)) := by
  unfold scalarOp
  split
  · exact .inl ⟨_, rfl⟩
  · split
    · exact .inl ⟨_, rfl⟩
    · split
      · exact .inr (.inl rfl)
      · split
        · exact .inl ⟨_, rfl⟩
        · split
          · exact .inl ⟨_, rfl⟩
          · exact .inr (.inr ⟨by simp_all, by simp_all, rfl⟩)

/-- An operation that changes its own context alone, neither its PC nor its wait for nothing, issues: the PC moves on. -/
theorem issueOne_run {slot : Nat} {op : SEnv → State → SlotRes} {g : Ctx → Ctx} {pc : Option Word}
    (h : op (s.turnEnv slot) s = .ok (s.modCtx s.turn.core s.turn.ctx g) pc none)
    (hp : (g (s.ctx s.turn.core s.turn.ctx)).pc = (s.ctx s.turn.core s.turn.ctx).pc)
    (hw : (g (s.ctx s.turn.core s.turn.ctx)).wait = .none) :
    issueOne slot op s = .next (s.modCtx s.turn.core s.turn.ctx (fun c =>
      { g c with pc := pc.getD ((g c).pc + 32), cmd := (g c).cmd + 1, skip := [], issued := s.cycle + 1 })) := by
  have hs : s.modCtx s.turn.core s.turn.ctx (fun c =>
      { g c with pc := pc.getD ((g c).pc + 32), cmd := (g c).cmd + 1, skip := [], issued := s.cycle + 1 }) =
      s.modCtx s.turn.core s.turn.ctx (fun c =>
      { g c with pc := pc.getD ((s.ctx s.turn.core s.turn.ctx).pc + 32), cmd := (g c).cmd + 1, skip := [], issued := s.cycle + 1 }) := by
    simp [State.modCtx, hp]
  rw [hs]
  unfold issueOne
  simp only [h, Option.map_none, finishIssue, turnEnv_core, turnEnv_ctx, turnEnv_pre, modCtx_modCtx, modCtx_cycle, ctx_modCtx_same, hw]

/-- An operation that traps at issue does nothing but stop the context (02 R39). -/
theorem issueOne_trap {slot : Nat} {op : SEnv → State → SlotRes} {t : Trap} (h : op (s.turnEnv slot) s = .trap t) :
    issueOne slot op s = .next (s.takeTrap s.turn.core s.turn.ctx
      ⟨0, 0, slot, (s.ctx s.turn.core s.turn.ctx).pc, (s.ctx s.turn.core s.turn.ctx).cmd, none⟩ t.cls t.addr
      (BitVec.ofNat 64 t.det)) := by
  unfold issueOne
  simp only [h, SEnv.at_, turnEnv_core, turnEnv_ctx, turnEnv_pre]

/-- An operation that waits leaves the bundle to be issued again. -/
theorem issueOne_hold {slot : Nat} {op : SEnv → State → SlotRes} {s' : State} (h : op (s.turnEnv slot) s = .hold s') :
    issueOne slot op s = .next s' := by simp [issueOne, h]

/-- The issue of one operation always ends in a next state. -/
theorem issueOne_next (slot : Nat) (op : SEnv → State → SlotRes) : ∃ t, issueOne slot op s = .next t := by
  unfold issueOne; dsimp only; split <;> exact ⟨_, rfl⟩

end Sys2Proof.Laws
end

