-- ==== Sys2Proof/Machine/Objects.lean ====
section
/-! DEFINITION. Objects: the parts of YOF files, relocations and veneers, and the figure numbers that a load gives
(spec 22 R421 to R425). -/
namespace Sys2Proof.Machine

/-! ### YOF files (22 R421) -/

/-- The kinds of a section. -/
inductive SectionKind where
  | tile | lane | data | zero
deriving DecidableEq, Repr

/-- The kind of a code. -/
def sectionKind (n : Nat) : Option SectionKind :=
  match n with | 1 => some .tile | 2 => some .lane | 3 => some .data | 4 => some .zero | _ => none

/-- The alignment a section has at least, as a power of two: bundles 32, lane instructions 4. -/
def SectionKind.align (k : SectionKind) : Nat := match k with | .tile => 5 | .lane => 2 | .data => 0 | .zero => 0

/-- A section: its name, kind, the power of two of its alignment, size and file offset. -/
structure YofSection where
  name   : Nat
  kind   : SectionKind
  align  : Nat
  size   : Nat
  offset : Nat
deriving DecidableEq, Repr

/-- Whether a loader may place a section at an address: it is aligned, and nothing else binds it. -/
def YofSection.fits (c : YofSection) (a : Nat) : Bool := decide (c.kind.align ≤ c.align) && a % 2 ^ c.align == 0

/-- The classes of a symbol. -/
inductive SymbolClass where
  | plain | task | routine | figure
deriving DecidableEq, Repr

/-- The class of the code in bits [3:1] of a symbol. -/
def symbolClass (n : Nat) : Option SymbolClass :=
  match n with | 0 => some .plain | 1 => some .task | 2 => some .routine | 3 => some .figure | _ => none

/-- A symbol: its name, its section or none for an absolute value, its value, and whether other objects see it. -/
structure YofSymbol where
  name   : Nat
  sect   : Option Nat
  value  : Nat
  global : Bool
  cls    : SymbolClass
deriving DecidableEq, Repr

/-- A relocation: its section, the offset of its bundle, word or slot, its symbol, the KIND byte, the slot or byte, and
the addend. -/
structure YofReloc where
  sect   : Nat
  offset : Nat
  symbol : Nat
  kind   : Nat
  slot   : Nat
  addend : Int
deriving DecidableEq, Repr

/-- The kind of a relocation, and its far flag (22 R423). -/
def YofReloc.base (r : YofReloc) : Nat := r.kind % 128
def YofReloc.far (r : YofReloc) : Bool := r.kind / 128 % 2 == 1

/-- Whether 64 bytes begin a YOF file: the magic, and a version from 1 to 3; the bytes outside the four tables are 0. -/
def yofHeaderOk (bs : List Byte) : Bool :=
  bs.length == 64 && bs.take 4 == [0x59, 0x4F, 0x46, 0x03] && decide (1 ≤ (bs.getD 4 0).toNat) && decide ((bs.getD 4 0).toNat ≤ 3) &&
    ((bs.drop 5).take 3).all (· == 0) && (bs.drop 40).all (· == 0)

/-! ### Relocations (22 R423, R425) -/

/-- Whether a value is a signed number of `w` bits. -/
def fitsSigned (w : Nat) (v : Int) : Bool := decide (-(2 ^ (w - 1) : Int) ≤ v) && decide (v < 2 ^ (w - 1))

/-- A distance in units, if it is a whole number of them that fits in `w` signed bits (log 113). -/
def wholeUnits (unit : Int) (w : Nat) (v : Int) : Option Int :=
  if v % unit = 0 ∧ fitsSigned w (v / unit) = true then some (v / unit) else none

/-- The value of a relocation's field: `v` is S + A, `p` the address of the bundle or the lane instruction, `wide` whether
the slot owns X, `signed` whether the lane instruction takes a signed immediate. `none` where it breaks the limit of its
kind. -/
def relocValue (kind : Nat) (wide signed : Bool) (v p : Int) : Option Int :=
  let w := if wide then 48 else 16
  match kind with
  | 1 => some v
  | 2 => if 0 ≤ v ∧ v < 2 ^ 32 then some v else none
  | 3 => wholeUnits 1 w v
  | 4 => wholeUnits 32 w (v - p)
  | 5 => wholeUnits 32 12 (v - p)
  | 6 => wholeUnits 32 8 (v - p)
  | 7 => if signed then wholeUnits 1 16 v else if 0 ≤ v ∧ v < 2 ^ 16 then some v else none
  | 8 => wholeUnits 4 16 (v - p)
  | 9 => if 0x80 ≤ v ∧ v ≤ 0xFF then some v else none
  | _ => none

/-- A field of a word replaced by the low bits of an integer. -/
def setBits {n : Nat} (w : BitVec n) (lo len : Nat) (v : Int) : BitVec n :=
  BitVec.ofNat n (w.toNat - natField w.toNat (lo + len - 1) lo * 2 ^ lo + ofSigned len v * 2 ^ lo)

/-- A bundle with a relocated field: the immediate of slot S0 or S1, the first offset of the tree, the byte of X of a later
leaf, or the figure number of the engine slot or of a scalar immediate (02 R41, R44, R46, R48). Slot 2 is the engine slot. -/
def patchBundle (kind slot : Nat) (w : W256) (v : Int) : W256 :=
  let imm (u : W256) : W256 :=
    let wide := decide (natField u.toNat 7 6 = slot + 1)
    let u1 := setBits u (if slot = 0 then 8 else 56) 16 v
    if wide then setBits u1 224 32 (v / 2 ^ 16) else u1
  match kind with
  | 3 => imm w
  | 4 => imm w
  | 5 => setBits w 168 12 v
  | 6 => setBits w (224 + 8 * slot) 8 v
  | 9 => if slot = 2 then setBits w 160 8 v else imm w
  | _ => w

/-- The second word of a long lane instruction with a relocated immediate (03 R75). -/
def patchLane (w1 : W32) (v : Int) : W32 := setBits w1 0 16 v

/-- Whether a relocation of a kind may be far; another is an assembly error (22 R425). -/
def farKind (kind : Nat) : Bool := kind == 4 || kind == 5 || kind == 6 || kind == 8

/-- The field of a relocation at a link: its value, or that of the first veneer place in range when the relocation is far.
`none` is a link error. `places` are the addresses in the section where a veneer can stand. -/
def linkValue (kind : Nat) (far wide signed : Bool) (v p : Int) (places : List Int) : Option Int :=
  match relocValue kind wide signed v p with
  | some x => some x
  | none => if far && farKind kind then places.findSome? (fun a => relocValue kind wide signed a p) else none

/-- The veneer of a tile stream: a bundle `jmpx target` whose immediate is widened through X, for a target that stands
`units` bundles away (22 R425, 05 R110). -/
noncomputable def tileVeneer (units : Int) : Instr :=
  .jmpx { (default : SFields) with imm := BitVec.ofNat 16 (ofSigned 16 units), x := some (BitVec.ofNat 32 (ofSigned 48 units / 2 ^ 16)) }

/-- `movi.n32` or `movi.hi.n32` of a halfword of the target (07 R159). -/
noncomputable def veneerMove (v : Nat) (hi : Bool) (n : Nat) : Instr :=
  .movi { gn := false, gp := 7, d := BitVec.ofNat 7 v, a := 0, b := 0, ty := 0x0A, u := false, mod := if hi then 1 else 0, imm := BitVec.ofNat 16 n }

/-- The veneer of lanes: the target's address in the pair v126, v127, and a `brx` through it (22 R425). -/
noncomputable def laneVeneer (target : Word) : List Instr :=
  [veneerMove 126 false (fieldNat target 15 0), veneerMove 126 true (fieldNat target 31 16), veneerMove 127 false (fieldNat target 47 32),
   veneerMove 127 true (fieldNat target 63 48),
   .brx { gn := false, gp := 7, d := 0, a := 126, b := 0, ty := 0, u := false, mod := 0, imm := 0 }]

/-! ### Figure symbols at a load (22 R424) -/

/-- The user figure numbers that are unbound in an address space, in ascending order. -/
def State.freeFigures (s : State) (asid : Nat) : List Nat :=
  ((List.range 128).map (· + 0x80)).filter (fun n => entryKind (s.figEntry asid n) == 0)

/-- The numbers a load gives to its figure symbols, in the order of the symbol table: each the lowest that is unbound and
not yet given. `none`: the load fails and changes nothing. -/
def State.loadFigures (s : State) (asid : Nat) (syms : List YofSymbol) : Option (List (YofSymbol × Nat)) :=
  let figs := syms.filter (fun y => y.cls == .figure)
  if figs.length ≤ (s.freeFigures asid).length then some (figs.zip (s.freeFigures asid)) else none

end Sys2Proof.Machine
end

