-- ==== Sys2Proof/Tests/Slice0.lean ====
section
/-! SUPPORT. Own tests: the checks of WellFormed, words written out from the encodings, single steps on small states, and
for every statement a witness: concrete states and operands at which every hypothesis of its clauses is met, each by
evaluation, and what the clause then says there. -/
set_option Elab.async false
namespace Sys2Proof.Tests
open Sys2Proof Sys2Proof.Machine Sys2Proof.Claim

/-- The instruction answers a next state. -/
def runs (i : Instr) (s : State) : Prop := ∃ t, exec i s = .next t

theorem runs_eq {i : Instr} {s t : State} (h : exec i s = .next t) : runs i s := ⟨t, h⟩
theorem runs_and {i : Instr} {s : State} {P : State → Prop} (h : ∃ t, exec i s = .next t ∧ P t) : runs i s :=
  h.elim fun t p => ⟨t, p.1⟩
theorem runs_two {i : Instr} {s : State} {α : Type} {P : State → α → Prop} (h : ∃ t j, exec i s = .next t ∧ P t j) : runs i s :=
  h.elim fun t p => p.elim fun _ q => ⟨t, q.1⟩

/-! ### Small states -/

/-- The device after reset, its turn that of context 0 of core 0. -/
def r0 : State := State.reset

/-- Context 0 of core 0 changed. -/
def withCtx (f : Ctx → Ctx) : State := r0.modCtx 0 0 f

/-- The fields of a scalar operation on registers: x[d], x[a], x[b]. -/
def sx (d a b : BitVec 6) : SFields := ⟨d, false, a, false, b, 0, none⟩
/-- With an immediate in place of x[b]. -/
def si (d a : BitVec 6) (imm : BitVec 16) : SFields := ⟨d, false, a, false, 0, imm, none⟩

theorem ok_of {ε α : Type} {e : Except ε α} (h : e.isOk = true) : ∃ x, e = .ok x := by
  cases e with
  | error _ => cases h
  | ok x => exact ⟨x, rfl⟩
theorem error_of {ε α : Type} {e : Except ε α} (h : e.isOk = false) : ∃ x, e = .error x := by
  cases e with
  | error x => exact ⟨x, rfl⟩
  | ok _ => cases h
theorem some_of {α : Type} {o : Option α} (h : o.isSome = true) : ∃ x, o = some x := by
  cases o with
  | none => cases h
  | some x => exact ⟨x, rfl⟩

/-- Address space 0 maps the 32 KiB from 0 for reads, writes and fetches; turn and registers as after reset. -/
def r1 : State := r0.placePage 8 0
def mapCtx (f : Ctx → Ctx) : State := r1.modCtx 0 0 f

/-- What holds of the default and of every listed entry holds of every entry. -/
theorem tab_all {α : Type} {t : Tab α} {d : α} (P : α → Bool) (hd : P d = true) (h : t.all (fun e => P e.2) = true) (k : Nat) : P (Tab.get t d k) = true := by
  induction t with
  | nil => exact hd
  | cons e r ih =>
    simp only [List.all_cons, Bool.and_eq_true] at h
    unfold Tab.get
    split
    · exact h.1
    · exact ih h.2

/-! ### Witnesses: scalar arithmetic, compares, conditions -/

/-- x4 = −1, x5 = 63: the sources of the shifts and of the widest products. -/
def sAlu : State := withCtx fun c => (c.setX 4 (-1)).setX 5 63
/-- x4 is empty. -/
def sEmpty : State := withCtx fun c => c.markEmpty 4
/-- x4 is empty and a result for it is outstanding. -/
def sAwait : State := sEmpty.modCtx 0 0 fun c => { c with results := [⟨4, false, 0, none, none, none, [], 0, 0, 0, 0⟩] }

theorem witness_ScalarRegisterFormResults : ScalarRegisterFormResults →
    runs (.mulhS (sx 3 4 5)) sAlu ∧ runs (.lea ⟨3, false, 4, false, 5, 7, none⟩) sAlu ∧
    runs (.sel ⟨3, false, 4, false, 5, 15, none⟩) sAlu ∧ runs (.add (sx 0 4 5)) sAlu := by
  intro h
  refine ⟨⟨_, (h sAlu (sx 3 4 5) ?_ ?_ ?_ ?_).2.2.2.1⟩,
    ⟨_, (h sAlu ⟨3, false, 4, false, 5, 7, none⟩ ?_ ?_ ?_ ?_).2.2.2.2.2.2.2.2.2.2.2.2.2.2.2.2.2.1 ?_⟩,
    ⟨_, (h sAlu ⟨3, false, 4, false, 5, 15, none⟩ ?_ ?_ ?_ ?_).2.2.2.2.2.2.2.2.2.2.2.2.2.2.2.2.2.2 ?_ ?_⟩,
    ⟨_, (h sAlu (sx 0 4 5) ?_ ?_ ?_ ?_).1⟩⟩ <;> decide +kernel

theorem witness_ScalarOneSourceResults : ScalarOneSourceResults →
    runs (.clz (sx 3 4 0)) sAlu ∧ runs (.popc (sx 3 4 0)) sAlu ∧ runs (.li (si 3 0 0x8000)) sAlu ∧ runs (.lih (si 3 0 0xFFFF)) sAlu := by
  intro h
  refine ⟨⟨_, (h sAlu (sx 3 4 0) ?_ ?_ ?_).1 ?_⟩, ⟨_, (h sAlu (sx 3 4 0) ?_ ?_ ?_).2.1 ?_⟩,
    ⟨_, (h sAlu (si 3 0 0x8000) ?_ ?_ ?_).2.2.1 ?_⟩, ⟨_, (h sAlu (si 3 0 0xFFFF) ?_ ?_ ?_).2.2.2 ?_ ?_ ?_⟩⟩ <;> decide +kernel

theorem witness_ScalarImmediateFormResults : ScalarImmediateFormResults → runs (.addI (si 3 4 0x7FFF)) sAlu ∧ runs (.subI (si 63 4 0x8000)) sAlu := by
  intro h
  refine ⟨⟨_, (h sAlu (si 3 4 0x7FFF) ?_ ?_ ?_ ?_).1⟩, ⟨_, (h sAlu (si 63 4 0x8000) ?_ ?_ ?_ ?_).2.1⟩⟩ <;> decide +kernel

theorem witness_ScalarDivisionResults : ScalarDivisionResults →
    runs (.divS (sx 3 4 5)) sAlu ∧ exec (.divN (sx 3 4 6)) sAlu = .next (trapped sAlu 0 .divide 0 6) ∧
    runs (.remNI (si 3 4 1)) sAlu ∧ exec (.divSI (si 3 4 0)) sAlu = .next (trapped sAlu 0 .divide 0 0) := by
  intro h
  refine ⟨⟨_, ((h sAlu (sx 3 4 5) ?_ ?_ ?_).1 ?_ ?_).1⟩, (h sAlu (sx 3 4 6) ?_ ?_ ?_).2.1 ?_ ?_ _ (by simp),
    ⟨_, ((h sAlu (si 3 4 1) ?_ ?_ ?_).2.2.1 ?_ ?_).2.2.2⟩, (h sAlu (si 3 4 0) ?_ ?_ ?_).2.2.2 ?_ ?_ _ (by simp)⟩ <;> decide +kernel

theorem witness_ScalarCompareResults : ScalarCompareResults → runs (.cmpEq (sx 7 4 5)) sAlu ∧ runs (.cmpLeNI (si 0 4 0xFFFF)) sAlu := by
  intro h
  refine ⟨⟨_, ((h sAlu (sx 7 4 5) ?_ ?_).1 ?_ ?_).1⟩, ⟨_, ((h sAlu (si 0 4 0xFFFF) ?_ ?_).2 ?_ ?_).2.2.2.2.2⟩⟩ <;> decide +kernel

theorem witness_ScalarEmptyRegisters : ScalarEmptyRegisters →
    exec (.add (sx 3 4 5)) sEmpty = .next sEmpty ∧
    exec (.add ⟨3, true, 4, false, 5, 0, none⟩) sEmpty = .next (trapped sEmpty 0 .emptyRead 0 4) ∧
    exec (.sub ⟨3, false, 5, true, 4, 0, none⟩) sEmpty = .next (trapped sEmpty 0 .emptyRead 0 4) ∧
    exec (.sub (sx 4 5 5)) sAwait = .next sAwait ∧ exec (.madd (sx 4 5 5)) sEmpty = .next sEmpty ∧ exec (.lih (si 4 0 0xFFFF)) sEmpty = .next sEmpty := by
  intro h
  refine ⟨(h.1 sEmpty (sx 3 4 5) _ (by simp)).1 ?_, (h.1 sEmpty ⟨3, true, 4, false, 5, 0, none⟩ _ (by simp)).2.1 ?_ ?_ ?_ ?_ (.inl (by simp)),
    (h.1 sEmpty ⟨3, false, 5, true, 4, 0, none⟩ _ (by simp)).2.2.1 ?_ ?_ ?_ ?_ (.inl (by simp)), (h.1 sAwait (sx 4 5 5) _ (by simp)).2.2.2 ?_ ?_ ?_ ?_,
    (h.2 sEmpty (sx 4 5 5) ?_).1, (h.2 sEmpty (si 4 0 0xFFFF) ?_).2 ?_ ?_ ?_⟩ <;>
    decide +kernel

/-- The frames hold of an issue that has its effect (here: of a next state that the results give). -/
theorem witness_ScalarRegisterFrame : ScalarRegisterFormResults → ScalarRegisterFrame → ∃ t, exec (.add (sx 3 4 5)) sAlu = .next t ∧ onlyMe sAlu t := by
  intro h g
  have e := (h sAlu (sx 3 4 5) (by decide +kernel) (by decide +kernel) (by decide +kernel) (by decide +kernel)).1
  exact ⟨_, e, (g sAlu _ (sx 3 4 5) _ (by simp) (by decide +kernel) e).1⟩

theorem witness_ScalarConditionFrame : ScalarCompareResults → ScalarConditionFrame → ∃ t, exec (.cmpEq (sx 7 4 5)) sAlu = .next t ∧ onlyMe sAlu t := by
  intro h g
  have e := ((h sAlu (sx 7 4 5) (by decide +kernel) (by decide +kernel)).1 (by decide +kernel) (by decide +kernel)).1
  exact ⟨_, e, (g sAlu _ (sx 7 4 5) _ (by simp) (by decide +kernel) e).1⟩

theorem witness_ConditionBitOperations : Obligations.ConditionBitOperations →
    runs (.cand (sx 7 15 0)) sAlu ∧ runs (.cnot (sx 0 15 0)) sAlu ∧ exec (.cor (sx 8 0 0)) sAlu = .next (trapped sAlu 0 .illegalOp 0 0) ∧
    exec (.cnot (sx 0 16 0)) sAlu = .next (trapped sAlu 0 .illegalOp 0 0) ∧ exec (.cmpEq (sx 8 4 5)) sAlu = .next (trapped sAlu 0 .illegalOp 0 0) := by
  intro h
  refine ⟨⟨_, ((h sAlu (sx 7 15 0) ?_).1 ?_ ?_ ?_ ?_ ?_ ?_ ?_).1⟩, ⟨_, (h sAlu (sx 0 15 0) ?_).2.1 ?_ ?_ ?_ ?_ ?_⟩,
    ((h sAlu (sx 8 0 0) ?_).2.2.1 ?_).2, (h sAlu (sx 0 16 0) ?_).2.2.2.1 ?_, (h sAlu (sx 8 4 5) ?_).2.2.2.2.1 ?_ _ (by simp)⟩ <;> decide +kernel

/-- x4 = 2^32 − 1: the longest trip count; x5 = 2^32: above it. -/
def sLoop : State := withCtx fun c => (c.setX 4 0xFFFFFFFF).setX 5 0x100000000

theorem witness_LoopAndTransferResults : Obligations.LoopAndTransferResults →
    runs (.lpset (si 0 4 7)) sLoop ∧ runs (.lpset (si 0 0 1)) sLoop ∧ exec (.lpset (si 0 5 1)) sLoop = .next (trapped sLoop 0 .illegalOp 0 0) ∧
    runs (.call (si 3 0 0x8000)) sLoop ∧ runs (.jmpx (si 0 4 0x7FFF)) sLoop ∧ runs (.ret (si 0 4 0)) sLoop := by
  intro h
  refine ⟨runs_and ((h sLoop (si 0 4 7) ?_ ?_ ?_).1 ?_ ?_ ?_ ?_ ?_), runs_and ((h sLoop (si 0 0 1) ?_ ?_ ?_).1 ?_ ?_ ?_ ?_ ?_),
    (h sLoop (si 0 5 1) ?_ ?_ ?_).2.1 ?_ ?_, ⟨_, (h sLoop (si 3 0 0x8000) ?_ ?_ ?_).2.2.1 ?_⟩,
    ⟨_, (h sLoop (si 0 4 0x7FFF) ?_ ?_ ?_).2.2.2.1 ?_⟩, ⟨_, (h sLoop (si 0 4 0) ?_ ?_ ?_).2.2.2.2 ?_ ?_⟩⟩ <;> decide +kernel

/-! ### Witnesses: scalar accesses to memory -/

/-- x4: the highest 8-byte Landing location; x5: the counter window; x6: no aperture; x7: not aligned. -/
def sLand : State := withCtx fun c => (((c.setX 4 0x7FFFF8).setX 5 0xFF8).setX 6 0x800000).setX 7 0x1001

theorem witness_LandingLoadAndStoreResults : LandingLoadAndStoreResults →
    runs (.ldLB64 (si 3 4 0)) sLand ∧ runs (.ldLB64 (si 3 5 0)) sLand ∧ runs (.ldLB8S (si 3 7 0)) sLand ∧ runs (.stLB64 (sx 0 4 5)) sLand ∧
    runs (.stLB8 (sx 0 7 5)) sLand := by
  intro h
  refine ⟨⟨_, (h sLand (si 3 4 0) ?_ ?_).1 (.ldLB64 (si 3 4 0), 8, false) (by simp) ?_ ?_ ?_ ?_ ?_⟩,
    ⟨_, (h sLand (si 3 5 0) ?_ ?_).1 (.ldLB64 (si 3 5 0), 8, false) (by simp) ?_ ?_ ?_ ?_ ?_⟩,
    ⟨_, (h sLand (si 3 7 0) ?_ ?_).1 (.ldLB8S (si 3 7 0), 1, true) (by simp) ?_ ?_ ?_ ?_ ?_⟩,
    ⟨_, (h sLand (sx 0 4 5) ?_ ?_).2 (.stLB64 (sx 0 4 5), 8) (by simp) ?_ ?_ ?_ ?_⟩,
    ⟨_, (h sLand (sx 0 7 5) ?_ ?_).2 (.stLB8 (sx 0 7 5), 1) (by simp) ?_ ?_ ?_ ?_⟩⟩ <;> decide +kernel

theorem witness_LandingAccessTraps : LandingAccessTraps →
    runs (.ldLB64 (si 3 6 0)) sLand ∧ runs (.ldLB8N (si 3 5 0)) sLand ∧ runs (.ldLB16N (si 3 7 0)) sLand ∧
    runs (.stLB8 (sx 0 6 5)) sLand ∧ runs (.stLB16 (sx 0 7 5)) sLand := by
  intro h
  refine ⟨⟨_, ((h sLand (si 3 6 0) ?_ ?_).1 (.ldLB64 (si 3 6 0), 8) (by simp) ?_ ?_).1 ?_⟩,
    ⟨_, ((h sLand (si 3 5 0) ?_ ?_).1 (.ldLB8N (si 3 5 0), 1) (by simp) ?_ ?_).1 ?_⟩,
    ⟨_, ((h sLand (si 3 7 0) ?_ ?_).1 (.ldLB16N (si 3 7 0), 2) (by simp) ?_ ?_).2 ?_ ?_⟩,
    ⟨_, ((h sLand (sx 0 6 5) ?_ ?_).2 (.stLB8 (sx 0 6 5), 1) (by simp) ?_ ?_).1 ?_⟩,
    ⟨_, ((h sLand (sx 0 7 5) ?_ ?_).2 (.stLB16 (sx 0 7 5), 2) (by simp) ?_ ?_).2 ?_ ?_⟩⟩ <;> decide +kernel

theorem witness_LandingAccessFrame : LandingLoadAndStoreResults → LandingAccessFrame →
    (∃ t, exec (.ldLB64 (si 3 4 0)) sLand = .next t ∧ sameMemory sLand t) ∧
    (∃ t, exec (.stLB64 (sx 0 4 5)) sLand = .next t ∧ sameMemory sLand t) := by
  intro r g
  obtain ⟨⟨t, e⟩, -, -, ⟨u, k⟩, -⟩ := witness_LandingLoadAndStoreResults r
  obtain ⟨v, hv, -, m⟩ := ((g sLand t (si 3 4 0) (by decide +kernel)).1 _ (by simp) e).1
  -- no store waits at the bank, so the load brings none before it
  have same : settled sLand (si 3 4 0) = sLand := by decide +kernel
  rw [same, or_self] at hv
  subst hv
  exact ⟨⟨t, e, m⟩,
    ⟨u, k, ((g sLand u (sx 0 4 5) (by decide +kernel)).2 (.stLB64 (sx 0 4 5), 8) (by simp) k).1⟩⟩

theorem witness_CounterInstructions : CounterInstructions →
    runs (.catm (sx 3 5 4)) sLand ∧ runs (.catm (sx 3 6 4)) sLand ∧ runs (.catm ⟨3, false, 5, false, 4, 1, none⟩) sLand ∧
    exec (.cwait (si 0 5 1)) sLand = .next sLand := by
  intro h
  refine ⟨⟨_, (h sLand (sx 3 5 4) ?_ ?_).1 ?_ ?_ ?_ ?_ _ rfl⟩, ⟨_, (h sLand (sx 3 6 4) ?_ ?_).2.1 ?_ ?_ ?_⟩,
    ⟨_, (h sLand ⟨3, false, 5, false, 4, 1, none⟩ ?_ ?_).2.2.1 ?_ ?_ ?_ ?_⟩,
    ((h sLand (si 0 5 1) ?_ ?_).2.2.2 ?_ ?_ ?_ ?_).trans (congrArg _ (if_pos ?_))⟩ <;> decide +kernel

/-- x4: the last 8 bytes of the mapped page; x5: 2^54; x6: not aligned; x7: a page that is not mapped. -/
def sGlob : State := mapCtx fun c => (((c.setX 4 0x7FF8).setX 5 0x40000000000000).setX 6 1).setX 7 0x8000

theorem witness_GlobalLoadAndStoreResults : GlobalLoadAndStoreResults →
    runs (.ldGB64 (si 3 4 0)) sGlob ∧ runs (.ldGB8S (si 3 6 0)) sGlob ∧ runs (.stGB64 (sx 0 4 5)) sGlob := by
  intro h
  obtain ⟨x, hx⟩ := ok_of (e := mapped sGlob (si 3 4 0) .read) (by decide +kernel)
  obtain ⟨y, hy⟩ := ok_of (e := mapped sGlob (si 3 6 0) .read) (by decide +kernel)
  obtain ⟨z, hz⟩ := ok_of (e := mapped sGlob (sx 0 4 5) .write) (by decide +kernel)
  refine ⟨⟨_, (h sGlob (si 3 4 0) x ?_ ?_ ?_).1 (.ldGB64 (si 3 4 0), 8, false) (by simp) ?_ ?_ ?_ ?_ hx⟩,
    ⟨_, (h sGlob (si 3 6 0) y ?_ ?_ ?_).1 (.ldGB8S (si 3 6 0), 1, true) (by simp) ?_ ?_ ?_ ?_ hy⟩,
    ⟨_, (h sGlob (sx 0 4 5) z ?_ ?_ ?_).2 (.stGB64 (sx 0 4 5), 8) (by simp) ?_ ?_ ?_ ?_ hz⟩⟩ <;> decide +kernel

theorem witness_GlobalAccessTraps : GlobalAccessTraps →
    runs (.ldGB64 (si 3 5 0)) sGlob ∧ runs (.ldGB16S (si 3 6 0)) sGlob ∧ runs (.ldGB64 (si 3 7 0)) sGlob ∧
    runs (.stGB8 (sx 0 5 4)) sGlob ∧ runs (.stGB16 (sx 0 6 4)) sGlob ∧ runs (.stGB64 (sx 0 7 4)) sGlob := by
  intro h
  obtain ⟨x, hx⟩ := error_of (e := mapped sGlob (si 3 7 0) .read) (by decide +kernel)
  obtain ⟨y, hy⟩ := error_of (e := mapped sGlob (sx 0 7 4) .write) (by decide +kernel)
  refine ⟨⟨_, ((h sGlob (si 3 5 0) x ?_ ?_).1 (.ldGB64 (si 3 5 0), 8) (by simp) ?_ ?_).1 ?_⟩,
    ⟨_, ((h sGlob (si 3 6 0) x ?_ ?_).1 (.ldGB16S (si 3 6 0), 2) (by simp) ?_ ?_).2.1 ?_ ?_⟩,
    ⟨_, ((h sGlob (si 3 7 0) x ?_ ?_).1 (.ldGB64 (si 3 7 0), 8) (by simp) ?_ ?_).2.2 ?_ ?_ ?_ hx⟩,
    ⟨_, ((h sGlob (sx 0 5 4) x ?_ ?_).2 (.stGB8 (sx 0 5 4), 1) (by simp) ?_ ?_).1 ?_⟩,
    ⟨_, ((h sGlob (sx 0 6 4) x ?_ ?_).2 (.stGB16 (sx 0 6 4), 2) (by simp) ?_ ?_).2.1 ?_ ?_⟩,
    ⟨_, ((h sGlob (sx 0 7 4) y ?_ ?_).2 (.stGB64 (sx 0 7 4), 8) (by simp) ?_ ?_).2.2 ?_ ?_ ?_ hy⟩⟩ <;> decide +kernel

theorem witness_GlobalAccessFrame : GlobalLoadAndStoreResults → GlobalAccessFrame →
    ∃ t, exec (.ldGB64 (si 3 4 0)) sGlob = .next t ∧ ∀ k a, (t.core k).landing.byte a = (sGlob.core k).landing.byte a := by
  intro r g
  obtain ⟨⟨t, e⟩, -⟩ := witness_GlobalLoadAndStoreResults r
  exact ⟨t, e, (g sGlob t (si 3 4 0) (by decide +kernel) (.ldGB64 (si 3 4 0), true) (by simp) e).1⟩

/-! ### Witnesses: control, steps, events, registers -/

/-- Context 0 runs task 0; with `kids`, task 1 is a child of it that has not merged. -/
def sTask (kids : Bool) : State :=
  let s := (mapCtx fun c => ((c.setX 4 0x7F00).setX 5 1)).modCtx 0 0 fun c => { c with task := some 0, running := true }
  let t := { s.modTask 0 (fun t => { t with started := true, places := [(0, 0)], cores := [0] }) with nextTask := 2 }
  if kids then t.modTask 1 (fun t => { t with parent := some 0 }) else t
def nf : SFields := ⟨0, false, 0, false, 0, 0, none⟩
/-- Task 0 is itself a spawned child. -/
def sChild : State := (sTask false).modTask 0 fun t => { t with parent := some 7 }

theorem witness_StepEndResults : StepEndResults →
    runs (.snext nf) (sTask false) ∧ runs (.tend nf) (sTask true) ∧ runs (.merge nf) sChild ∧ runs (.sync nf) (sTask false) ∧ runs (.sync nf) (sTask true) := by
  intro h
  refine ⟨runs_and (((h (sTask false) nf ?_ ?_).1 (.snext nf, 0, true) (by simp) ?_ ?_ ?_ ?_).1 ?_),
    runs_and (((h (sTask true) nf ?_ ?_).1 (.tend nf, 1, true) (by simp) ?_ ?_ ?_ ?_).2 ?_),
    runs_and (((h sChild nf ?_ ?_).1 (.merge nf, 2, false) (by simp) ?_ ?_ ?_ ?_).1 ?_),
    runs_and ((h (sTask false) nf ?_ ?_).2.1 ?_), runs_and ((h (sTask true) nf ?_ ?_).2.2 ?_)⟩ <;> decide +kernel

/-- Two contexts of a troupe, of which the second has, or has not, arrived at its barrier. -/
def sTroupe (k : Nat) : State :=
  ((sTask false).modTask 0 (fun t => { t with words := Memory.write [] 8 8 (2 ^ 59), places := [(0, 0), (1, 0)] })).modCtx 1 0
    (fun c => { c with task := some 0, tbar := k, wait := if k = 1 then .tbar 1 else .none })

theorem witness_TroupeBarrier : TroupeBarrier →
    (∃ t, exec (.tbar nf) (sTroupe 0) = .next t ∧ (me t).wait = .tbar 1) ∧
    (∃ t, exec (.tbar nf) (sTroupe 1) = .next t ∧ (t.ctx 1 0).wait ≠ .tbar 1) ∧
    exec (.tbar nf) (sTask false) = .next (trapped (sTask false) 0 .illegalOp 0 0) := by
  intro h
  obtain ⟨t, e, -, -, -, -, a, -⟩ := (h (sTroupe 0) nf (by decide +kernel) (by decide +kernel)).1 (by decide +kernel)
  obtain ⟨u, k, -, -, -, -, -, b⟩ := (h (sTroupe 1) nf (by decide +kernel) (by decide +kernel)).1 (by decide +kernel)
  exact ⟨⟨t, e, a ⟨(1, 0), by decide +kernel⟩⟩, ⟨u, k, b (by decide +kernel) (1, 0) (by decide +kernel)⟩,
    (h (sTask false) nf (by decide +kernel) (by decide +kernel)).2 (by decide +kernel)⟩

/-- The same with 2,048 children in the pool. -/
def sFull : State := (sTask false).modDie 0 fun d => { d with pool := List.range 2048 }

theorem witness_SpawnResults : SpawnResults → runs (.spawn (si 3 4 0)) (sTask false) ∧ runs (.spawn (si 3 4 0)) sFull ∧
    runs (.spawnNb (si 3 4 7)) (sTask false) := by
  intro h
  obtain ⟨x, hx⟩ := ok_of (e := (sTask false).xlate ((sTask false).ctxAgent (sTask false).turn.core (sTask false).turn.ctx) .read (xa (sTask false) (si 3 4 0)))
    (by decide +kernel)
  obtain ⟨y, hy⟩ := ok_of (e := sFull.xlate (sFull.ctxAgent sFull.turn.core sFull.turn.ctx) .read (xa sFull (si 3 4 0))) (by decide +kernel)
  refine ⟨runs_and ((h (sTask false) (si 3 4 0) x 0 ?_ ?_ ?_ ?_ ?_ ?_ ?_ ?_ ?_ hx).1 ?_),
    runs_and ((h sFull (si 3 4 0) y 0 ?_ ?_ ?_ ?_ ?_ ?_ ?_ ?_ ?_ hy).2.1 ?_),
    runs_and ((h (sTask false) (si 3 4 7) x 0 ?_ ?_ ?_ ?_ ?_ ?_ ?_ ?_ ?_ hx).2.2 ?_)⟩ <;> decide +kernel

/-- x4 describes counter 0xFF8; slot 3 is armed on SOFT with a handler at 0x40 and pending, slot 15 armed alone. -/
def sEv : State := withCtx fun c => { c.setX 4 0xFF802 with
  ev := { c.ev with slots := [(3, ⟨true, 8, 0, true, 0, 0x40, true⟩), (15, ⟨true, 8, 0, false, 0, 0x60, false⟩)], pend := 8 } }
def sHandler : State := sEv.modCtx 0 0 fun c => { c with ev := { c.ev with inh := true, pc := 0x80 } }

theorem witness_EventSlotResults : EventSlotResults →
    runs (.evarm (sx 15 4 0)) sEv ∧ exec (.evarm (sx 15 5 4)) (withCtx fun c => c.setX 5 9) =
      .next (trapped (withCtx fun c => c.setX 5 9) 0 .illegalOp 0 0) ∧ runs (.evdis (sx 3 0 0)) sEv ∧ runs (.evdis (sx 0 0 0)) sEv := by
  intro h
  refine ⟨runs_and ((h sEv (sx 15 4 0) ?_ ?_).1 ?_ ?_ ?_), (h (withCtx fun c => c.setX 5 9) (sx 15 5 4) ?_ ?_).2.1 ?_ ?_ ?_,
    runs_and ((h sEv (sx 3 0 0) ?_ ?_).2.2.1 ?_ ?_ ?_), ⟨_, (h sEv (sx 0 0 0) ?_ ?_).2.2.2 ?_ ?_ ?_⟩⟩ <;> decide +kernel

theorem witness_WaitAndHandlerResults : WaitAndHandlerResults →
    runs (.twany (si 0 0 0x8000)) sEv ∧ runs (.twany (si 0 0 0xFFFF)) sEv ∧
    exec (.twany (si 0 0 0x7FF7)) sEv = .next (trapped sEv 0 .illegalOp 0 0) ∧ runs (.evret nf) sHandler ∧
    exec (.evret nf) sEv = .next (trapped sEv 0 .illegalOp 0 0) := by
  intro h
  refine ⟨⟨_, ((h sEv (si 0 0 0x8000) ?_ ?_).1 ?_ ?_).1 ?_⟩, runs_two (((h sEv (si 0 0 0xFFFF) ?_ ?_).1 ?_ ?_).2 ?_),
    (h sEv (si 0 0 0x7FF7) ?_ ?_).2.1 ?_, runs_and ((h sHandler nf ?_ ?_).2.2.1 ?_), (h sEv nf ?_ ?_).2.2.2 ?_⟩ <;> decide +kernel

/-- A context at system privilege. -/
def sSys : State := withCtx fun c => { c.setX 4 0x1FE0000 with priv := 1 }

theorem witness_ControlRegisterReads : ControlRegisterReads →
    runs (.crd (si 3 0 0x000)) sEv ∧ runs (.crd (si 3 0 0x226)) sEv ∧ runs (.crd (si 3 0 0x22C)) sSys ∧ runs (.crd (si 3 0 0x021)) sEv ∧
    exec (.crd (si 3 0 0x1000)) sEv = .next (trapped sEv 0 .illegalOp 0 0) ∧ exec (.crd (si 3 0 0x200)) sEv = .next (trapped sEv 0 .priv 0 0) := by
  intro h
  refine ⟨⟨_, (h sEv (si 3 0 0x000) ?_ ?_ ?_ ?_).1 (0x000, (me sEv).numflags.setWidth 64) (by simp) ?_⟩,
    ⟨_, (h sEv (si 3 0 0x226) ?_ ?_ ?_ ?_).1 (0x226, BitVec.ofNat 64 sEv.fabric.cwdim) (by simp) ?_⟩,
    ⟨_, (h sSys (si 3 0 0x22C) ?_ ?_ ?_ ?_).2.1 ?_ ?_ ?_ ?_⟩, ⟨_, (h sEv (si 3 0 0x021) ?_ ?_ ?_ ?_).2.2.1 ?_⟩,
    (h sEv (si 3 0 0x1000) ?_ ?_ ?_ ?_).2.2.2.1 ?_, (h sEv (si 3 0 0x200) ?_ ?_ ?_ ?_).2.2.2.2 ?_ ?_ ?_ ?_ ?_⟩ <;> decide +kernel

theorem witness_ControlRegisterWrites : ControlRegisterWrites →
    runs (.cwr (si 0 4 0x000)) sEv ∧ runs (.cwr (si 0 4 0x019)) sEv ∧ runs (.cwr (si 0 4 0x01A)) sEv ∧ runs (.cwr (si 0 4 0x01C)) sEv ∧
    runs (.cwr (si 0 4 0x210)) sEv ∧ runs (.cwr (si 0 4 0x043)) sSys ∧ runs (.cwr (si 0 4 0x20B)) sSys ∧ runs (.cwr (si 0 0 0x201)) sSys ∧
    runs (.cwr (si 0 0 0x22C)) sSys ∧ exec (.cwr (si 0 4 0x040)) sEv = .next (trapped sEv 0 .priv 0 0) ∧
    exec (.cwr (si 0 4 0x080)) sSys = .next (trapped sSys 0 .illegalOp 0 0) := by
  intro h
  refine ⟨⟨_, (h sEv (si 0 4 0x000) ?_ ?_ ?_ ?_).1 ?_⟩, ⟨_, (h sEv (si 0 4 0x019) ?_ ?_ ?_ ?_).2.1 ?_⟩,
    ⟨_, (h sEv (si 0 4 0x01A) ?_ ?_ ?_ ?_).2.2.1 ?_⟩, ⟨_, (h sEv (si 0 4 0x01C) ?_ ?_ ?_ ?_).2.2.2.1 ?_⟩,
    ⟨_, (h sEv (si 0 4 0x210) ?_ ?_ ?_ ?_).2.2.2.2.1 ?_⟩, ⟨_, (h sSys (si 0 4 0x043) ?_ ?_ ?_ ?_).2.2.2.2.2.1 3 ?_ ?_ ?_⟩,
    ⟨_, (h sSys (si 0 4 0x20B) ?_ ?_ ?_ ?_).2.2.2.2.2.2.1 ?_ ?_ ?_⟩, ⟨_, (h sSys (si 0 0 0x201) ?_ ?_ ?_ ?_).2.2.2.2.2.2.2.1 ?_ ?_ ?_⟩,
    (h sSys (si 0 0 0x22C) ?_ ?_ ?_ ?_).2.2.2.2.2.2.2.2.1 ?_ ?_ ?_ ?_ ?_, (h sEv (si 0 4 0x040) ?_ ?_ ?_ ?_).2.2.2.2.2.2.2.2.2.1 ?_ ?_,
    (h sSys (si 0 4 0x080) ?_ ?_ ?_ ?_).2.2.2.2.2.2.2.2.2.2 ?_⟩ <;> decide +kernel

theorem witness_OrderingAndBreakResults : Obligations.OrderingAndBreakResults →
    runs (.phase (si 0 0 3)) sEv ∧ runs (.fence nf) sEv ∧ runs (.fbar nf) sEv ∧ runs (.brk (si 0 0 0xFFFF)) sEv ∧ runs (.trap nf) sEv ∧ runs (.nop nf) sEv := by
  intro h
  refine ⟨runs_and ((h sEv (si 0 0 3) ?_).1 ?_ ?_), ⟨_, (h sEv nf ?_).2.1 ?_ ?_⟩, runs_and ((h sEv nf ?_).2.2.1 ?_),
    ⟨_, (h sEv (si 0 0 0xFFFF) ?_).2.2.2.1 ?_⟩, ⟨_, (h sEv nf ?_).2.2.2.2.1 ?_⟩, ⟨_, (h sEv nf ?_).2.2.2.2.2⟩⟩ <;> decide +kernel

/-! ### Witnesses: the Ferry -/

/-- A record of 16 words, of which the listed ones are not zero. -/
def rec16 (ws : List (Nat × Nat)) : BitVec 1024 := BitVec.ofNat 1024 (ws.map (fun w => w.2 * 2 ^ (64 * w.1))).sum
/-- 16 bytes from `base` on, in Landing or in global memory; and the address of the descriptor, the record and the code table. -/
def rowRec (landing : Bool) (base : Nat) : BitVec 1024 :=
  rec16 [(0, (if landing then 2 ^ 63 else 0) + base), (1, 0x100), (2, 16 * 2 ^ 40 + 1), (8, 16 * 2 ^ 32)]
/-- One box of 4 elements from y0 to y1, adding 3 to counter 2. -/
def boxDesc : BitVec 1024 := rec16 [(0, 2 * 2 ^ 48 + 3 * 2 ^ 32 + 2 ^ 24 + 0x10), (7, 3)]

/-- Bytes from an address on; the zero ones are not listed. -/
def bytesAt (a : Nat) (bs : List Byte) : Memory := ((List.range bs.length).map (fun i => (a + i, bs.getD i 0))).filter (fun e => e.2 != 0)

/-- Landing holds a descriptor at 0x4000, a record at 0x5000 and a code table of two codes of one bit at 0x6000. -/
def sFerry : State :=
  (mapCtx fun c => ((((((((c.setX 4 0x4000).setX 5 0x5000).setX 6 0x6000).setX 7 0x1000001000).setX 8 0x1300000002).setX 9 0x7FFF0).setX 10 1)
    |> fun c => { c with y := [(0, rowRec true 0x2000), (1, rowRec true 0x3000)] })).modCore 0 fun c => { c with
      landing := bytesAt 0x4000 (bytesOf 128 boxDesc.toNat) ++ bytesAt 0x5000 (bytesOf 128 (rowRec true 0x2000).toNat) ++
        [(0x6000, 1), (0x60FF, 1)] }
/-- A Ferry command on channel 0 to 3, its channel in sb. -/
def fx (d a ch : BitVec 6) : SFields := sx d a ch

theorem witness_FerryTableCommands : FerryTableCommands →
    runs (.fdef (si 15 5 0)) sFerry ∧ runs (.fcode (si 3 6 0)) sFerry ∧ runs (.fring (sx 15 7 8)) sFerry := by
  intro h
  have hn : ((sFerry.core sFerry.turn.core).queue (fieldNat (xb sFerry (sx 15 7 8)) 35 32)).ring = none := by decide +kernel
  refine ⟨⟨_, (h sFerry (si 15 5 0) ?_ ?_).1 ?_ ?_ ?_ ?_ ?_ ?_ ?_ ?_ ?_⟩, ⟨_, (h sFerry (si 3 6 0) ?_ ?_).2.1 ?_ ?_ ?_ ?_ ?_ ?_ ?_ ?_ ?_⟩,
    runs_and ((h sFerry (sx 15 7 8) ?_ ?_).2.2 ?_ ?_ ?_ ?_ ?_ ?_ ?_ ?_ ?_ ?_ ?_ ?_ ?_ ?_ (fun q _ e => by rw [hn] at e; cases e))⟩ <;> decide +kernel

/-- ASCTL of the space lets the context move pages. -/
def sPaging : State := sFerry.modSpace 0 fun sp => { sp with asctl := 1 }

theorem witness_FerryTransferCommands : FerryTransferCommands →
    runs (.fwalk (fx 3 4 0)) sFerry ∧ runs (.fcopy (fx 3 4 3)) sFerry ∧ runs (.fpage (⟨3, false, 0, false, 3, 1, none⟩)) sPaging ∧
    exec (.fpage (fx 3 0 0)) sFerry = .next (trapped sFerry 1 .priv 0 0) := by
  intro h
  obtain ⟨a, ha⟩ := ok_of (e := ((drained sFerry).core sFerry.turn.core).ferrySide (me sFerry).task (record sFerry (fx 3 4 0)) true
    (layout sFerry (wSrcy (record sFerry (fx 3 4 0))))) (by decide +kernel)
  obtain ⟨b, hb⟩ := ok_of (e := ((drained sFerry).core sFerry.turn.core).ferrySide (me sFerry).task (record sFerry (fx 3 4 0)) false
    (layout sFerry (wDsty (record sFerry (fx 3 4 0))))) (by decide +kernel)
  obtain ⟨c, hc⟩ := ok_of (e := ((drained sFerry).core sFerry.turn.core).ferrySide (me sFerry).task (wCopy (record sFerry (fx 3 4 3))) true
    (layout sFerry (wSrcy (wCopy (record sFerry (fx 3 4 3)))))) (by decide +kernel)
  obtain ⟨d, hd⟩ := ok_of (e := ((drained sFerry).core sFerry.turn.core).ferrySide (me sFerry).task (wCopy (record sFerry (fx 3 4 3))) false
    (layout sFerry (wDsty (wCopy (record sFerry (fx 3 4 3)))))) (by decide +kernel)
  refine ⟨runs_two ((h sFerry _ (fx 3 4 0) a b rfl ?_ ?_ ?_ ?_).1 (.fwalk (fx 3 4 0), true, record sFerry (fx 3 4 0)) (by simp) ?_ ?_ ?_ ?_ ?_ ?_ ?_ ha (fun _ => hb) ?_),
    runs_two ((h sFerry _ (fx 3 4 3) c d rfl ?_ ?_ ?_ ?_).1 (.fcopy (fx 3 4 3), false, wCopy (record sFerry (fx 3 4 3))) (by simp) ?_ ?_ ?_ ?_ ?_ ?_ ?_ hc (fun _ => hd) ?_),
    runs_two ((h sPaging _ ⟨3, false, 0, false, 3, 1, none⟩ [] [] rfl ?_ ?_ ?_ ?_).2.1 ?_ ?_ ?_ ?_ ?_),
    (h sFerry _ (fx 3 0 0) [] [] rfl ?_ ?_ ?_ ?_).2.2 ?_ ?_⟩ <;> decide +kernel

/-- The box command, from the record `src` to Landing. -/
def boxCmd (src : BitVec 1024) : FCmd :=
  { fpage := none, desc := boxDesc, src := src, dst := rowRec true 0x3000, first := 0, count := 1, begun := 1, job := 0, ctx := 0, task := none,
    asid := 0, priv := 0, pc := 0x80, cmd := 0, mask := [] }
/-- A held tile refill stands in channel 1, its consumed event come: fstop waits for it. -/
def sRefill : State := sFerry.modCore 0 fun c => { c with chans := [(1, { Chan.init with next := 1, cmds := [{ boxCmd (rowRec true 0x2000) with desc := rec16 [(0, 2 ^ 16)], begun := 0 }] })] }

theorem witness_FerryChannelCommands : FerryChannelCommands →
    exec (.fwait (fx 0 10 3)) sFerry = .next sFerry ∧ runs (.fwait (fx 0 0 3)) sFerry ∧ runs (.fstat ⟨3, false, 0, false, 3, 2, none⟩) sFerry ∧
    runs (.fstop (fx 0 0 0)) sFerry ∧ exec (.fstop (fx 0 0 1)) sRefill = .next sRefill := by
  intro h
  refine ⟨((h sFerry (fx 0 10 3) ?_ ?_).1 ?_ ?_).trans (congrArg _ (if_pos ?_)), ⟨_, (h sFerry (fx 0 0 3) ?_ ?_).1 ?_ ?_⟩,
    ⟨_, (h sFerry ⟨3, false, 0, false, 3, 2, none⟩ ?_ ?_).2.1 ?_ ?_ ?_⟩, runs_and ((h sFerry (fx 0 0 0) ?_ ?_).2.2.1 ?_ ?_ ?_ ?_),
    (h sRefill (fx 0 0 1) ?_ ?_).2.2.2 ?_ ?_ ?_ ?_⟩ <;> decide +kernel

theorem witness_LayoutRecordMap : Obligations.LayoutRecordMap → (recMap (rowRec true 0x2000) [15, 0, 0, 0, 0, 0]).1 = 0x200F := by
  intro h
  rw [h _ _ (by decide)]
  decide +kernel

/-- Channel 0 with transfer 0 of the box command started, to the record `dst`; channel 1 with it to start; channel 2 with a
page to move. -/
def sXfer (src : BitVec 1024) : State :=
  sFerry.modCore 0 fun c => { c with chans :=
    [(0, { Chan.init with next := 1, cmds := [boxCmd src], active := [⟨0, 0, boxCmd src, none, 0, 0, []⟩] }),
     (1, { Chan.init with next := 1, cmds := [{ boxCmd src with begun := 0 }] }),
     (2, { Chan.init with next := 1, active := [⟨0, 0, { boxCmd src with fpage := some (0, 0) }, none, 0, 0, []⟩] }),
     (3, { Chan.init with halt := true })] }

theorem run_of {x : FerryRun × FerryEnd} (h : x.2 = .done) : ∃ r, x = (r, .done) := by cases x; cases h; exact ⟨_, rfl⟩
/-- Whether a transfer ends with a page fault, or with an error. -/
def pageEnd (o : Option (Transfer × FerryRun × FerryEnd)) : Bool := match o with | some (_, _, .page _) => true | _ => false
def badEnd (o : Option (Transfer × FerryRun × FerryEnd)) : Bool := match o with | some (_, _, .bad ..) => true | _ => false
theorem page_of {o : Option (Transfer × FerryRun × FerryEnd)} (h : pageEnd o = true) : ∃ tr r q, o = some (tr, r, .page q) := by
  match o, h with
  | some (_, _, .page _), _ => exact ⟨_, _, _, rfl⟩
theorem bad_of {o : Option (Transfer × FerryRun × FerryEnd)} (h : badEnd o = true) : ∃ tr r c a d, o = some (tr, r, .bad c a d) := by
  match o, h with
  | some (_, _, .bad _ _ _), _ => exact ⟨_, _, _, _, _, rfl⟩

theorem witness_FerryTransferCompletion : FerryTransferCompletion → runs (.transferComplete 0 0 0) (sXfer (rowRec true 0x2000)) := by
  intro h
  obtain ⟨r, hr⟩ := run_of (x := (sXfer (rowRec true 0x2000)).ferryRunAll 0 ⟨0, 0, boxCmd (rowRec true 0x2000), none, 0, 0, []⟩) (by decide +kernel)
  exact runs_and (h _ 0 0 0 _ r (by decide +kernel) hr)

/-- The source is a page of global memory that is not mapped; or Landing whose data is uncorrectable. -/
def sFault : State := sXfer (rowRec false 0x8000)
def sBad : State := (sXfer (rowRec true 0x2000)).modCore 0 fun c => { c with badLand := [0x400] }

theorem witness_FerryChannelRows : FerryChannelRows →
    runs (.transferStart 0 1) sFault ∧ exec (.transferStart 0 3) sFault = .fault .notEnabled ∧ runs (.ferryPageFault 0 0) sFault ∧
    runs (.ferryHaltError 0 0) sBad ∧ runs (.fpageComplete 0 2) sFault := by
  intro h
  obtain ⟨a, ha⟩ := some_of (o := (sFault.core 0).startable (sFault.chan 0 1).cmds) (by decide +kernel)
  obtain ⟨tr, r, q, hq⟩ := page_of (o := sFault.endingTransfer 0 0 (fun e => match e with | .page _ => true | _ => false)) (by decide +kernel)
  obtain ⟨tb, rb, c, d, e, hb⟩ := bad_of (o := sBad.endingTransfer 0 0 (fun e => match e with | .bad .. => true | _ => false)) (by decide +kernel)
  obtain ⟨p, hp⟩ := some_of (o := (sFault.chan 0 2).active.findSome? (fun t => t.cmd.fpage.map (fun p => (t, p)))) (by decide +kernel)
  exact ⟨runs_two ((h sFault 0 1).1 a.1 a.2 (by decide +kernel) ha), ((h sFault 0 3).2.1 (by decide +kernel)).1,
    runs_two ((h sFault 0 0).2.2.1 tr r q (by decide +kernel) hq), runs_and ((h sBad 0 0).2.2.2.1 tb rb c d e (by decide +kernel) hb),
    runs_and ((h sFault 0 2).2.2.2.2 p.1 p.2 hp)⟩

/-! ### Witnesses: the engine slot -/

/-- Operands of an engine slot: a tile, an accumulator, an x register, none; and the fields of scope, operands and modifiers. -/
def opT (n : BitVec 6) : EOperand := ⟨0, n, false⟩
def opA (n : BitVec 6) : EOperand := ⟨1, n, false⟩
def opX (n : BitVec 6) : EOperand := ⟨2, n, false⟩
def opN : EOperand := ⟨3, 0, false⟩
def ef (a b c d : EOperand) (m : BitVec 12) : EFields := ⟨0, a, b, c, d, m⟩

/-- A BF16 tile of 8 rows of 8 in 128 bytes at 0: reserved and written, and its words; the words of one at 128. -/
def tileWords (base : Nat) : Word × Word := (BitVec.ofNat 64 (128 * 2 ^ 32 + base), BitVec.ofNat 64 (2 * 2 ^ 32 + 8 * 2 ^ 16 + 8))
def tile0 : Tile := ⟨(tileWords 0).1, (tileWords 0).2, 0, true, true⟩

/-- Tile 0 is written and accumulator 0 holds FP32 in partition 0; x4, x5 describe a tile 1, x6 and x7 a Landing range, x8
holds the number of zclr, x9 that of fbind's target 0x80, x10 and x11 an entry of a routine without operands; x12 is empty. -/
def sTile : State := (mapCtx fun c => (((((((((c.setX 4 (tileWords 128).1).setX 5 (tileWords 128).2).setX 6 0x2000).setX 7 0x400).setX 8 0x08).setX 9 0x80).setX 10
    0x8000000000000000).setX 11 0x100000C0C0C0C0).markEmpty 12)).modCtx 0 0 fun c =>
  { c with tiles := [(0, tile0)], accs := [(0, 1)], accMap := [0, 1], obufSize := 1024 }

theorem witness_EngineFigureIssue : EngineFigureIssue →
    runs (.tres (ef (opT 1) (opX 4) (opX 5) (opX 0) 0)) sTile ∧ runs (.mmaBf16 (ef (opA 0) (opT 0) (opT 0) opN 0)) sTile ∧
    runs (.mmaF64 (ef (opA 0) (opT 0) (opT 0) opN 0)) sTile ∧
    exec (.tzero ⟨6, opT 0, opN, opN, opN, 0⟩) sTile = .next (trapped sTile 2 .illegalOp 0 0) ∧
    exec (.tcfg (ef (opT 0) (opX 12) (opX 5) opN 0)) sTile = .next sTile := by
  intro h
  obtain ⟨q, hq⟩ := some_of (o := figTrap sTile (ef (opA 0) (opT 0) (opT 0) opN 0) 0x1A 0) (by decide +kernel)
  refine ⟨runs_two ((h sTile (ef (opT 1) (opX 4) (opX 5) (opX 0) 0) ?_ (.tres, 0x00) (by simp [figures])).1 ?_ ?_ ?_),
    runs_two ((h sTile (ef (opA 0) (opT 0) (opT 0) opN 0) ?_ (.mmaBf16, 0x10) (by simp [figures])).1 ?_ ?_ ?_),
    ⟨_, (h sTile (ef (opA 0) (opT 0) (opT 0) opN 0) ?_ (.mmaF64, 0x1A) (by simp [figures])).2.1 q ?_ ?_ hq⟩,
    (h sTile ⟨6, opT 0, opN, opN, opN, 0⟩ ?_ (.tzero, 0x07) (by simp [figures])).2.2.1 ?_,
    (h sTile (ef (opT 0) (opX 12) (opX 5) opN 0) ?_ (.tcfg, 0x02) (by simp [figures])).2.2.2 ?_ ?_⟩ <;> decide +kernel

theorem witness_TileRegisterResults : TileRegisterResults →
    runs (.tres (ef (opT 1) (opX 4) (opX 5) (opX 0) 0)) sTile ∧ runs (.trel (ef (opT 0) opN opN opN 0)) sTile ∧
    runs (.tcfg (ef (opT 0) (opX 5) (opX 0) opN 0)) sTile ∧ runs (.tzero (ef (opT 0) opN opN opN 0)) sTile ∧
    runs (.zclr (ef (opA 1) opN opN opN 2)) sTile ∧ runs (.zld (ef (opA 0) (opX 6) (opX 7) opN 0)) sTile := by
  intro h
  refine ⟨runs_and (h sTile (ef (opT 1) (opX 4) (opX 5) (opX 0) 0) ?_ (.tres (ef (opT 1) (opX 4) (opX 5) (opX 0) 0), 0x00) (by simp) ?_ ?_ ?_),
    runs_and (h sTile (ef (opT 0) opN opN opN 0) ?_ (.trel (ef (opT 0) opN opN opN 0), 0x01) (by simp) ?_ ?_ ?_),
    runs_and (h sTile (ef (opT 0) (opX 5) (opX 0) opN 0) ?_ (.tcfg (ef (opT 0) (opX 5) (opX 0) opN 0), 0x02) (by simp) ?_ ?_ ?_),
    runs_and (h sTile (ef (opT 0) opN opN opN 0) ?_ (.tzero (ef (opT 0) opN opN opN 0), 0x07) (by simp) ?_ ?_ ?_),
    runs_and (h sTile (ef (opA 1) opN opN opN 2) ?_ (.zclr (ef (opA 1) opN opN opN 2), 0x08) (by simp) ?_ ?_ ?_),
    runs_and (h sTile (ef (opA 0) (opX 6) (opX 7) opN 0) ?_ (.zld (ef (opA 0) (opX 6) (opX 7) opN 0), 0x09) (by simp) ?_ ?_ ?_)⟩ <;> decide +kernel

theorem witness_TileStateTraps : TileStateTraps →
    exec (.tres (ef (opT 0) (opX 4) (opX 5) (opX 0) 0)) sTile = .next (trapped sTile 2 .tileState 0 0) ∧
    exec (.trel (ef (opT 31) opN opN opN 0)) sTile = .next (trapped sTile 2 .tileState 0 0) ∧
    exec (.mmaBf16 (ef (opA 0) (opT 0) (opT 1) opN 0)) sTile = .next (trapped sTile 2 .tileState 0 0) := by
  intro h
  refine ⟨(h sTile (ef (opT 0) (opX 4) (opX 5) (opX 0) 0) ?_ ?_ ?_ ?_).1 ?_ ?_ ?_,
    (h sTile (ef (opT 31) opN opN opN 0) ?_ ?_ ?_ ?_).2.1 (.trel (ef (opT 31) opN opN opN 0), 0x01) (by simp) ?_ ?_,
    (h sTile (ef (opA 0) (opT 0) (opT 1) opN 0) ?_ ?_ ?_ ?_).2.2 (.mmaBf16, 0x10) (by simp [figures]) ?_ ?_ ⟨2, by decide +kernel⟩⟩ <;> decide +kernel

/-- The entries of figures 0x80, a name of zclr, and 0x81, a routine that reads tile 0. -/
def sBound : State := sTile.modSpace 0 fun sp => { sp with figures := [(0x80, 0x4000000000000008), (0x81, 0x00100000C0C0C0008000000000000000)] }

theorem witness_FigureNumberOutcomes : FigureNumberOutcomes →
    runs (.fbind ⟨4, opX 9, opX 10, opX 11, opN, 0⟩) sTile ∧ exec (.fbind ⟨4, opX 0, opX 10, opX 11, opN, 0⟩) sTile = .next (trapped sTile 2 .priv 0 0) ∧
    exec (.fbind ⟨4, opX 9, opX 4, opX 5, opN, 0⟩) sTile = .next (trapped sTile 2 .illegalOp 0 0) ∧
    exec (.fbind ⟨4, opX 4, opX 10, opX 11, opN, 0⟩) sTile = .next (trapped sTile 2 .illegalOp 0 0) ∧
    runs (.fig (ef (opA 1) opN opN opN 8)) sTile ∧ runs (.hardBoundFigure 0x80 (ef (opA 1) opN opN opN 0)) sBound ∧
    exec (.hardBoundFigure 0x80 (ef (opA 1) opN opN opN 1)) sBound = .next (trapped sBound 2 .illegalOp 0 0) ∧
    runs (.routineBoundFigure 0x81 (ef (opT 0) opN opN opN 0)) sBound ∧
    exec (.unboundFigureIssue 0x90 (ef opN opN opN opN 0)) sBound = .next (trapped sBound 2 .unboundFigure 0 0) ∧
    exec (.retiredFigureIssue 0x21 (ef opN opN opN opN 0)) sBound = .next (trapped sBound 2 .retiredOp 0 0) := by
  intro h
  refine ⟨runs_two (((h sTile ⟨4, opX 9, opX 10, opX 11, opN, 0⟩ ?_).1 ?_ ?_ ?_ ?_).1 ?_ ?_ ?_),
    ((h sTile ⟨4, opX 0, opX 10, opX 11, opN, 0⟩ ?_).1 ?_ ?_ ?_ ?_).2.1 ?_ ?_,
    ((h sTile ⟨4, opX 9, opX 4, opX 5, opN, 0⟩ ?_).1 ?_ ?_ ?_ ?_).2.2.1 ?_,
    ((h sTile ⟨4, opX 4, opX 10, opX 11, opN, 0⟩ ?_).1 ?_ ?_ ?_ ?_).2.2.2 ?_,
    runs_two ((h sTile (ef (opA 1) opN opN opN 8) ?_).2.1 (.zclr, 0x08) (by simp [figures]) ?_ ?_ ?_ ?_ ?_ ?_),
    runs_two (((h sBound (ef (opA 1) opN opN opN 0) ?_).2.2.1 0x80 ?_ _ rfl ?_ ?_).1 ?_ ?_ ?_ ?_),
    ((h sBound (ef (opA 1) opN opN opN 1) ?_).2.2.1 0x80 ?_ _ rfl ?_ ?_).2 ?_,
    runs_two ((h sBound (ef (opT 0) opN opN opN 0) ?_).2.2.2.1 0x81 _ rfl ?_ ?_ ?_ ?_ ?_ ?_),
    (h sBound (ef opN opN opN opN 0) ?_).2.2.2.2.1 0x90 ?_ ?_ ?_ ?_ ?_, (h sBound (ef opN opN opN opN 0) ?_).2.2.2.2.2 0x21 (.inl rfl)⟩ <;> decide +kernel

/-- The core holds one job, of a figure on accumulator 0. -/
def jobOf (fig mod : Nat) (started : Bool) (ops : List JOp) : Job := { placeJob with kind := .figure fig mod, started := started, ops := ops }
def sJob (j : Job) : State := sTile.modCore 0 fun c => { c with jobs := [j], nextJob := 1 }
/-- A tld of tile 0 from Landing 0x2000 on with pitch 16. -/
def tldJob : Job := { jobOf 0x03 0 true [.tile 0, .x 6 0x2000, .x 7 16, .none] with tcrs := [(0, 0, tile0)] }
def sTld : State := sJob tldJob
def sTldBad : State := sTld.modCore 0 fun c => { c with badLand := [0x400] }

theorem witness_EngineJobLife : EngineJobLife →
    runs (.engineJobStart 0 0) (sJob (jobOf 0x08 0 false [.acc 0])) ∧ runs (.engineJobComplete 0 0) sTld ∧ runs (.engineErrorStop 0 0) sTldBad := by
  intro h
  obtain ⟨e, he⟩ := some_of (o := sTldBad.jobErr 0 tldJob 0x03 0) (by decide +kernel)
  refine ⟨runs_and ((h (sJob (jobOf 0x08 0 false [.acc 0])) 0 0 0x08 0 (jobOf 0x08 0 false [.acc 0]) ?_ rfl ?_).1 rfl ?_ ?_), runs_and ((h sTld 0 0 0x03 0 tldJob ?_ rfl ?_).2.1 rfl rfl ?_),
    runs_two ((h sTldBad 0 0 0x03 0 tldJob ?_ rfl ?_).2.2 e.1 e.2.1 e.2.2 rfl rfl rfl he ?_)⟩ <;> decide +kernel

/-- The same of zclr, and of zld with pitch 1,024. -/
def zclrJob : Job := jobOf 0x08 0 true [.acc 0]
def zldJob : Job := jobOf 0x09 0 true [.acc 0, .x 6 0x2000, .x 7 0x400, .none]

/-- Where no Landing word is uncorrectable, no range of Landing has one. -/
theorem core_clean {s : State} (h : s.cores.all (fun e => e.2.badLand.isEmpty) = true) (k : Nat) : (s.core k).badLand = [] :=
  List.isEmpty_iff.mp (tab_all (fun c : Core => c.badLand.isEmpty) rfl h k)
theorem range_clean {s : State} (h : s.cores.all (fun e => e.2.badLand.isEmpty) = true) (k : Nat) (t : Option Nat) (a n : Nat) :
    s.landFirstBad k t a n = none := by
  induction n generalizing a with
  | zero => rfl
  | succ n ih => simp [State.landFirstBad, core_clean h, ih]
theorem zld_clean {s : State} (h : s.cores.all (fun e => e.2.badLand.isEmpty) = true) (k : Nat) (j : Job) (m : Nat) : s.jobErr k j 0x09 m = none := by
  have n : ∀ l : List Nat, l.findSome? (fun _ => (none : Option Nat)) = none := fun l => by induction l <;> simp_all
  have f : ∀ p, s.figErr k j 0x09 m p = none := fun p => by simp [State.figErr, range_clean h, n]
  have g : ∀ l : List Nat, l.filterMap (fun p => (s.figErr k j 0x09 m p).map (fun e => (p, e))) = [] := fun l => by induction l <;> simp_all
  unfold State.jobErr
  rw [g]

theorem witness_TileDataEffects : Obligations.TileDataEffects →
    runs (.engineJobComplete 0 0) sTld ∧ runs (.engineJobComplete 0 0) (sJob zclrJob) ∧ runs (.engineJobComplete 0 0) (sJob zldJob) := by
  intro h
  refine ⟨runs_and ((h sTld 0 0 0x03 0 0 tldJob ?_ rfl rfl rfl rfl ?_).1 0 6 _ 7 _ rfl ?_ rfl ?_ ?_),
    runs_and ((h (sJob zclrJob) 0 0 0x08 0 0 zclrJob ?_ rfl rfl rfl rfl ?_).2.1 0 rfl rfl),
    runs_and ((h (sJob zldJob) 0 0 0x09 0 0 zldJob ?_ rfl rfl rfl rfl (zld_clean (by decide +kernel) 0 zldJob 0)).2.2 0 6 _ 7 _ rfl ?_ rfl)⟩ <;> decide +kernel

/-- Jobs of task 0 on cores 0 and 1 that await a rendezvous; fbind's job; a routine to start, and one that is done. -/
def rdvJob' (fig : Nat) : Job := { jobOf fig 0 false [.acc 0] with rdv := true }
def sRdv (g : Nat) : State :=
  ((sTile.modCore 0 fun c => { c with jobs := [rdvJob' 0x08] }).modCore 1 fun c => { c with jobs := [rdvJob' g] }).modTask 0 fun t => { t with cores := [0, 1] }
def sBind : State := sJob (jobOf 0x0B 0 true [.x 9 0x80, .x 10 0, .x 11 0])
def routineJob : Job := { placeJob with kind := .routine 0x81 0x00100000C0C0C0C08000000000000000, gangs := [], started := false }
def doneJob : Job := { routineJob with gangs := [(0, [])], done := [0], started := true }

theorem witness_EngineHappenings : EngineHappenings →
    runs (.troupeRendezvous 0) (sRdv 0x08) ∧ runs (.troupeRendezvous 0) (sRdv 0x09) ∧ runs (.fbindComplete 0 0) sBind ∧
    runs (.routineGangStart 0 0 0) (sJob routineJob) ∧ runs (.instanceComplete 0 0) (sJob doneJob) := by
  intro h
  have hd : ¬ ∃ g, ∀ e ∈ [(0, rdvJob' 0x08), (1, rdvJob' 0x09)], e.2.figNo = g := fun ⟨g, hg⟩ =>
    absurd ((hg (0, rdvJob' 0x08) (by simp)).trans (hg (1, rdvJob' 0x09) (by simp)).symm) (by decide)
  refine ⟨⟨_, ((h (sRdv 0x08) 0 0 0 0 0).1 [(0, rdvJob' 0x08), (1, rdvJob' 0x08)] (by simp) ?_ ?_ ⟨0, ?_⟩).1 ⟨0x08, ?_⟩⟩,
    runs_and (((h (sRdv 0x09) 0 0 0 0 0).1 [(0, rdvJob' 0x08), (1, rdvJob' 0x09)] (by simp) ?_ ?_ ⟨0, ?_⟩).2 hd),
    runs_and ((h sBind 0 0 0 0 0).2.1 (jobOf 0x0B 0 true [.x 9 0x80, .x 10 0, .x 11 0]) ?_),
    runs_two ((h (sJob routineJob) 0 0 0 0 0).2.2.1 routineJob _ _ ?_ rfl ?_ ?_),
    runs_and ((h (sJob doneJob) 0 0 0 0 0).2.2.2 doneJob _ _ ?_ rfl rfl rfl ?_)⟩ <;> decide +kernel

theorem witness_FiniteCodesKept : Obligations.FiniteCodesKept → e4m3.convert .nearestEven true false (.fin false 1 (-9)) = (1, 0) :=
  fun h => h e4m3 (by simp) .nearestEven true false false 1 1 (-9) (by decide) (by decide)

theorem witness_IntegerMatrixAccumulation : Obligations.IntegerMatrixAccumulation → ∃ fa fb c, mmaForm 0x14 = some (fa, fb, 2, c) ∧
    mmaElem 2 c 1 0 1 (fun _ => (FVal.ofInt 127, 0)) (fun _ => (FVal.ofInt 1, 0)) 0x7FFFFFFF = (0x8000007E, flIovf) := by
  intro h
  obtain ⟨fa, fb, c, e, k⟩ := h 0x14 (.inl rfl)
  exact ⟨fa, fb, c, e, (k 1 0x7FFFFFFF (fun _ => 127) (fun _ => 1) (fun _ => 0) (by decide) _ rfl).trans (by decide)⟩

/-! ### Witnesses: lanes -/

/-- Lanes 0 and 31 of the strand in slot 0 of partition 0 form a pass; the strand's other lanes have exited. Its context may
use the mapped page; p0 of lane 0 is 1, of lane 31 is 0. -/
def laneStrand : Strand :=
  let dead := (List.range 30).map (fun i => (i + 1, { Lane.init with exited := true }))
  { placeStrand 0 with
    lanes := [(0, { Lane.init with p := 1, v := [(4, 3), (5, 0x2000), (10, 0x7F00)] })] ++ dead ++
      [(31, { Lane.init with v := [(4, 5), (5, 0x2010), (10, 0x7F10)] })] }
def sLane : State := { (r0.placeLane 8 0).setStrand 0 0 0 laneStrand with turn := ⟨0, 0, 0, [⟨0, 0⟩, ⟨0, 31⟩]⟩ }
/-- The strand changed. -/
def withStrand (f : Strand → Strand) : State := sLane.modStrand 0 0 0 f

/-- Fields: guard p7, destination, sources, type, modifier, immediate. -/
def lf (d a b : BitVec 7) (ty : BitVec 5) (m : BitVec 4) (imm : BitVec 16) : LLong := ⟨false, 7, d, a, b, ty, false, m, imm⟩
/-- With a strand scalar as source B. -/
def lu (d a b : BitVec 7) (ty : BitVec 5) (m : BitVec 4) (imm : BitVec 16) : LLong := ⟨false, 7, d, a, b, ty, true, m, imm⟩
def ls (d a b : BitVec 7) : LShort := ⟨false, 7, d, a, b⟩

theorem runs_gives {i : Instr} {s : State} {gn : Bool} {gp : BitVec 3} {size : Nat} {vs : List (Nat × Bool)} {ps : List Nat} {w : Bool} {d : BitVec 7}
    {g : LaneRef → Nat × NFlags} (h : gives i s gn gp size vs ps w d g) (r : ready s gn gp ((d.toNat, w) :: vs) ps) : runs i s := runs_and (h r)
theorem runs_givesP {i : Instr} {s : State} {gn : Bool} {gp : BitVec 3} {vs : List (Nat × Bool)} {ps : List Nat} {d : BitVec 7}
    {g : LaneRef → Bool × NFlags} (h : givesP i s gn gp vs ps d g) (r : ready s gn gp vs (d.toNat :: ps)) : runs i s := runs_and (h r)

theorem witness_LaneTwoSourceResults : LaneTwoSourceResults →
    runs (.iadd ⟨true, 0, 127, 4, 5⟩) sLane ∧ runs (.iaddLong (lf 126 4 0 0x0B 9 0x8000)) sLane ∧ runs (.iaddLong (lu 6 4 31 0x06 1 0)) sLane ∧
    runs (.imulh (lf 6 4 5 0x0A 0 0)) sLane := by
  intro h
  refine ⟨runs_gives (((h sLane).1 _ (List.Mem.head _)).1 ⟨true, 0, 127, 4, 5⟩) ?_,
    runs_gives (((h sLane).1 _ (List.Mem.head _)).2 (lf 126 4 0 0x0B 9 0x8000) ?_ ?_ ?_) ?_,
    runs_gives (((h sLane).1 _ (List.Mem.head _)).2 (lu 6 4 31 0x06 1 0) ?_ ?_ ?_) ?_,
    runs_gives ((h sLane).2 _ (List.Mem.head _) (lf 6 4 5 0x0A 0 0) ?_ ?_ ?_) ?_⟩ <;> decide +kernel

theorem witness_LaneOneSourceResults : LaneOneSourceResults →
    runs (.lanePopcLong (lf 6 4 0 0x02 0 0)) sLane ∧ runs (.lanePopc (ls 6 4 0)) sLane ∧ runs (.movLong (lf 6 0 0 0x03 8 0xFFFF)) sLane ∧
    runs (.mov (ls 6 0 4)) sLane ∧ runs (.movi (lf 6 0 0 0x0E 0 0x3F80)) sLane ∧ runs (.movi (lf 6 0 0 0x0A 1 0xFFFF)) sLane := by
  intro h
  refine ⟨runs_gives ((h sLane).1 _ (List.Mem.head _) (lf 6 4 0 0x02 0 0) ?_ ?_ ?_ ?_ ?_) ?_,
    runs_two ((h sLane).2.1 (ls 6 4 0) ?_ _ (List.Mem.head _) ?_), runs_gives ((h sLane).2.2.1 (lf 6 0 0 0x03 8 0xFFFF) ?_ ?_ ?_ ?_) ?_,
    runs_gives ((h sLane).2.2.2.1 (ls 6 0 4) ?_) ?_, runs_gives (((h sLane).2.2.2.2 (lf 6 0 0 0x0E 0 0x3F80) ?_ ?_ ?_).1 ?_ ?_) ?_,
    runs_gives (((h sLane).2.2.2.2 (lf 6 0 0 0x0A 1 0xFFFF) ?_ ?_ ?_).2 ?_ ?_) ?_⟩ <;> decide +kernel

/-- The immediate field as ext and c (03 R75). -/
def ec (ext c : Nat) : BitVec 16 := BitVec.ofNat 16 (128 * ext + c)

theorem witness_LaneFieldArithmeticResults : LaneFieldArithmeticResults →
    runs (.imad (lf 6 4 5 0x06 0 (ec 0 127))) sLane ∧ runs (.dot4 (lf 6 4 5 0x06 1 (ec 3 7))) sLane ∧ runs (.bfe (lf 6 4 0 0x07 0 (64 * 64 + 63))) sLane ∧
    runs (.prmt (lf 6 4 5 0x02 0 0xEFFF)) sLane ∧ runs (.laneSel (lf 6 4 8 0x03 0 (ec 15 0))) sLane ∧ runs (.laneLea (lf 6 4 5 0x02 0 7)) sLane ∧
    runs (.laneLea (lf 6 4 5 0x03 1 7)) sLane := by
  intro h
  refine ⟨runs_gives ((h sLane (lf 6 4 5 0x06 0 (ec 0 127))).1 ?_ ?_ ?_ _ (List.Mem.head _) ?_) ?_, runs_gives ((h sLane (lf 6 4 5 0x06 1 (ec 3 7))).2.1 ?_ ?_ ?_ ?_) ?_,
    runs_gives ((h sLane (lf 6 4 0 0x07 0 (64 * 64 + 63))).2.2.1 ?_ ?_ ?_ ?_ ?_ ?_ ?_) ?_, runs_gives ((h sLane (lf 6 4 5 0x02 0 0xEFFF)).2.2.2.1 ?_ ?_ ?_ ?_) ?_,
    runs_gives ((h sLane (lf 6 4 8 0x03 0 (ec 15 0))).2.2.2.2.1 ?_ ?_ ?_ ?_ ?_) ?_, runs_gives (((h sLane (lf 6 4 5 0x02 0 7)).2.2.2.2.2 ?_ ?_ ?_).1 ?_) ?_,
    runs_gives (((h sLane (lf 6 4 5 0x03 1 7)).2.2.2.2.2 ?_ ?_ ?_).2 ?_ ?_) ?_⟩ <;> decide +kernel

theorem witness_LaneCompareResults : LaneCompareResults →
    runs (.setp (lf 7 4 5 0x06 5 0)) sLane ∧ runs (.fsetp (lf 0 4 0 0x0E 15 0x7FC0)) sLane ∧ runs (.dsetp (lf 6 4 8 0x0F 1 0)) sLane := by
  intro h
  refine ⟨runs_givesP ((h sLane (lf 7 4 5 0x06 5 0) ?_ ?_).1 ?_ ?_) ?_,
    runs_givesP ((h sLane (lf 0 4 0 0x0E 15 0x7FC0) ?_ ?_).2 (.fsetp (lf 0 4 0 0x0E 15 0x7FC0), 0x0E, fp32) (by simp) ?_) ?_,
    runs_givesP ((h sLane (lf 6 4 8 0x0F 1 0) ?_ ?_).2 (.dsetp (lf 6 4 8 0x0F 1 0), 0x0F, fp64) (by simp) ?_) ?_⟩ <;> decide +kernel

/-- What holds of the format of a code, where it names one. -/
theorem fmt_all {n : Nat} {P : Fmt → Prop} [DecidablePred P] (h : (match fmtOf n with | some d => decide (P d) | none => true) = true) (d : Fmt)
    (e : fmtOf n = some d) : P d := by
  rw [e] at h; exact of_decide_eq_true h

theorem witness_LaneConversionResults : LaneConversionResults →
    runs (.cvt (lf 6 4 0 0 1 (2 ^ 15 + 2 ^ 11 + 1 * 32 + 2))) sLane ∧ runs (.cvt (lf 6 4 0 0 0 (12 * 32 + 12))) sLane ∧
    exec (.cvt (lf 6 4 0 0 0 (14 * 32))) sLane = .next (laneTrapped sLane ⟨0, 0⟩ .format 0 0) ∧ runs (.cvtMx (lu 6 4 31 0 0 0x13)) sLane := by
  intro h
  obtain ⟨a, ha⟩ := some_of (o := fmtOf 2) (by decide)
  obtain ⟨b, hb⟩ := some_of (o := fmtOf 1) (by decide)
  obtain ⟨c, hc⟩ := some_of (o := fmtOf 12) (by decide)
  obtain ⟨d, hd⟩ := some_of (o := fmtOf 0x13) (by decide)
  obtain ⟨e, he⟩ := some_of (o := fmtOf 0) (by decide)
  cases ha; cases hb; cases hc; cases hd; cases he
  refine ⟨runs_gives ((h sLane (lf 6 4 0 0 1 (2 ^ 15 + 2 ^ 11 + 1 * 32 + 2)) _ _ ?_).1 ?_ ?_ rfl rfl ?_ ?_ ?_ ?_ ?_ ?_) ?_,
    runs_gives ((h sLane (lf 6 4 0 0 0 (12 * 32 + 12)) _ _ ?_).1 ?_ ?_ rfl rfl ?_ ?_ ?_ ?_ ?_ ?_) ?_,
    (h sLane (lf 6 4 0 0 0 (14 * 32)) default default ?_).2.1 ?_ ?_ ?_ ?_ (fmt_all ?_) (fmt_all ?_) ?_ ?_,
    runs_and ((h sLane (lu 6 4 31 0 0 0x13) _ _ ?_).2.2 ?_ ?_ ?_ rfl ?_ ?_ rfl ?_ ?_ ?_ ?_ ?_)⟩ <;> decide +kernel

theorem witness_LaneHoldsAndIllegalFields : Obligations.LaneHoldsAndIllegalFields →
    exec (.iaddLong (lf 6 4 5 0x0E 0 0)) sLane = .next (laneTrapped sLane ⟨0, 0⟩ .illegalOp 0 0) ∧
    (let s := withStrand fun st => { st with nregs := 8 }; exec (.iaddLong (lf 8 4 5 0x06 0 0)) s = .next (laneTrapped s ⟨0, 0⟩ .illegalOp 0 0)) ∧
    (let s := withStrand fun st => st.modLane 31 fun l => { l with pendV := [5] }; exec (.iaddLong (lf 6 4 5 0x06 0 0)) s = .next s) := by
  intro h
  refine ⟨(h sLane (lf 6 4 5 0x0E 0 0) ?_ ?_ _ (List.Mem.head _) _ Iff.rfl _ rfl).1 ?_,
    (h (withStrand fun st => { st with nregs := 8 }) (lf 8 4 5 0x06 0 0) ?_ ?_ _ (List.Mem.head _) _ Iff.rfl _ rfl).1 ?_,
    (h (withStrand fun st => st.modLane 31 fun l => { l with pendV := [5] }) (lf 6 4 5 0x06 0 0) ?_ ?_ _ (List.Mem.head _) _ Iff.rfl _ rfl).2 ?_ ?_ ?_⟩ <;>
    decide +kernel

/-! ### Witnesses: the lanes' accesses to memory -/

/-- No strand of the partition has an atomic, or a Landing store, that is not performed. -/
theorem reds_none {s : State} (h : (s.part s.turn.core s.turn.part).strands.all (fun e => e.2.reds.isEmpty && e.2.spills.isEmpty) = true) (sl : Nat) :
    (strand s sl).reds = [] ∧ (strand s sl).spills = [] := by
  have := tab_all (d := Strand.init) (fun st => st.reds.isEmpty && st.spills.isEmpty) rfl h sl
  simp only [Bool.and_eq_true, List.isEmpty_iff] at this
  exact this

/-- v20: the highest 4 bytes of local Landing; v22: the lowest of the cluster aperture above the counters; v24: a hole; v26: not
aligned; v28: 2^54; v30: an index; v32: the mapped page's last bytes. -/
def sAcc : State := withStrand fun st =>
  let r (l : Lane) : Lane := { l with v := l.v ++ [(20, 0x7FFFFC), (22, 0x1008000), (24, 0x800000), (26, 0x1001), (29, 0x400000), (30, 3), (32, 0x7FFC)] }
  (st.modLane 0 r).modLane 31 r

theorem witness_LaneLandingAccesses : LaneLandingAccesses →
    runs (.laneLdLLong (lf 6 20 0 0x02 0 0)) sAcc ∧ runs (.ldC (lf 6 22 0 0x02 0 0)) sAcc ∧ runs (.laneLdL (ls 6 20 0)) sAcc ∧
    runs (.laneStLLong (lf 0 20 4 0x02 0 0)) sAcc ∧ runs (.laneStL (ls 0 22 4)) sAcc ∧ runs (.ldx (lf 6 30 20 0x08 0 (ec (4 + 2 * 128) 0))) sAcc ∧
    runs (.stx (lf 0 4 22 0x02 0 (ec (4 + 2 * 8 + 2 * 128) 4))) sAcc := by
  intro h
  refine ⟨runs_and (((h sAcc).1 (lf 6 20 0 0x02 0 0) ?_ ?_ ?_).1 ?_ ?_), runs_and (((h sAcc).1 (lf 6 22 0 0x02 0 0) ?_ ?_ ?_).2 ?_),
    runs_and ((h sAcc).2.1 (ls 6 20 0) ?_ ?_ ?_ ?_ ?_), runs_and ((h sAcc).2.2.1 (lf 0 20 4 0x02 0 0) ?_ ?_ ?_ ?_),
    runs_and ((h sAcc).2.2.2.1 (ls 0 22 4) ?_ ?_ ?_ ?_), runs_and (((h sAcc).2.2.2.2 (lf 6 30 20 0x08 0 (ec (4 + 2 * 128) 0)) ?_ ?_).1 ?_ ?_ ?_ ?_ ?_),
    runs_and (((h sAcc).2.2.2.2 (lf 0 4 22 0x02 0 (ec (4 + 2 * 8 + 2 * 128) 4)) ?_ ?_).2 ?_ ?_ ?_ ?_ ?_)⟩ <;> decide +kernel

theorem witness_LaneGlobalAccesses : LaneGlobalAccesses →
    runs (.laneLdG (lf 6 32 0 0x02 0 0)) sAcc ∧ runs (.ldx (lf 6 4 10 0x02 0 (ec (2 * 8 + 2 * 128) 0))) sAcc ∧ runs (.laneStG (lf 0 32 4 0x02 0 0)) sAcc ∧
    runs (.stx (lf 0 4 10 0x02 0 (ec (2 * 8 + 2 * 128) 4))) sAcc := by
  intro h
  have q := fun sl => (reds_none (s := sAcc) (by decide +kernel) sl).1
  obtain ⟨a, ha⟩ := some_of (o := mappedAll sAcc (gangAgent sAcc) .read ((active sAcc false 7).map (laneEa sAcc (lf 6 32 0 0x02 0 0) true true))) (by decide +kernel)
  obtain ⟨b, hb⟩ := some_of (o := mappedAll sAcc (gangAgent sAcc) .read ((active sAcc false 7).map (gatherAddr sAcc (lf 6 4 10 0x02 0 (ec (2 * 8 + 2 * 128) 0)))))
    (by decide +kernel)
  obtain ⟨c, hc⟩ := some_of (o := mappedAll sAcc (gangAgent sAcc) .write ((active sAcc false 7).map (laneEa sAcc (lf 0 32 4 0x02 0 0) true false))) (by decide +kernel)
  obtain ⟨d, hd⟩ := some_of (o := mappedAll sAcc (gangAgent sAcc) .write ((active sAcc false 7).map (gatherAddr sAcc (lf 0 4 10 0x02 0 (ec (2 * 8 + 2 * 128) 4)))))
    (by decide +kernel)
  refine ⟨runs_and ((h sAcc a.2 a.1 q).1 (.laneLdG, false) (by simp) (lf 6 32 0 0x02 0 0) _ rfl ?_ ?_ ?_ ha),
    runs_and ((h sAcc b.2 b.1 q).1 (.ldx, true) (by simp) (lf 6 4 10 0x02 0 (ec (2 * 8 + 2 * 128) 0)) _ rfl ?_ ?_ ?_ hb),
    runs_and ((h sAcc c.2 c.1 q).2 (.laneStG, false) (by simp) (lf 0 32 4 0x02 0 0) _ _ rfl rfl ?_ ?_ ?_ hc),
    runs_and ((h sAcc d.2 d.1 q).2 (.stx, true) (by simp) (lf 0 4 10 0x02 0 (ec (2 * 8 + 2 * 128) 4)) _ _ rfl rfl ?_ ?_ ?_ hd)⟩ <;> decide +kernel

theorem witness_LaneAccessTraps : LaneAccessTraps →
    exec (.laneLdLLong (lf 6 24 0 0x02 0 0)) sAcc = .next (laneTrapped sAcc ⟨0, 0⟩ .landingRange 0x800000 2) ∧
    exec (.laneStLLong (lf 0 26 4 0x02 0 0)) sAcc = .next (laneTrapped sAcc ⟨0, 0⟩ .align 0x1001 0x802) ∧
    exec (.laneLdG (lf 6 28 0 0x02 0 0)) sAcc = .next (laneTrapped sAcc ⟨0, 0⟩ .page 0x40000000000000 0x6000) := by
  intro h
  refine ⟨((h sAcc (lf 6 24 0 0x02 0 0) ⟨0, 0⟩ [] [⟨0, 31⟩] ?_).1 (.laneLdLLong (lf 6 24 0 0x02 0 0), true, false, true) (by simp) ?_).1 ?_ ?_,
    ((h sAcc (lf 0 26 4 0x02 0 0) ⟨0, 0⟩ [] [⟨0, 31⟩] ?_).1 (.laneStLLong (lf 0 26 4 0x02 0 0), true, true, false) (by simp) ?_).2 ?_ ?_ ?_,
    (h sAcc (lf 6 28 0 0x02 0 0) ⟨0, 0⟩ [] [⟨0, 31⟩] ?_).2 (.laneLdG (lf 6 28 0 0x02 0 0), true) (by simp) ?_ ?_ ?_⟩ <;> decide +kernel

/-- The instance has tile 0, which it writes, and accumulator 0; v40: rows, v41: columns. -/
def tileJob : Job := { placeJob with kind := .routine 0x80 (2 ^ 63 + 2 ^ 64 * (0xC0C07020 : Nat)), ops := [.tile 0, .acc 0, .none, .none], tcrs := [(0, 0, tile0)] }
def sElem : State := (withStrand fun st =>
  let r (l : Lane) : Lane := { l with v := l.v ++ [(40, 7), (41, 7), (42, 8)] }
  (st.modLane 0 r).modLane 31 r).modCore 0 fun c => { c with jobs := [tileJob], ctxs := [(0, { Ctx.init with accMap := [0], accs := [(0, 1)], tiles := [(0, tile0)] })] }

theorem witness_LaneTileElements : LaneTileElements →
    runs (.ldt (lf 6 40 41 0x05 0 0)) sElem ∧ runs (.stt (lf 6 40 41 0x01 0 0)) sElem ∧
    exec (.ldt (lf 6 42 41 0x01 0 0)) sElem = .next (laneTrapped sElem ⟨0, 0⟩ .tileState 0 0) := by
  intro h
  refine ⟨runs_and (((h sElem (lf 6 40 41 0x05 0 0) _ _ 0 ?_ ?_ ?_ rfl rfl ?_ ?_ ?_).1 _ ?_ rfl ?_).1 ?_ ?_),
    runs_and (((h sElem (lf 6 40 41 0x01 0 0) _ _ 0 ?_ ?_ ?_ rfl rfl ?_ ?_ ?_).1 _ ?_ rfl ?_).2 ?_ ?_ ?_),
    (h sElem (lf 6 42 41 0x01 0 0) _ _ 0 ?_ ?_ ?_ rfl rfl ?_ ?_ ?_).2 8 8 (.ldt (lf 6 42 41 0x01 0 0), [0, 1, 2, 3, 4, 5, 8, 9], true) (by simp) ?_ (.inl rfl) ?_
      ⟨0, 0⟩ [] [⟨0, 31⟩] ?_ (by simp) ?_⟩ <;> decide +kernel

/-- Lane 31 alone has its turn. -/
def sAlone : State := { sAcc with turn := ⟨0, 0, 0, [⟨0, 31⟩]⟩ }
theorem found_of {α : Type} {o : Option α} {P : α → Bool} (h : (match o with | some x => P x | none => false) = true) : ∃ x, o = some x ∧ P x = true := by
  split at h
  · exact ⟨_, rfl, h⟩
  · cases h

theorem witness_LaneAtomics : LaneAtomics →
    runs (.atom (lf 6 32 4 0x06 0 0)) sAcc ∧ runs (.atomCas (lf 6 20 4 0x02 0 (ec 256 5))) sAcc ∧ runs (.red (lf 0 20 4 0x06 0 0x8000)) sAcc ∧
    (∃ t, exec (.atom (lf 6 32 4 0x06 0 0)) sAlone = .next t ∧ t.mem.read 0x247FFC 4 = 5) ∧
    (∃ t, exec (.atom (lf 6 20 4 0x06 0 0x8000)) sAlone = .next t ∧ (t.core 0).landRead 0x7FFFFC 4 = 5) := by
  intro h
  have q := fun sl => reds_none (s := sAcc) (by decide +kernel) sl
  have q1 := fun sl => reds_none (s := sAlone) (by decide +kernel) sl
  obtain ⟨a, ha⟩ := some_of (o := mappedAll sAcc (gangAgent sAcc) .atomic ((active sAcc false 7).map (fun r =>
    ((((lane sAcc r).getW true 32 : Int) + (BitVec.ofNat 15 0).toInt) % (2 ^ 64 : Nat)).toNat))) (by decide +kernel)
  obtain ⟨b, hb, hp⟩ := found_of (P := fun x : List Nat × State => x.1 == [0x247FFC] && (!x.2.lineBad 0x247FFC && ((List.range 4).all (fun i =>
      !x.2.writeDropped (0x247FFC + i)) && (x.2.arriveRange 0 (.strand 0 0, 31) 0x247FFC 4).mem.read 0x247FFC 4 == 0)))
    (o := mappedAll sAlone (gangAgent sAlone) .atomic ((active sAlone false 7).map (fun r =>
    ((((lane sAlone r).getW true 32 : Int) + (BitVec.ofNat 15 0).toInt) % (2 ^ 64 : Nat)).toNat))) (by decide +kernel)
  simp only [Bool.and_eq_true, beq_iff_eq, List.all_eq_true, List.mem_range, Bool.not_eq_true'] at hp
  obtain ⟨p1, p2, p3, p4⟩ := hp
  have np : ∀ x, sAlone.xlate (gangAgent sAlone) .atomic (BitVec.ofNat 64 0x7FFC) = .ok x → x.poisoned = false := by
    intro x hx
    have e : (match sAlone.xlate (gangAgent sAlone) .atomic (BitVec.ofNat 64 0x7FFC) with | .ok x => x.poisoned | .error _ => false) = false := by decide +kernel
    rw [hx] at e; exact e
  obtain ⟨t, e, -, -, -, g⟩ := h sAlone b.2 (lf 6 32 4 0x06 0 0) b.1 q1 (.atom (lf 6 32 4 0x06 0 0), 0) (by simp) false _ _ (by decide +kernel) rfl rfl
    (by decide +kernel) ⟨by decide +kernel, hb⟩
  obtain ⟨u, e2, -, -, -, g2⟩ := h sAlone sAlone (lf 6 20 4 0x06 0 0x8000) [] q1 (.atom (lf 6 20 4 0x06 0 0x8000), 0) (by simp) true _ _ (by decide +kernel) rfl rfl
    (by decide +kernel) ⟨by decide +kernel, rfl, by decide +kernel⟩
  refine ⟨runs_and (h sAcc a.2 (lf 6 32 4 0x06 0 0) a.1 q (.atom (lf 6 32 4 0x06 0 0), 0) (by simp) false _ _ ?_ rfl rfl ?_ ⟨?_, ?_⟩),
    runs_and (h sAcc sAcc (lf 6 20 4 0x02 0 (ec 256 5)) [] q (.atomCas (lf 6 20 4 0x02 0 (ec 256 5)), 1) (by simp) true _ _ ?_ rfl rfl ?_ ⟨?_, rfl, ?_⟩),
    runs_and (h sAcc sAcc (lf 0 20 4 0x06 0 0x8000) [] q (.red (lf 0 20 4 0x06 0 0x8000), 2) (by simp) true _ _ ?_ rfl rfl ?_ ⟨?_, rfl, ?_⟩),
    ⟨t, e, (((g (by decide) ⟨0, 31⟩ (by decide +kernel)).2 rfl 0x247FFC 0 p1 p2 p3 np p4.symm).2).trans (by decide +kernel)⟩,
    ⟨u, e2, ((g2 (by decide) ⟨0, 31⟩ (by decide +kernel)).1 rfl 0 0x7FFFFC 0 (by decide +kernel) (by decide +kernel)).2.trans (by decide +kernel)⟩⟩
  case refine_4 => exact ha
  all_goals decide +kernel
/-! ### Witnesses: control, barriers, exchanges, ordering, events and queues of lanes -/

/-- No operand in use. -/
def nl : LLong := lf 0 0 0 0 0 0

theorem witness_LaneControlFlow : LaneControlFlow →
    runs (.exit (ls 0 0 0)) sLane ∧ runs (.yieldLong nl) sLane ∧ runs (.bra (lf 0 0 0 0 0 0x8000)) sLane ∧ runs (.brx (lf 0 10 0 0 0 0x7FFF)) sLane ∧
    runs (.brx (lu 0 0 31 0 0 0)) sLane ∧ runs (.laneCall (lf 126 10 0 0 1 0)) sLane ∧ runs (.laneRet (lf 0 10 0 0 0 0)) sLane ∧
    runs (.join (lu 7 0 31 0 3 0xFFFF)) sLane := by
  intro h
  refine ⟨runs_and ((h sLane).1 (.exit, .exitLong, 0) (List.Mem.head _) (.exit (ls 0 0 0)) false 7 4 (.inl ⟨ls 0 0 0, rfl, rfl, rfl, rfl, rfl, rfl, rfl⟩) ?_ ?_),
    runs_and ((h sLane).1 (.yield, .yieldLong, 2) (by simp) (.yieldLong nl) false 7 8 (.inr ⟨nl, rfl, ?_, rfl, rfl, rfl, rfl⟩) ?_ ?_),
    runs_and ((h sLane).2.1 (lf 0 0 0 0 0 0x8000) ?_ ?_), runs_and ((h sLane).2.2.1 (lf 0 10 0 0 0 0x7FFF) ?_ ?_ ?_ ?_ ?_),
    runs_and ((h sLane).2.2.1 (lu 0 0 31 0 0 0) ?_ ?_ ?_ ?_ ?_), runs_and ((h sLane).2.2.2.1 (lf 126 10 0 0 1 0) ?_ ?_ ?_ ?_ ?_ ?_),
    runs_and ((h sLane).2.2.2.2.1 (lf 0 10 0 0 0 0) ?_ ?_ ?_ ?_ ?_ ?_ ?_), runs_and ((h sLane).2.2.2.2.2 (lu 7 0 31 0 3 0xFFFF) ?_ ?_ ?_ ?_ ?_ ?_ ?_ ?_ ?_)⟩ <;>
    decide +kernel

/-- Lane 31 alone has its turn. -/
def sHalf : State := { sLane with turn := ⟨0, 0, 0, [⟨0, 31⟩]⟩ }
/-- A barrier operation: number and count. -/
def bf (n k : Nat) : LLong := lf 0 0 0 0 0 (BitVec.ofNat 16 (n * 2 ^ 12 + k))

theorem witness_LaneBarriers : LaneBarriers →
    runs (.gbar nl) sLane ∧ runs (.gbar nl) sHalf ∧ runs (.barv (bf 15 32)) sLane ∧ runs (.barw (bf 1 2)) sLane ∧
    exec (.barw (bf 1 33)) sLane = .next (laneTrapped sLane ⟨0, 0⟩ .illegalOp 0 0) := by
  intro h
  refine ⟨runs_and (((h sLane nl ?_ ?_ ?_ ?_).1 ?_ ?_ ?_).1 ?_ ?_),
    runs_and (((h sHalf nl ?_ ?_ ?_ ?_).1 ?_ ?_ ?_).2 ⟨0, laneStrand, 0, { Lane.init with p := 1, v := [(4, 3), (5, 0x2000), (10, 0x7F00)] }, ?_, ?_, ?_, ?_, ?_, ?_, ?_⟩),
    runs_and ((((h sLane (bf 15 32) ?_ ?_ ?_ ?_).2 15 32 ?_ ?_ ?_ ?_ ?_).1 ?_ ?_).1 ?_).1,
    runs_and ((((h sLane (bf 1 2) ?_ ?_ ?_ ?_).2 1 2 ?_ ?_ ?_ ?_ ?_).1 ?_ ?_).2 ?_).2,
    ((h sLane (bf 1 33) ?_ ?_ ?_ ?_).2 1 33 ?_ ?_ ?_ ?_ ?_).2 ?_ _ (by simp)⟩ <;> decide +kernel

theorem witness_LaneExchangeResults : LaneExchangeResults →
    runs (.vote (lf 6 7 0 0 6 0)) sLane ∧ runs (.vote (lf 0 0 0 0 3 3)) sLane ∧ runs (.shfl (lf 6 4 0 0x02 10 (5 * 2 ^ 12 + 2 ^ 11 + 31))) sLane ∧
    runs (.shfl (lf 6 4 5 0x02 3 0)) sLane ∧ runs (.matchLanes (lf 6 4 0 0x02 1 0)) sLane ∧ runs (.matchLanes (lf 6 4 0 0x02 3 0)) sLane := by
  intro h
  refine ⟨runs_gives (((h sLane (lf 6 7 0 0 6 0) ?_).1 ?_ ?_ ?_ ?_ ?_ _ rfl).1 ?_ ?_ ?_) ?_, runs_givesP (((h sLane (lf 0 0 0 0 3 3) ?_).1 ?_ ?_ ?_ ?_ ?_ _ rfl).2 ?_ ?_ ?_) ?_,
    runs_and ((h sLane (lf 6 4 0 0x02 10 (5 * 2 ^ 12 + 2 ^ 11 + 31)) ?_).2.1 ?_ ?_ ?_ ?_ ?_ ?_ ?_ ?_),
    runs_and ((h sLane (lf 6 4 5 0x02 3 0) ?_).2.1 ?_ ?_ ?_ ?_ ?_ ?_ ?_ ?_), runs_gives (((h sLane (lf 6 4 0 0x02 1 0) ?_).2.2 ?_ ?_ ?_ ?_ ?_ _ rfl).1 ?_) ?_,
    runs_givesP (((h sLane (lf 6 4 0 0x02 3 0) ?_).2.2 ?_ ?_ ?_ ?_ ?_ _ rfl).2 ?_ ?_) ?_⟩ <;> decide +kernel

/-- A request of the strand to a peer is outstanding. -/
def somePacket : Packet := ⟨2, 0, 0, 1, 0, 0, 0, 0, 0, 0, 0, 0, 0, 2, []⟩
def reqOf (want : Nat) (p : Packet) : Request := ⟨5, 0, 0, want, 1, 0, .strand 0 0, 0, none, 0, 0, 0, 0, 0, 0, p, 0, none⟩
def sAsked : State := sLane.modCore 0 fun c => { c with requests := [reqOf 3 somePacket] }

/-- Lane 0 has an unserved pop of queue 15; it has written host memory, and the byte has not arrived. -/
def sPops : State := sLane.modCore 0 fun c => { c with queues := [(15, { Queue.init with pops := [[⟨0, 0, 0, 6, false, false, 0⟩]] })] }
def sFar : State := sLane.modCore 0 fun c => { c with writes := [⟨0x200000000000, 1, false, .strand 0 0, 0⟩] }

theorem witness_LaneOrdering : LaneOrdering →
    runs (.laneFence (lf 0 0 0 0 0 5)) sLane ∧ exec (.laneFence (lf 0 0 0 0 0 5)) sAsked = .next sAsked ∧ exec (.laneFence (lf 0 0 0 0 0 0)) sPops = .next sPops ∧
    exec (.laneFence (lf 0 0 0 0 0 5)) sFar = .next sFar ∧ runs (.lanePhase (lf 0 0 0 0 0 3)) sLane ∧
    runs (.laneFbar nl) sLane := by
  intro h
  have hw : (sLane.core sLane.turn.core).writes = [] := by decide +kernel
  have hf : sFar.phys 0x200000000000 = .host 0 := by decide +kernel
  refine ⟨runs_and ((h sLane (lf 0 0 0 0 0 5) ?_ ?_ ?_).1 ?_ ?_ (fun _ => ⟨?_, fun w m => by rw [hw] at m; cases m⟩)),
    (h sAsked (lf 0 0 0 0 0 5) ?_ ?_ ?_).2.1 ?_ (.inr ⟨rfl, .inl ⟨reqOf 3 somePacket, ?_, ?_, ⟨0, 0⟩, ?_, ?_⟩⟩),
    (h sPops (lf 0 0 0 0 0 0) ?_ ?_ ?_).2.1 ?_ (.inl ⟨⟨0, 0⟩, ?_, ?_⟩),
    (h sFar (lf 0 0 0 0 0 5) ?_ ?_ ?_).2.1 ?_ (.inr ⟨rfl, .inr ⟨⟨0x200000000000, 1, false, .strand 0 0, 0⟩, ?_, ?_, .inr ⟨0, hf⟩, ⟨0, 0⟩, ?_, ?_⟩⟩),
    runs_and ((h sLane (lf 0 0 0 0 0 3) ?_ ?_ ?_).2.2.1 ?_ ?_ ?_), runs_and ((h sLane nl ?_ ?_ ?_).2.2.2 ?_ ?_)⟩ <;> decide +kernel

/-- Slot 3 is armed on SOFT and pending, slot 15 armed alone; s4 describes counter 0xFF8, s5 nothing. -/
def evOf (inh : Bool) : EvState :=
  { EvState.init with slots := [(3, ⟨true, 8, 0, true, 0, 0x40, true⟩), (15, ⟨true, 8, 0, false, 0, 0x60, false⟩)], pend := 8, inh := inh, pc := 0x80 }
def sEvL (inh : Bool) : State := withStrand fun st => { st with ev := evOf inh, s := [(4, 0xFF802), (5, 9)] }
def sEvHalf : State := { sEvL false with turn := ⟨0, 0, 0, [⟨0, 31⟩]⟩ }

theorem witness_LaneEvents : LaneEvents →
    runs (.laneEvarm (lu 15 4 31 0 0 0x8000)) (sEvL false) ∧
    exec (.laneEvarm (lu 0 5 31 0 0 0)) (sEvL false) = .next (laneTrapped (sEvL false) ⟨0, 0⟩ .illegalOp 0 0) ∧ runs (.laneEvdis (lf 15 0 0 0 0 0)) (sEvL false) ∧
    exec (.wany nl) sEvHalf = .next (laneTrapped sEvHalf ⟨0, 31⟩ .illegalConvergence 0 0) ∧
    exec (.wany nl) (sEvL false) = .next (laneTrapped (sEvL false) ⟨0, 0⟩ .illegalOp 0 0) ∧
    runs (.wany (lf 0 0 0 0 0 0xFFFF)) (sEvL false) ∧ runs (.wany (lf 0 0 0 0 0 0x8000)) (sEvL false) ∧
    exec (.laneEvret nl) (sEvL false) = .next (laneTrapped (sEvL false) ⟨0, 0⟩ .illegalOp 0 0) ∧ runs (.laneEvret nl) (sEvL true) ∧
    exec (.fret nl) (sEvL true) = .next (laneTrapped (sEvL true) ⟨0, 0⟩ .illegalOp 0 0) ∧ runs (.fret nl) (sEvL false) := by
  intro h
  refine ⟨runs_and (((h (sEvL false) (lu 15 4 31 0 0 0x8000) _ ?_ rfl ?_ ?_).1 ?_ ?_ ?_ ?_ ?_ ?_).1 ?_),
    ((h (sEvL false) (lu 0 5 31 0 0 0) _ ?_ rfl ?_ ?_).1 ?_ ?_ ?_ ?_ ?_ ?_).2 ?_, runs_and ((h (sEvL false) (lf 15 0 0 0 0 0) _ ?_ rfl ?_ ?_).2.1 ?_ ?_ ?_ ?_ ?_ ?_ ?_),
    (h sEvHalf nl _ ?_ rfl ?_ ?_).2.2.1 ?_ ?_ _ (.inl rfl), ((h (sEvL false) nl _ ?_ rfl ?_ ?_).2.2.2.1 ?_ ?_).1 ?_,
    runs_and ((((h (sEvL false) (lf 0 0 0 0 0 0xFFFF) _ ?_ rfl ?_ ?_).2.2.2.1 ?_ ?_).2 _ rfl ?_ ?_).1 3 ?_ ?_ ?_),
    runs_and ((((h (sEvL false) (lf 0 0 0 0 0 0x8000) _ ?_ rfl ?_ ?_).2.2.2.1 ?_ ?_).2 _ rfl ?_ ?_).2 ?_),
    ((h (sEvL false) nl _ ?_ rfl ?_ ?_).2.2.2.2 ?_ ?_ ?_).1 ?_, runs_and (((h (sEvL true) nl _ ?_ rfl ?_ ?_).2.2.2.2 ?_ ?_ ?_).2.1 ?_).1,
    (((h (sEvL true) nl _ ?_ rfl ?_ ?_).2.2.2.2 ?_ ?_ ?_).2.1 ?_).2, runs_and (((h (sEvL false) nl _ ?_ rfl ?_ ?_).2.2.2.2 ?_ ?_ ?_).2.2 ?_)⟩ <;> decide +kernel

/-- The pass stands first in the list of queue 15, and has been granted. -/
def sGranted : State :=
  let granted (l : Lane) : Lane := { l with wait := .qpush 15 true }
  (sLane.modStrand 0 0 0 (fun st => (st.modLane 0 granted).modLane 31 granted)).modCore 0 fun c => { c with
    rings := [(0, ⟨0x1000, 16, 4, 0, some 15, 0⟩)], queues := [(15, { Queue.init with
      ring := some 0, free := 2, pushes := [[⟨0, 0, 0, 1, false, false, 0x40⟩, ⟨0, 0, 31, 1, false, false, 0x40⟩]] })] }
/-- Queue 15 on ring 0 of slots of 16 bytes, with entries and free slots. -/
def sQueue (n k : Nat) : State := sLane.modCore 0 fun c => { c with
  rings := [(0, ⟨0x1000, 16, 4, 0, some 15, 0⟩)], queues := [(15, { Queue.init with ring := some 0, entries := n, free := k })] }
theorem queue_bound (n k : Nat) : bound (sQueue n k) 15 4 := ⟨0, rfl, by show 4 ≤ 16; decide⟩

theorem witness_LaneQueues : LaneQueues →
    runs (.qpush (lf 0 0 4 0x02 0 15)) (sQueue 0 2) ∧ runs (.qpush (lf 0 0 4 0x02 0 15)) sGranted ∧ runs (.qpush (lf 0 0 4 0x02 0 15)) (sQueue 0 1) ∧ runs (.qpop (lf 6 0 0 0x02 0 15)) (sQueue 0 1) ∧
    runs (.qpush (lf 0 0 4 0x02 0 (6 * 32 + 16 + 15))) (sQueue 0 1) ∧ runs (.qpop (lf 6 0 0 0x02 0 (16 + 15))) (sQueue 1 1) ∧
    runs (.qlen (lf 6 0 0 0x02 0 31)) (sQueue 0 2) ∧ exec (.qlen (lf 6 0 0 0x02 0 0)) sLane = .next (laneTrapped sLane ⟨0, 0⟩ .illegalOp 0 0) ∧
    exec (.qpush (lf 0 0 4 0x02 0 0)) sLane = .next (laneTrapped sLane ⟨0, 0⟩ .illegalOp 0 0) ∧
    exec (.qpop (lf 6 0 0 0x02 0 16)) sLane = .next (laneTrapped sLane ⟨0, 0⟩ .illegalOp 0 0) := by
  intro h
  refine ⟨runs_and ((((h (sQueue 0 2) (lf 0 0 4 0x02 0 15) 15 4 ?_ ?_ ?_).1 ?_ (queue_bound 0 2) ?_ ?_).1 ?_ ?_ ?_).1 ?_ ?_ ?_),
    runs_and ((((h sGranted (lf 0 0 4 0x02 0 15) 15 4 ?_ ?_ ?_).1 ?_ ⟨0, by decide +kernel, by decide +kernel⟩ ?_ ?_).1 ?_ ?_ ?_).2.1 ?_ ?_),
    runs_and ((((h (sQueue 0 1) (lf 0 0 4 0x02 0 15) 15 4 ?_ ?_ ?_).1 ?_ (queue_bound 0 1) ?_ ?_).1 ?_ ?_ ?_).2.2 ?_ (.inr ?_)),
    runs_and (((h (sQueue 0 1) (lf 6 0 0 0x02 0 15) 15 4 ?_ ?_ ?_).1 ?_ (queue_bound 0 1) ?_ ?_).2 ?_ ?_ ?_),
    runs_and (((h (sQueue 0 1) (lf 0 0 4 0x02 0 (6 * 32 + 16 + 15)) 15 4 ?_ ?_ ?_).2.1 ?_ (queue_bound 0 1) ?_ ?_).1 ?_ ?_ ?_ ?_),
    runs_and (((h (sQueue 1 1) (lf 6 0 0 0x02 0 (16 + 15)) 15 4 ?_ ?_ ?_).2.1 ?_ (queue_bound 1 1) ?_ ?_).2 ?_ ?_ ?_ ?_ ?_),
    runs_gives (((h (sQueue 0 2) (lf 6 0 0 0x02 0 31) 15 4 ?_ ?_ ?_).2.2.1 ?_ ?_ ?_ ?_ ?_ ?_ ?_).1 ⟨0, rfl, Nat.zero_le _⟩) ?_,
    ((h sLane (lf 6 0 0 0x02 0 0) 0 4 ?_ ?_ ?_).2.2.1 ?_ ?_ ?_ ?_ ?_ ?_ ?_).2 ?_,
    ((h sLane (lf 0 0 4 0x02 0 0) 0 4 ?_ ?_ ?_).2.2.2 ?_ ?_ ?_).1 ?_ ?_ ?_, ((h sLane (lf 6 0 0 0x02 0 16) 0 4 ?_ ?_ ?_).2.2.2 ?_ ?_ ?_).2 ?_ ?_ ?_⟩ <;> decide +kernel

/-! ### Witnesses: mailboxes, peers, figures, breaks and control registers of lanes -/

/-- s4: core 1 of peer 0; s5: core 287 of peer 0xFFF; s6: a reduction slot's descriptor on peer 0; s8 to s11, s12 to s15: a transfer
of 1,040 bytes to core 287 of peer 0, and an illegal one; v20: a remote address; v22: one not aligned; v24 to v26: the peers 0, 1 and
4,096; v28: a handle on peer 0; v30: a queue of core 3 of peer 0; v32: a record. -/
def sPeer : State := withStrand fun st =>
  let r (l : Lane) : Lane := { l with v := l.v ++ [(20, 0x8000), (22, 0x8001), (25, 1), (26, 4096), (30, 0x30000), (31, 0xFFFF0000), (32, 0x7FFFC0)] }
  { (st.modLane 0 r).modLane 31 r with
    s := [(4, 0x10000), (5, 0x11F0FFF), (6, 0x101000000), (8, 0x1000), (9, 0x7FFBF0 * 2 ^ 32 + 287 * 2 ^ 12), (10, 0xFF8 * 2 ^ 32 + 1040), (11, 0x1002000000000)] }

theorem witness_LaneMailboxes : LaneMailboxes →
    runs (.mbsend (lf 0 0 4 0x0A 0 15)) sPeer ∧ runs (.mbsend (lf 0 0 4 0x0B 1 63)) sPeer ∧ runs (.mbsend (lu 0 4 31 0x0A 2 15)) sPeer ∧
    exec (.mbsend (lf 0 5 4 0x0A 2 0)) sPeer = .next (laneTrapped sPeer ⟨0, 0⟩ .fabricPeer 0 0xFFF) := by
  intro h
  refine ⟨runs_and ((h sPeer (lf 0 0 4 0x0A 0 15) ?_ ?_ ?_ ?_ ?_ ?_).1 0 rfl (.inl ⟨rfl, rfl⟩)),
    runs_and ((h sPeer (lf 0 0 4 0x0B 1 63) ?_ ?_ ?_ ?_ ?_ ?_).1 _ rfl (.inr ⟨rfl, rfl⟩)),
    runs_and (((h sPeer (lu 0 4 31 0x0A 2 15) ?_ ?_ ?_ ?_ ?_ ?_).2 _ rfl ?_ rfl ?_).1 ?_),
    ((h sPeer (lf 0 5 4 0x0A 2 0) ?_ ?_ ?_ ?_ ?_ ?_).2 _ rfl ?_ rfl ?_).2 ⟨0, 0⟩ ⟨[], [⟨0, 31⟩], ?_, ?_, ?_⟩⟩ <;> decide +kernel

theorem witness_LaneRemoteAccesses : LaneRemoteAccesses →
    runs (.rget (lf 6 20 24 0x02 0 0x7FFC)) sPeer ∧ runs (.ratom (lu 6 20 31 0x06 0 0x8000)) sPeer ∧
    exec (.rget (lf 6 20 25 0x02 0 0)) sPeer = .next (laneTrapped sPeer ⟨0, 0⟩ .fabricPeer 0 1) ∧
    exec (.ratom (lf 6 22 24 0x06 0 0)) sPeer = .next (laneTrapped sPeer ⟨0, 0⟩ .align 0x8001 (3 * 2 ^ 11 + 2)) ∧
    exec (.rget (lf 6 20 26 0x02 0 0)) sPeer = .next (laneTrapped sPeer ⟨0, 0⟩ .illegalOp 0 0) ∧
    runs (.bxfer (lf 0 8 0 0 1 0)) sPeer ∧ exec (.bxfer (lf 0 12 0 0 1 0)) sPeer = .next (laneTrapped sPeer ⟨0, 0⟩ .illegalOp 0 0) := by
  intro h
  refine ⟨runs_and (((((h sPeer (lf 6 20 24 0x02 0 0x7FFC) ?_).1 false _ rfl ?_ ?_ ?_).1 ?_).1 ?_).1 ?_),
    runs_and (((((h sPeer (lu 6 20 31 0x06 0 0x8000) ?_).1 true _ rfl ?_ ?_ ?_).1 ?_).1 ?_).1 ?_),
    ((((h sPeer (lf 6 20 25 0x02 0 0) ?_).1 false _ rfl ?_ ?_ ?_).1 ?_).1 ?_).2 ⟨0, 0⟩ ⟨[], [⟨0, 31⟩], ?_, ?_, ?_⟩,
    (((h sPeer (lf 6 22 24 0x06 0 0) ?_).1 true _ rfl ?_ ?_ ?_).1 ?_).2 ⟨0, 0⟩ ⟨[], [⟨0, 31⟩], ?_, ?_, ?_⟩,
    ((h sPeer (lf 6 20 26 0x02 0 0) ?_).1 false _ rfl ?_ ?_ ?_).2 ⟨0, 0⟩ ⟨[], [⟨0, 31⟩], ?_, ?_, ?_⟩,
    runs_and (((h sPeer (lf 0 8 0 0 1 0) ?_).2 _ _ ?_ rfl rfl ?_ ?_ ?_ ?_ ?_ ?_ ?_ ?_ ?_).1 ?_ ?_ ?_ ?_ ?_ ?_ ?_ ?_),
    ((h sPeer (lf 0 12 0 0 1 0) ?_).2 _ _ ?_ rfl rfl ?_ ?_ ?_ ?_ ?_ ?_ ?_ ?_ ?_).2 ?_⟩ <;> decide +kernel

def renqReq : Request := ⟨5, 0, 0, 14, 1, 0, .strand 0 0, 0, none, 0, 0, 0, 0, 0, 0, { somePacket with ptype := 13, addr := 0xFFFF000000030000 }, 0, none⟩
def sRenq : State := sPeer.modCore 0 fun c => { c with requests := [renqReq] }

theorem witness_LaneSlotsAndRemoteQueues : LaneSlotsAndRemoteQueues →
    runs (.rslotAlloc (lu 20 0 6 0 0 0)) sPeer ∧ exec (.rslotAlloc (lu 20 0 7 0 0 0)) sPeer = .next (laneTrapped sPeer ⟨0, 0⟩ .illegalOp 0 0) ∧
    runs (.rslotPut (lf 0 28 4 0x0F 1 0)) sPeer ∧ runs (.rslotFree (lf 0 28 0 0 3 0)) sPeer ∧ runs (.rslotGet (lf 6 28 0 0x0F 2 0)) sPeer ∧
    runs (.rslotGet (lf 6 28 0 0x02 6 0)) sPeer ∧ runs (.rslotGet (lf 6 28 0 0x02 10 0)) sPeer ∧
    exec (.rslotGet (lf 6 22 0 0x0F 2 0)) sPeer = .next (laneTrapped sPeer ⟨0, 0⟩ .fabricPeer 0 1) ∧ runs (.renq (lf 6 30 32 0 0 0)) sPeer ∧
    exec (.renq (lf 6 30 32 0 0 0)) sRenq = .next sRenq := by
  intro h
  refine ⟨runs_and (((h sPeer (lu 20 0 6 0 0 0) ?_).1 _ rfl ?_ ?_ ?_ ?_ ?_ ?_ ?_).1 ?_),
    ((h sPeer (lu 20 0 7 0 0 0) ?_).1 _ rfl ?_ ?_ ?_ ?_ ?_ ?_ ?_).2 ⟨0, 0⟩ ⟨[], [⟨0, 31⟩], ?_, ?_, ?_⟩,
    runs_and (((h sPeer (lf 0 28 4 0x0F 1 0) ?_).2.1 ?_ ?_ ?_ ?_).1 ?_ ?_ ?_ ?_ ?_), runs_and (((h sPeer (lf 0 28 0 0 3 0) ?_).2.1 ?_ ?_ ?_ ?_).2 ?_ ?_ ?_ ?_ ?_ ?_),
    runs_and ((((h sPeer (lf 6 28 0 0x0F 2 0) ?_).2.2.1 ?_ ?_ ?_ ?_ ?_ ?_ ?_).2 ?_).1 ?_), runs_and ((((h sPeer (lf 6 28 0 0x02 6 0) ?_).2.2.1 ?_ ?_ ?_ ?_ ?_ ?_ ?_).2 ?_).1 ?_),
    runs_gives ((((h sPeer (lf 6 28 0 0x02 10 0) ?_).2.2.1 ?_ ?_ ?_ ?_ ?_ ?_ ?_).2 ?_).2 ?_) ?_,
    ((h sPeer (lf 6 22 0 0x0F 2 0) ?_).2.2.1 ?_ ?_ ?_ ?_ ?_ ?_ ?_).1 ⟨0, 0⟩ ⟨[], [⟨0, 31⟩], ?_, ?_, ?_⟩,
    runs_and (((h sPeer (lf 6 30 32 0 0 0) ?_).2.2.2 ?_ ?_ ?_ ?_ ?_ ?_ ?_).1 ?_ ?_),
    ((h sRenq (lf 6 30 32 0 0 0) ?_).2.2.2 ?_ ?_ ?_ ?_ ?_ ?_ ?_).2 ⟨renqReq, ?_, ⟨0, 0⟩, ?_, ?_⟩⟩ <;> decide +kernel

/-- s4: tzero of the routine's tile; s5: of its accumulator; s6: with a modifier; s7: figure 0x21; s8: too large; s9: an undefined
selector; the entry lets tile 0 be written, or only read. -/
def sFig (role : Nat) : State := (withStrand fun st => { st with
    s := [(4, 0x400007), (5, 0x500007), (6, 0x400107), (7, 0x21), (8, 0x100000000), (9, 0x200007)] }).modCore 0 fun c => { c with
  jobs := [{ tileJob with kind := .routine 0x80 (2 ^ 63 + 2 ^ 64 * (0xC0C07000 + role)) }],
  ctxs := [(0, { Ctx.init with accMap := [0], accs := [(0, 1)], tiles := [(0, tile0)] })] }

theorem witness_LaneFigureAndBreaks : LaneFigureAndBreaks →
    exec (.laneFig (lu 6 0 8 0 0 0)) (sFig 0x20) = .next (laneTrapped (sFig 0x20) ⟨0, 0⟩ .illegalOp 0 0) ∧
    exec (.laneFig (lu 6 0 9 0 0 0)) (sFig 0x20) = .next (laneTrapped (sFig 0x20) ⟨0, 0⟩ .illegalOp 0 0) ∧
    exec (.laneFig (lu 6 0 7 0 0 0)) (sFig 0x20) = .next (laneTrapped (sFig 0x20) ⟨0, 0⟩ .nesting 0 0) ∧
    exec (.laneFig (lu 6 0 4 0 0 0)) (sFig 0x00) = .next (laneTrapped (sFig 0x00) ⟨0, 0⟩ .tileState 0 0) ∧
    exec (.laneFig (lu 6 0 6 0 0 0)) (sFig 0x20) = .next (laneTrapped (sFig 0x20) ⟨0, 0⟩ .illegalOp 0 0) ∧
    runs (.laneFig (lu 6 0 4 0 0 0)) (sFig 0x20) ∧ exec (.laneFig (lu 6 0 5 0 0 0)) (sFig 0x20) = .next (laneTrapped (sFig 0x20) ⟨0, 0⟩ .illegalOp 0 0) ∧
    runs (.laneTrap (lf 0 0 0 0 0 0xFFFF)) sPeer ∧ runs (.laneBrk (lf 0 0 0 0 0 0)) sPeer ∧
    exec (.retiredLaneOpcode 0x7D 0) sPeer = .next (laneTrapped sPeer ⟨0, 0⟩ .retiredOp 0 0) ∧
    gangStopped sPeer (laneTrapped sPeer ⟨0, 0⟩ .hang 0 0x1234567890) .hang 0x1234567890 := by
  intro h
  have m : mayTrap sPeer := ⟨⟨placeJob, rfl, rfl⟩, by decide +kernel⟩
  refine ⟨((h (sFig 0x20) (lu 6 0 8 0 0 0)).1 ?_ ?_ ?_ ?_ ?_ ?_ ?_ ?_ ?_).1 ?_, (((h (sFig 0x20) (lu 6 0 9 0 0 0)).1 ?_ ?_ ?_ ?_ ?_ ?_ ?_ ?_ ?_).2 ?_).2 0x07 0 rfl |>.2 (.inl ?_),
    (((h (sFig 0x20) (lu 6 0 7 0 0 0)).1 ?_ ?_ ?_ ?_ ?_ ?_ ?_ ?_ ?_).2 ?_).1 ⟨.nesting, 0, 0⟩ rfl,
    (((((h (sFig 0x00) (lu 6 0 4 0 0 0)).1 ?_ ?_ ?_ ?_ ?_ ?_ ?_ ?_ ?_).2 ?_).2 0x07 0 rfl).1 ?_ ?_).1 ⟨0, ?_, ?_, ?_⟩,
    ((((((h (sFig 0x20) (lu 6 0 6 0 0 0)).1 ?_ ?_ ?_ ?_ ?_ ?_ ?_ ?_ ?_).2 ?_).2 0x07 1 rfl).1 ?_ ?_).2 ?_).1 ⟨.illegalOp, 0, 0⟩ ?_,
    runs_two (((((((h (sFig 0x20) (lu 6 0 4 0 0 0)).1 ?_ ?_ ?_ ?_ ?_ ?_ ?_ ?_ ?_).2 ?_).2 0x07 0 rfl).1 ?_ ?_).2 ?_).2 ?_ ?_),
    ((((h (sFig 0x20) (lu 6 0 5 0 0 0)).1 ?_ ?_ ?_ ?_ ?_ ?_ ?_ ?_ ?_).2 ?_).2 0x07 0 rfl).2 (.inr ⟨0, ?_, ?_⟩),
    runs_and ((h sPeer (lf 0 0 0 0 0 0xFFFF)).2.1 _ (List.Mem.head _) ?_ ?_ m ?_ ?_), runs_and ((h sPeer (lf 0 0 0 0 0 0)).2.1 (.laneBrk (lf 0 0 0 0 0 0), 0) (by simp) ?_ ?_ m ?_ ?_),
    (h sPeer nl).2.2.1 _ _ ?_ ?_, ((h sPeer nl).2.2.2 .hang 0 0x1234567890 m ?_).1⟩ <;> decide +kernel

/-- The routine's context runs at user privilege; its guest may use the fabric's registers no less. -/
def sUser : State := sPeer.modCtx 0 0 fun c => { c with priv := 0 }
def sPrivileged : State := sPeer.modCtx 0 0 fun c => { c with priv := 1 }
/-- Fields of crd and cwr: type n64, register n. -/
def cr (n : Nat) : LLong := lf 6 0 0 0x03 0 (BitVec.ofNat 16 n)
def cw (n : Nat) (b : BitVec 7) : LLong := lf 0 0 b 0x03 0 (BitVec.ofNat 16 n)

theorem witness_LaneControlRegisters : LaneControlRegisters →
    runs (.laneCrd (cr 0x210)) sUser ∧ runs (.laneCrd (cr 0x8F)) sUser ∧ runs (.laneCrd (cr 0x021)) sUser ∧ runs (.laneCrd (cr 0x223)) sUser ∧
    exec (.laneCrd (cr 0x200)) sUser = .next (laneTrapped sUser ⟨0, 0⟩ .priv 0 0) ∧
    exec (.laneCrd (cr 0x104)) sUser = .next (laneTrapped sUser ⟨0, 0⟩ .illegalOp 0 0) ∧
    runs (.laneCwr (cw 0x210 4)) sUser ∧ runs (.laneCwr (cw 0x000 4)) sUser ∧ runs (.laneCwr (cw 0x01C 4)) sUser ∧ runs (.laneCwr (cw 0x043 4)) sPrivileged ∧
    runs (.laneCwr (cw 0x08F 4)) sUser ∧ runs (.laneCwr (cw 0x200 20)) sPrivileged ∧
    exec (.laneCwr (cw 0x200 4)) sPrivileged = .next (laneTrapped sPrivileged ⟨0, 0⟩ .illegalOp 0 0) ∧
    exec (.laneCwr (cw 0x040 4)) sUser = .next (laneTrapped sUser ⟨0, 0⟩ .priv 0 0) ∧
    exec (.laneCwr (cw 0x044 4)) sUser = .next (laneTrapped sUser ⟨0, 0⟩ .illegalOp 0 0) := by
  intro h
  refine ⟨runs_gives (((h sUser (cr 0x210) _ rfl ?_ ?_ ?_ ?_ ?_).1 ?_ ?_ ?_).1 ⟨⟨0, 0⟩, ?_⟩) ?_, runs_gives (((h sUser (cr 0x8F) _ rfl ?_ ?_ ?_ ?_ ?_).1 ?_ ?_ ?_).1 ⟨⟨0, 0⟩, ?_⟩) ?_,
    runs_and (((h sUser (cr 0x021) _ rfl ?_ ?_ ?_ ?_ ?_).1 ?_ ?_ ?_).2.1 ?_), runs_and (((h sUser (cr 0x223) _ rfl ?_ ?_ ?_ ?_ ?_).1 ?_ ?_ ?_).2.2.1 ?_ ?_ ?_),
    ((h sUser (cr 0x200) _ rfl ?_ ?_ ?_ ?_ ?_).1 ?_ ?_ ?_).2.2.2.1 ?_ ?_ ?_, ((h sUser (cr 0x104) _ rfl ?_ ?_ ?_ ?_ ?_).1 ?_ ?_ ?_).2.2.2.2 ?_,
    runs_and (((h sUser (cw 0x210 4) _ rfl ?_ ?_ ?_ ?_ ?_).2 _ rfl ?_ ?_ ?_).1 ?_), runs_and (((h sUser (cw 0x000 4) _ rfl ?_ ?_ ?_ ?_ ?_).2 _ rfl ?_ ?_ ?_).2.1 ?_),
    runs_and (((h sUser (cw 0x01C 4) _ rfl ?_ ?_ ?_ ?_ ?_).2 _ rfl ?_ ?_ ?_).2.2.1 ?_),
    runs_and (((h sPrivileged (cw 0x043 4) _ rfl ?_ ?_ ?_ ?_ ?_).2 _ rfl ?_ ?_ ?_).2.2.2.1 3 ?_ ?_ ?_),
    runs_and (((h sUser (cw 0x08F 4) _ rfl ?_ ?_ ?_ ?_ ?_).2 _ rfl ?_ ?_ ?_).2.2.2.2.1 15 ?_ ?_),
    runs_and (((h sPrivileged (cw 0x200 20) _ rfl ?_ ?_ ?_ ?_ ?_).2 _ rfl ?_ ?_ ?_).2.2.2.2.2.1 ?_ ?_ ?_ ?_ ?_),
    ((h sPrivileged (cw 0x200 4) _ rfl ?_ ?_ ?_ ?_ ?_).2 _ rfl ?_ ?_ ?_).2.2.2.2.2.2.1 ?_ ?_ ?_,
    ((h sUser (cw 0x040 4) _ rfl ?_ ?_ ?_ ?_ ?_).2 _ rfl ?_ ?_ ?_).2.2.2.2.2.2.2.1 ?_ ?_, ((h sUser (cw 0x044 4) _ rfl ?_ ?_ ?_ ?_ ?_).2 _ rfl ?_ ?_ ?_).2.2.2.2.2.2.2.2 ?_⟩ <;>
    decide +kernel
/-! ### Witnesses: issue of bundles and passes, arrivals, strands, queues -/

/-- One unit of one subset issues, and what stands at its PC is fetched. -/
theorem pass_of {s0 : State} {k p : Nat}
    (h : (match s0.unitsNow k p with
      | [(b, none)] => (match s0.laneAt k p b.gang (maskClass false ((passOf [b]).map (fun r => r.lane))) b.pc with
        | (.ok (_, m), s1) => (match passTry m k p (passOf [b]) { s1 with turn := ⟨k, 0, p, passOf [b]⟩ } with | .issues _ => true | _ => false)
        | _ => false)
      | _ => false) = true) :
    ∃ b i m s1 t, s0.unitsNow k p = [(b, none)] ∧
      s0.laneAt k p b.gang (maskClass false ((passOf [b]).map (fun r => r.lane))) b.pc = (.ok (i, m), s1) ∧
      passTry m k p (passOf [b]) { s1 with turn := ⟨k, 0, p, passOf [b]⟩ } = .issues t := by
  split at h
  · rename_i b e
    split at h
    · rename_i i m s1 e2
      split at h
      · rename_i t e3
        exact ⟨b, i, m, s1, t, e, e2, e3⟩
      · cases h
    · cases h
  · cases h
/-- The bundle at the PC is fetched, and issues within the cycle's ports; or traps. -/
theorem issues_of {s : State} {k c : Nat} {pc : Word}
    (h : (match s.fetchBundle k c pc with
      | .ok x => (match issueBundle k c x.1 x.2 with | .issued _ needs => (s.core k).portsFor needs | _ => false)
      | .error _ => false) = true) :
    ∃ b s1 t needs, s.fetchBundle k c pc = .ok (b, s1) ∧ issueBundle k c b s1 = .issued t needs ∧ (s.core k).portsFor needs = true := by
  split at h
  · rename_i x e
    split at h
    · rename_i t needs e2
      exact ⟨x.1, x.2, t, needs, e, e2, h⟩
    · cases h
  · cases h
theorem traps_of {s : State} {k c : Nat} {pc : Word}
    (h : (match s.fetchBundle k c pc with
      | .ok x => (match issueBundle k c x.1 x.2 with | .trapped _ => true | _ => false)
      | .error _ => false) = true) :
    ∃ b s1 t, s.fetchBundle k c pc = .ok (b, s1) ∧ issueBundle k c b s1 = .trapped t := by
  split at h
  · rename_i x e
    split at h
    · rename_i t e2
      exact ⟨x.1, x.2, t, e, e2⟩
    · cases h
  · cases h
theorem okP_of {ε α : Type} {e : Except ε α} {P : α → Bool} (h : (match e with | .ok x => P x | .error _ => false) = true) : ∃ x, e = .ok x ∧ P x = true := by
  cases e with
  | ok x => exact ⟨x, rfl, h⟩
  | error _ => cases h
theorem pair_of {α : Type} {x : α × Bool} (h : x.2 = true) : x = (x.1, true) := by cases x; cases h; rfl

/-- iadd.n32-short v3, v4, v5 stands at the strand's PC, two cycles after it became active; a bundle of zeros at a context's,
or at those of two contexts; a bundle whose E holds the retired figure 0x21. -/
def sPass : State := { r0.placeLane 4 0b000001_0_0_111_0000011_0000100_0000101 with cycle := 2 }
def sBundle : State := r0.placeBundle 32 0
def sBundles : State := sBundle.modCtx 0 1 fun _ => { sBundle.ctx 0 0 with pc := 0x80 }
def figBundle : Bundle := { (default : Bundle) with ep := true, e := 0b00100001_11111_000_11_000000_0_11_000000_0_11_000000_0_11_000000_0_000000000000 }
def sRetBundle : State := r0.placeBundle 32 (encodeBundle figBundle).toNat
/-- The Caller, and the partition, have begun their cycle. -/
def calling (s : State) : State := s.modCore 0 fun c => { c with caller := (s.cycle + 1, 0) }
def passing (s : State) : State := s.modCore 0 fun c => { c with passed := (s.cycle + 1, 1) }

theorem witness_IssueOfPassesAndBundles : IssueOfPassesAndBundles →
    runs (.issuePass 0 0) sPass ∧ (∃ z t : State, exec (.issuePass 0 0) sPass = .next z ∧ z.mem = t.mem) ∧
    exec (.issuePass 0 0) (sPass.modCore 0 fun c => { c with passed := (3, 1) }) = .fault .notEnabled ∧
    runs (.bundleIssue 0) sBundle ∧ exec (.bundleIssue 0) (calling sBundle) = .fault .notEnabled ∧
    (∃ z, exec (.bundleIssue 0) sBundle = .next z ∧ ∀ d, d ≠ 0 → ∃ t : State, z.ctx 0 d = t.ctx 0 d) ∧
    (∃ z t : State, exec (.bundleIssue 0) sRetBundle = .next z ∧ z.mem = t.mem) ∧
    exec (.bundleIssue 0) sBundles = .next (((calling sBundles).issueCtx 0 0).1.issueCtx 0 1).1 ∧
    (∃ c0 rest, sBundle.candidates 0 = c0 :: rest ∧ (sBundle.ctx 0 c0).pri ≤ (sBundle.ctx 0 0).pri) := by
  intro h
  obtain ⟨b, i, m, s1, t, e1, e2, e3⟩ := pass_of (s0 := passing sPass) (k := 0) (p := 0) (by decide +kernel)
  obtain ⟨x, s2, t2, n2, f1, f2, f3⟩ := issues_of (s := calling sBundle) (k := 0) (c := 0) (pc := ((calling sBundle).ctx 0 0).pc) (by decide +kernel)
  obtain ⟨y, s3, t3, g1, g2⟩ := traps_of (s := calling sRetBundle) (k := 0) (c := 0) (pc := ((calling sRetBundle).ctx 0 0).pc) (by decide +kernel)
  have hp := ((h sPass (passing sPass) 0).1 0 rfl).1 (by decide +kernel) (by decide +kernel)
  have hb := (h sBundle (calling sBundle) 0).2.2.2.1 rfl (by decide +kernel)
  have ht := (h sRetBundle (calling sRetBundle) 0).2.2.2.1 rfl (by decide +kernel)
  obtain ⟨z, k1, k2, -⟩ := hp.2 b i m s1 t (by decide +kernel) e1 e2 e3
  obtain ⟨z2, l1, -, -, l2⟩ := (hb.1 0 x s2 t2 (by decide +kernel) (by decide +kernel) (by decide +kernel) (by decide +kernel) f1).1 n2 f2 f3
  obtain ⟨z3, m1, m2, -⟩ := (ht.1 0 y s3 t3 (by decide +kernel) (by decide +kernel) (by decide +kernel) (by decide +kernel) g1).2 g2
  exact ⟨hp.1, ⟨z, t, k1, k2⟩, ((h (sPass.modCore 0 fun c => { c with passed := (3, 1) }) (passing (sPass.modCore 0 fun c => { c with passed := (3, 1) })) 0).1 0 rfl).2.2 (by decide +kernel), (h sBundle r0 0).2.1 (by decide +kernel) (by decide +kernel),
    (h _ r0 0).2.2.1 (by decide +kernel), ⟨z2, l1, fun d hd => ⟨t2, l2 d hd⟩⟩, ⟨z3, t3, m1, m2⟩,
    ((h sBundles (calling sBundles) 0).2.2.2.1 rfl (by decide +kernel)).2 0 1 [] _ _ (by decide +kernel) (pair_of (by decide +kernel)) (by decide +kernel)
      (pair_of (by decide +kernel)) (by decide +kernel),
    ((h sBundle r0 0).2.2.2.2 0 (by decide +kernel)).2.2.2.2.2 0 (by decide) (by decide +kernel) (by decide +kernel)⟩

/-- A bundle whose S0 alone holds an operation of this code, guard 31, on x3, x4, x5. -/
def bundle1 (op : BitVec 7) : Bundle := { (default : Bundle) with s0p := true, s0 := op ++ (0b11111_000011_1_000100_1_000101_0000000000000000 : BitVec 41) }
/-- A bundle whose S1 holds fwait of channel 0 on x4. -/
def fwait1 : Bundle := { (default : Bundle) with s1p := true, s1 := 0b1111110_11111_000000_0_000100_0_000000_0000000000000000 }

theorem witness_BundleRunsItsSlot : BundleRunsItsSlot →
    (∃ t needs, issueBundle 0 0 (bundle1 0x76) r0 = .issued t needs) ∧ (∃ t, issueBundle 0 0 (bundle1 0x74) r0 = .trapped t) ∧
    (∃ t, issueBundle 0 0 fwait1 (withCtx fun c => c.setX 4 1) = .held t) := by
  intro h
  refine ⟨?_, ⟨_, (h r0 (bundle1 0x74) _ _ rfl ?_ ?_ ?_ ?_ ?_ ?_ ?_ rfl _ rfl).2.1 _ rfl⟩,
    ⟨_, (h (withCtx fun c => c.setX 4 1) fwait1 _ _ rfl ?_ ?_ ?_ ?_ ?_ ?_ ?_ rfl _ rfl).2.2 _ rfl⟩⟩
  · obtain ⟨z, n, e, -⟩ := (h r0 (bundle1 0x76) _ _ rfl (by decide +kernel) (by decide +kernel) (by decide +kernel) (by decide +kernel) (by decide +kernel)
      (by decide +kernel) (by decide +kernel) rfl _ rfl).1 _ none rfl
    exact ⟨z, n, e⟩
  all_goals decide +kernel

/-- A load's result for x55, of a line that is, or is not, uncorrectable. -/
def loadResult : CtxResult := ⟨55, false, 7, none, none, none, [0x240000], 0x100, 0x40, 1, 3⟩
def sResult : State := withCtx fun c => { c.markEmpty 55 with results := [loadResult] }
/-- Results of lane 31: a load's, of a figure that is complete, and of a notice of a reduction slot. -/
def laneLoad (src : ResSrc) : LaneResult := ⟨31, 119, true, false, src, 9, [], 0, 0, 0, 0⟩
def noticeOne : Notice := { (default : Notice) with handle := 0x10000000000, value := 5, map := 3 }
def sLaneResults : State := { sLane with fabric := { sLane.fabric with notices := [noticeOne] } }.modStrand 0 0 0 fun st =>
  { st with results := [laneLoad .value, laneLoad (.figure 40), laneLoad (.notice 0x10000000000 false 9), laneLoad (.notice 0x10000000000 true 9)] }

theorem witness_ResultArrivals : ResultArrivals →
    runs (.longLatencyResult 0 0 0) sResult ∧ runs (.longLatencyResult 0 0 0) { sResult with badLines := [0x240000] } ∧
    runs (.laneResultArrival 0 0 0 0) sLaneResults ∧ runs (.laneResultArrival 0 0 0 1) sLaneResults ∧ runs (.laneResultArrival 0 0 0 2) sLaneResults ∧
    runs (.laneResultArrival 0 0 0 3) sLaneResults := by
  intro h
  refine ⟨runs_and (((h sResult 0 0).1 0 loadResult ?_ ?_ ?_ ?_ ?_ ?_).1 ?_), runs_two (((h { sResult with badLines := [0x240000] } 0 0).1 0 loadResult ?_ ?_ ?_ ?_ ?_ ?_).2 ?_ ?_),
    runs_and ((h sLaneResults 0 0).2 0 0 (laneLoad .value) ?_ ?_ 9 (.inl ?_)), runs_and ((h sLaneResults 0 1).2 0 0 (laneLoad (.figure 40)) ?_ ?_ 0 (.inr (.inl ⟨40, ?_⟩))),
    runs_and ((h sLaneResults 0 2).2 0 0 (laneLoad (.notice 0x10000000000 false 9)) ?_ ?_ 5 (.inr (.inr (.inl ⟨_, noticeOne, _, rfl, ?_⟩)))),
    runs_and ((h sLaneResults 0 3).2 0 0 (laneLoad (.notice 0x10000000000 true 9)) ?_ ?_ 3 (.inr (.inr (.inr ⟨_, noticeOne, _, rfl, ?_⟩))))⟩ <;> decide +kernel

/-- Nine strands: those of slots 0 to 7 active since cycle 0, that of slot 8 ready and pending since cycle 0; now cycle 128. -/
def sRotate : State := (List.range 9).foldl (fun s i => s.setStrand 0 0 i { placeStrand 0 with active := decide (i < 8) }) { (r0.placeLane 8 0) with cycle := 128 }
/-- Lane 0 of the strand waits at an open join at 0x40 of lanes 0 and 1, or of lanes 0 and 31, with p6 as its flag and deadline 0. -/
def sJoin (m : BitVec 32) : State := withStrand fun st => { st.modLane 0 fun l => { l with wait := .join 0x40 } with joins := [⟨0x40, m, some 0, [0], 6⟩] }
def sHung : State := withStrand fun st => st.modLane 31 fun l => { l with idle := 0x100000 }

/-- The same a cycle after the deadline. -/
def sAfter (m : BitVec 32) : State := { sJoin m with cycle := 1 }

theorem witness_StrandRowsAndJoins : Obligations.StrandRowsAndJoins →
    runs (.strandRotation 0 0) sRotate ∧ runs (.joinCompletion 0 0 0 0x40) (sJoin 3) ∧
    exec (.joinCompletion 0 0 0 0x40) (sJoin 0x80000001) = .fault .notEnabled ∧ exec (.joinTimeout 0 0 0 0x40) (sJoin 3) = .fault .notEnabled ∧
    exec (.joinCompletion 0 0 0 0x40) (sAfter 3) = .fault .notEnabled ∧ runs (.joinTimeout 0 0 0 0x40) (sAfter 3) ∧
    (∃ t, exec (.hangDetect 0 0 0) sHung = .next t) ∧ exec (.hangDetect 0 0 0) sLane = .fault .notEnabled ∧ runs (.hangctlWrite 0 3 (-1)) r0 := by
  intro h
  obtain ⟨w, e, p⟩ := found_of (o := longestWait ((sRotate.part 0 0).strands.filter (fun e => !e.2.active && (sRotate.readySlots 0 0).contains e.1)))
    (P := fun w => decide (w.2.entered + 128 ≤ sRotate.cycle)) (by decide +kernel)
  obtain ⟨l, f⟩ := some_of (o := (sHung.strand 0 0 0).lanes.find? (fun l => !l.2.exited && decide ((sHung.part 0 0).hangLimit ≤ l.2.idle))) (by decide +kernel)
  obtain ⟨t, o, -, k, -⟩ := (h sRotate 0 0).1 w e (by decide +kernel) (of_decide_eq_true p) (by decide +kernel)
  have a := (h (sJoin 3) 0 0).2.1 0 0x40 ⟨0x40, 3, some 0, [0], 6⟩ (by decide +kernel)
  have b := (h (sJoin 0x80000001) 0 0).2.1 0 0x40 ⟨0x40, 0x80000001, some 0, [0], 6⟩ (by decide +kernel)
  have c := ((h (sAfter 3) 0 0).2.1 0 0x40 ⟨0x40, 3, some 0, [0], 6⟩ (by decide +kernel)).2.2.2 0 rfl (by decide +kernel)
  refine ⟨⟨t, k⟩, runs_and (a.1 (by decide +kernel) fun d e => ?_), b.2.1 (by decide +kernel), a.2.2.1 0 rfl (by decide +kernel), c.1, runs_and c.2,
    ⟨_, (h sHung 0 0).2.2.1 0 l (by decide +kernel) (by decide +kernel) f⟩, (h sLane 0 0).2.2.2.1 0 (.inr (by decide +kernel)),
    runs_and ((h r0 0 3).2.2.2.2 (-1))⟩
  cases e
  decide +kernel

/-- Queue 15 on ring 0, with one entry and one free slot; the pass of lane 31 waits there to push, and its pop into v118. -/
def qw (v : Nat) : QWait := ⟨0, 0, 31, v, true, false, 0⟩
def sServe : State := ((sQueue 1 1).modStrand 0 0 0 fun st => st.modLane 31 fun l => { l with wait := .qpush 15 false }).modCore 0 fun c => { c with
  queues := [(15, { Queue.init with ring := some 0, entries := 1, free := 1, pushes := [[qw 1]], pops := [[qw 118]] })] }
/-- A red of Landing 0x7FFFFC of core 287; a store of two bytes to the first bytes of bank 33 that waits there, alone, or
beside one of the lowest class that has been the oldest of its class for 64 cycles. -/
def redOne : Red := ⟨31, 0, 0x06, 287, 1, 0x7FFFFC, 5, 0, 0, 0, 0⟩
def spillOne : SpillPiece := ⟨31, 0, 0x1080, [7, 9], false⟩
def bankOne (since : Option Nat) : BankReq := ⟨33, 4, since, 0, none, 0, [(0, 4)], [(0x1080, [7, 9])]⟩
def bankOld : BankReq := ⟨33, 5, some 0, 0, some 0, 0, [], [(0x1084, [3])]⟩
def sSpill : State := (withStrand fun st => { st with reds := [redOne, { redOne with space := 0, addr := 0x1000 }], spills := [⟨4, [spillOne]⟩] }).modCore 0 fun c =>
  { c with bankQ := [bankOne none] }
def sAged : State := { sSpill with cycle := 64 }.modCore 0 fun c => { c with bankQ := [bankOld, bankOne (some 64)] }
/-- The queue's slots are all taken. -/
def sFullQ : State := sServe.modCore 0 fun c => { c with queues := [(15, { Queue.init with ring := some 0, entries := 1, pushes := [[qw 1]] })] }
def sDone : State := { (r0.placeLane 8 0) with cycle := 2 }.modStrand 0 0 0 fun st => { st with fret := true, s := [(3, 7)] }

theorem witness_QueueRedAndBankRows : QueueRedAndBankRows →
    runs (.qpushServe 0 15) sServe ∧ exec (.qpushServe 0 15) sFullQ = .fault .notEnabled ∧ runs (.qpopServe 0 15) sServe ∧ runs (.redPerform 0 0 0 0) sSpill ∧ runs (.redPerform 0 0 0 1) sSpill ∧
    runs (.landingBankServe 0 33) sSpill ∧ runs (.landingBankServe 0 33) sAged ∧ exec (.landingBankServe 0 34) sSpill = .fault .notEnabled ∧ runs (.strandFinish 0 0 0) sDone := by
  intro h
  have na : ∀ x ∈ [] ++ bankOne none :: [], ¬ atBound sSpill x := by
    intro x m
    simp only [List.nil_append, List.mem_singleton] at m
    subst m
    rintro ⟨c, e, -⟩
    cases e
  have nb : ∀ x ∈ [bankOne (some 64)], atBound sAged x → bankOld.cls ≤ x.cls := by
    intro x m
    simp only [List.mem_singleton] at m
    subst m
    rintro ⟨c, e, k⟩
    cases e
    revert k
    decide +kernel
  refine ⟨runs_and (((h sServe 0).1 15 [qw 1] [] ?_).1 ?_ ?_ ?_), ((h sFullQ 0).1 15 [qw 1] [] ?_).2.1 ?_ ?_, runs_and (((h sServe 0).1 15 [qw 118] [] ?_).2.2 ?_ ?_ ?_),
    runs_and ((h sSpill 0).2.1 0 0 0 redOne ?_ ?_ ?_ ?_ ?_), runs_and ((h sSpill 0).2.2.1 0 0 1 { redOne with space := 0, addr := 0x1000 } ?_ ?_ ?_),
    runs_and ((h sSpill 0).2.2.2.1 33 (bankOne none) [] [] 0x1080 [7, 9] ?_ (.inr ⟨na, ?_, ?_⟩) ?_ ?_ ?_ ?_),
    runs_and ((h sAged 0).2.2.2.1 33 bankOld [] [bankOne (some 64)] 0x1084 [3] ?_ (.inl ⟨⟨0, ?_, ?_⟩, nofun, nb⟩) ?_ ?_ ?_ ?_),
    (h sSpill 0).2.2.2.2.1 34 (.inr (.inr ?_)), runs_and ((h sDone 0).2.2.2.2.2 0 0 ?_)⟩ <;> decide +kernel

/-- A context stopped by a RETIRED_OP record of the bundle at its PC, or of the gang of the strand at PC 0. -/
def retRec (inst : Option Nat) : TrapRec :=
  { (default : TrapRec) with cls := .retiredOp, engine := 2, slot := 2, inst := inst, seq := none, passed := false }
def sRetired : State := sLane.modCtx 0 0 fun c => { c with stopped := true, recs := [retRec (some 0)] }
/-- The record is of the bundle with figure 0x21. -/
def sFigRet : State := sRetBundle.modCtx 0 0 fun c => { c with stopped := true, recs := [retRec none] }

/-- The firmware's entry for figure 0x21 is a free value of the model; at this one the emulation runs a routine (log 11). -/
def emulation : Nat := 0x00100000C0C0C0C0C000000000000000
theorem routine_of {s : State} {pc : Word} (h : (match s.fetchBundle 0 0 pc with
      | .ok x => (match retiredFigure x.1 (s.ctx 0 0) with
        | some y => y.1 == 0x21 && (match issueRoutine 0x21 emulation y.2 ⟨0, 0, s.ctx 0 0, 2, x.1.lend, false, x.2⟩ x.2 with | .ok _ _ _ => true | _ => false)
        | none => false)
      | .error _ => false) = true) :
    ∃ b s1 f s2 p late, s.fetchBundle 0 0 pc = .ok (b, s1) ∧ retiredFigure b (s.ctx 0 0) = some (0x21, f) ∧
      issueRoutine 0x21 emulation f ⟨0, 0, s.ctx 0 0, 2, b.lend, false, s1⟩ s1 = .ok s2 p late := by
  split at h
  · rename_i x e
    split at h
    · rename_i y e2
      simp only [Bool.and_eq_true, beq_iff_eq] at h
      obtain ⟨h1, h2⟩ := h
      split at h2
      · rename_i s2 p late e3
        exact ⟨x.1, x.2, y.2, s2, p, late, e, by rw [e2, ← h1], e3⟩
      · cases h2
    · cases h
  · cases h

theorem witness_RetiredOperations : Obligations.RetiredOperations →
    runs (.retiredOpEmulation 0 (.ctx 0) false) sFigRet ∧ runs (.retiredOpEmulation 0 (.strand 0 0) true) sRetired ∧
    (Config.firmwareFigure 0x21 % 2 ^ 128 = emulation → runs (.retiredOpEmulation 0 (.ctx 0) true) sFigRet) := by
  intro h
  obtain ⟨x, hx, hp⟩ := okP_of (e := sRetired.fetchLane 0 0 (sRetired.strand 0 0 0).gang (maskClass false ((sRetired.strand 0 0 0).lanesAt 0)) 0)
    (P := fun x => decide ((∀ l ∈ (sRetired.strand 0 0 0).lanesAt 0, ((sRetired.strand 0 0 0).lane l).issuable (passRetiredLaneOpcode x.1 x.2.1) = true) ∧
      vOk (sRetired.strand 0 0 0).nregs (fieldNat x.1 20 14, false) = true)) (by decide +kernel)
  obtain ⟨h1, h2⟩ := of_decide_eq_true hp
  obtain ⟨b, s1, f, s2, p, late, e1, e2, e3⟩ := routine_of (s := sFigRet) (pc := 0) (by decide +kernel)
  refine ⟨runs_and ((h sFigRet 0).1 0 (retRec none) ?_ ?_), runs_and ((h sRetired 0).2.1 0 0 placeJob (retRec (some 0)) x.1 x.2.1 x.2.2 ?_ ?_ ?_ ?_ ?_ 0 _ ?_ rfl hx ?_ h1 h2),
    fun c => runs_and ((h sFigRet 0).2.2 0 (retRec none) b s1 0x21 f emulation s2 p late (by decide +kernel) (by decide +kernel) e1 e2 c.symm (by decide) e3)⟩ <;>
    decide +kernel
/-! ### Witnesses: memory, translation and events of themselves -/

/-- Two writes of the byte 0x100000, of which the older has not arrived, and one that has not of the highest byte of tier H; a phase
of each kind. -/
def sWrites : State := r0.modCore 0 fun c => { c with
  writes := [⟨0xBFFFFFFFFF, 7, false, .ctx 0, 0⟩, ⟨0x100000, 9, true, .ctx 0, 0⟩],
  phases := [⟨true, false, .ctx 0, [], [], 0⟩, ⟨false, true, .ctx 1, [], [], 0⟩] }

theorem witness_MemoryRows : Obligations.MemoryRows →
    runs (.writeArrival 0 0) sWrites ∧ runs (.phaseComplete 0 0) sWrites ∧ runs (.phaseComplete 0 1) sWrites ∧ runs (.tlbMissWalk 287 0 0x7FFF) r1 ∧
    exec (.tlbMissWalk 0 0 0x8000) r1 = .next r1 ∧ runs (.tlbinvWrite (.host 1) 1) r0 ∧ runs .tlbinvComplete { r0 with tlbinv := 0x8000000000000000 } ∧
    runs (.trapringWrite (.host 1) true 0x2000000000001001) r0 ∧ runs (.softError (.line 0xBFFFFFFFFF)) r0 ∧ runs (.softError (.line 0x17FFFFFFFFFF)) r0 ∧
    runs (.softError (.landing 287 0x7FFFFF)) r0 ∧ runs (.softError (.operandBuffer 287 3 0)) r0 ∧ runs (.softError (.accumulator 287 3 7 127)) r0 ∧
    runs (.pcieLinkDown 1 false) r0 ∧ runs (.pcieLinkDown 1 true) r0 := by
  intro h
  obtain ⟨w, hw⟩ := ok_of (e := r1.walk 0 0x7FFF) (by decide +kernel)
  obtain ⟨e, he⟩ := error_of (e := r1.walk 0 0x8000) (by decide +kernel)
  refine ⟨runs_and ((h sWrites).1 0 0 0 ⟨0xBFFFFFFFFF, 7, false, .ctx 0, 0⟩ ?_ ?_ ?_ ?_), runs_and (((h sWrites).2.1 0 0 ⟨true, false, .ctx 0, [], [], 0⟩ ?_).2.1 ?_ ?_ ?_),
    runs_and (((h sWrites).2.1 0 1 ⟨false, true, .ctx 1, [], [], 0⟩ ?_).2.2 ?_ ?_), runs_and (((h r1).2.2.1 287 0 0x7FFF ?_ ?_ ?_ ?_).1 w hw),
    ((h r1).2.2.1 0 0 0x8000 ?_ ?_ ?_ ?_).2 e he, runs_and ((h r0).2.2.2.1 (.host 1) 1 ?_ ?_), runs_and ((h { r0 with tlbinv := 0x8000000000000000 }).2.2.2.2.1 ?_),
    runs_and ((h r0).2.2.2.2.2.1 (.host 1) true 0x2000000000001001 ?_), runs_and ((h r0).2.2.2.2.2.2.1 0xBFFFFFFFFF ?_),
    runs_and ((h r0).2.2.2.2.2.2.1 0x17FFFFFFFFFF ?_), runs_and ((h r0).2.2.2.2.2.2.2.1 287 0x7FFFFF ?_ ?_ ?_),
    runs_and ((h r0).2.2.2.2.2.2.2.2.1 287 3 0 ?_ ?_), runs_and ((h r0).2.2.2.2.2.2.2.2.2.1 287 3 7 127 ?_ ?_ ?_ ?_),
    runs_and ((h r0).2.2.2.2.2.2.2.2.2.2 1 ?_).1, runs_and (((h r0).2.2.2.2.2.2.2.2.2.2 1 ?_).2 ?_ ?_)⟩ <;> decide +kernel

/-- A slot armed on a source, with an index and a threshold. -/
def slotOn (src ix : Nat) (thr : Word) : EvSlot := ⟨true, src, ix, true, thr, 0x40, false⟩
def slotList : List EvSlot := [slotOn 1 3 0, slotOn 2 0xFF8 0, slotOn 3 15 0, slotOn 7 0 0x10000000000, slotOn 6 0 0, slotOn 0 0 0, slotOn 2 0xFF8 1, slotOn 3 0 1,
  slotOn 4 0 0, slotOn 5 0 0, slotOn 5 1 1, slotOn 8 0 0]
def slotTab : Tab EvSlot := (List.range 12).zip slotList
/-- Context 0 of task 0, and the strand, with these slots. -/
def sSlots : State := let s := (sTask false).modCtx 0 0 fun c => { c with ev := { EvState.init with slots := slotTab } }
  { s with fabric := { s.fabric with notices := [{ (default : Notice) with handle := 0x10000000000 }] } }
def sStrandSlots : State := withStrand fun st => { st with ev := { EvState.init with slots := slotTab } }

theorem witness_EventSlotRows : EventSlotRows →
    (∀ j ∈ [0, 1, 2, 3, 4, 5], runs (.eventFire 0 (.ctx 0) j) sSlots) ∧ runs (.eventFire 0 (.strand 0 0) 5) sStrandSlots ∧
    (∀ j ∈ [6, 7, 8, 9, 11, 12], exec (.eventFire 0 (.ctx 0) j) sSlots = .fault .notEnabled) ∧ runs (.timerSlotExpiry 0 (.ctx 0) 9) sSlots ∧
    exec (.timerSlotExpiry 0 (.ctx 0) 10) sSlots = .fault .notEnabled ∧ runs (.evpostWrite 0 (.ctx 0) 0xFFFF) sSlots := by
  intro h
  have fire : ∀ j ∈ [0, 1, 2, 3, 4, 5], runs (.eventFire 0 (.ctx 0) j) sSlots := by
    intro j hj
    refine runs_and (((h sSlots 0 (.ctx 0) j _ rfl ?_).1 ?_ ?_ ?_).1 ?_)
    · decide +kernel
    · revert j; decide +kernel
    · revert j; decide +kernel
    · revert j; decide +kernel
    · simp only [List.mem_cons, List.not_mem_nil, or_false] at hj
      rcases hj with rfl | rfl | rfl | rfl | rfl | rfl
      · exact .inl (by decide +kernel)
      · exact .inr (.inl (by decide +kernel))
      · exact .inr (.inr (.inl (by decide +kernel)))
      · exact .inr (.inr (.inr (.inl (by decide +kernel))))
      · exact .inr (.inr (.inr (.inr (.inl ⟨0, 0, rfl, by decide +kernel⟩))))
      · exact .inr (.inr (.inr (.inr (.inl ⟨0, 0, rfl, by decide +kernel⟩))))
  refine ⟨fire, runs_and (((h sStrandSlots 0 (.strand 0 0) 5 _ rfl ?_).1 ?_ ?_ ?_).1 (.inr (.inr (.inr (.inr (.inr ⟨0, 0, rfl, ?_⟩)))))), ?_,
    runs_and ((((h sSlots 0 (.ctx 0) 9 _ rfl ?_).1 ?_ ?_ ?_).2.2 ?_ _ rfl).1 ?_), (((h sSlots 0 (.ctx 0) 10 _ rfl ?_).1 ?_ ?_ ?_).2.2 ?_ _ rfl).2 ?_,
    runs_and ((h sSlots 0 (.ctx 0) 0 _ rfl ?_).2.2 0xFFFF)⟩
  case refine_6 =>
    intro j hj
    simp only [List.mem_cons, List.not_mem_nil, or_false] at hj
    rcases hj with rfl | rfl | rfl | rfl | rfl | rfl
    · exact ((h sSlots 0 (.ctx 0) 6 _ rfl (by decide +kernel)).1 (by decide) (by decide +kernel) (by decide +kernel)).2.1 (by decide +kernel)
    · exact ((h sSlots 0 (.ctx 0) 7 _ rfl (by decide +kernel)).1 (by decide) (by decide +kernel) (by decide +kernel)).2.1 (by decide +kernel)
    · exact ((h sSlots 0 (.ctx 0) 8 _ rfl (by decide +kernel)).1 (by decide) (by decide +kernel) (by decide +kernel)).2.1 (by decide +kernel)
    · exact ((h sSlots 0 (.ctx 0) 9 _ rfl (by decide +kernel)).1 (by decide) (by decide +kernel) (by decide +kernel)).2.1 (by decide +kernel)
    · exact ((h sSlots 0 (.ctx 0) 11 _ rfl (by decide +kernel)).1 (by decide) (by decide +kernel) (by decide +kernel)).2.1 (by decide +kernel)
    · exact (h sSlots 0 (.ctx 0) 12 _ rfl (by decide +kernel)).2.1 (by decide +kernel)
  all_goals decide +kernel

/-- Slots 3 and 15 of a waiter are pending and armed, slot 3 asynchronous; task 0, saved, has an occurrence of slot 15 due. -/
def evReady : EvState := { EvState.init with slots := [(3, ⟨true, 8, 0, true, 0, 0x40, true⟩), (15, ⟨true, 8, 0, false, 0, 0x60, true⟩)], pend := 0x8008 }
def sReady (w : CtxWait) : State := withCtx fun c => { c with ev := evReady, running := true, wait := w, pc := 0x100, shX := [(63, 5)] }
def sReadyL (wany : Bool) : State := withStrand fun st =>
  if wany then { (st.modLane 0 fun l => { l with wait := .wany }).modLane 31 fun l => { l with wait := .wany } with ev := evReady, listW := 0x8000 }
  else { st with ev := evReady }
def sSavedDue : State := ({ r0 with tasks := [(0, { Task.init with tierDue := [(0, 15)] })] } : State).modSpace 0 fun sp => { sp with savepool := 0x200001 }

theorem witness_HandlerRows : HandlerRows →
    runs (.handlerEntry 0 0) (sReady .none) ∧ runs (.handlerEntry 0 0) (sReady (.twany 0x8000 0x40)) ∧ runs (.handlerEntry 0 0) (sReady (.tbar 3)) ∧
    exec (.handlerEntry 0 0) sHandler = .fault .notEnabled ∧ runs (.strandHandlerEntry 0 0 0) (sReadyL true) ∧ runs (.strandHandlerEntry 0 0 0) (sReadyL false) ∧
    runs (.savedTierDelivery 0 15) sSavedDue := by
  intro h
  obtain ⟨l, hl, hp⟩ := found_of (o := ((sReadyL true).strand 0 0 0).lanes.find? (fun l => !l.2.exited && l.2.wait == .wany)) (P := fun l => l.2.pc == 0) (by decide +kernel)
  refine ⟨runs_and ((h (sReady .none) 0 3).1 0 _ 0x100 _ rfl ?_ ?_ ?_ ?_ ?_ ?_ ?_ ?_ (.inr ⟨.inl ?_, rfl, ?_⟩) ?_ ?_ ?_),
    runs_and ((h (sReady (.twany 0x8000 0x40)) 0 15).1 0 _ 0x40 0x8000 rfl ?_ ?_ ?_ ?_ ?_ ?_ ?_ ?_ (.inl ?_) ?_ ?_ ?_),
    runs_and ((h (sReady (.tbar 3)) 0 3).1 0 _ 0x100 _ rfl ?_ ?_ ?_ ?_ ?_ ?_ ?_ ?_ (.inr ⟨.inr (.inr (.inr ⟨3, ?_⟩)), rfl, ?_⟩) ?_ ?_ ?_),
    (h sHandler 0 3).2.1 0 (.inl ?_),
    runs_and ((h (sReadyL true) 0 15).2.2.1 0 0 _ l.2.pc _ rfl ?_ ?_ ?_ ?_ (.inl ⟨l, hl, rfl, rfl⟩) ?_ ?_ ?_),
    runs_and ((h (sReadyL false) 0 3).2.2.1 0 0 _ 0 _ rfl ?_ ?_ ?_ ?_ (.inr ⟨?_, ?_, rfl⟩) ?_ ?_ ?_),
    runs_and ((h sSavedDue 0 15).2.2.2 0 0 ?_ ?_ ?_)⟩ <;> decide +kernel
/-! ### Witnesses: steps, dispatch, spawning and merging -/

/-- The words of a task with one context, and these words of two positions. -/
def topbWords (l : List (Nat × Nat)) : Memory := l.foldl (fun m e => m.write (8 * e.1) 8 e.2) (Memory.write [] 8 8 (2 ^ 60))
/-- Task 0 holds context 0 of core 0; its words give it one step. -/
def taskOf (f : Task → Task) : Task := f { Task.init with words := topbWords [(0, 0x40), (15, 7)], places := [(0, 0)], cores := [0], started := true }
def sTask0 (f : Task → Task) (g : Ctx → Ctx) : State :=
  ({ r0 with tasks := [(0, taskOf f)], nextTask := 1 } : State).modCtx 0 0 fun _ => g { Ctx.init with task := some 0 }

theorem witness_StepRows : StepRows →
    runs (.stepStart 0 0) { sTask0 id id with cycle := 1 } ∧
    runs (.stepEnd 0 0) (sTask0 (fun t => { t with running := 2 }) fun c => { c with running := true, wait := .stepEnd 0 }) ∧
    runs (.stepEnd 0 0) (sTask0 (fun t => { t with running := 1, nextStep := 1 }) fun c => { c with running := true, wait := .stepEnd 0 }) ∧
    runs (.syncRelease 0 0) (sTask0 id fun c => { c with running := true, wait := .sync }) := by
  intro h
  refine ⟨runs_and ((h { sTask0 id id with cycle := 1 } 0 0 0 ?_ ?_).1 ?_ ?_ ?_ ?_ ?_ ?_),
    runs_and (((h (sTask0 (fun t => { t with running := 2 }) fun c => { c with running := true, wait := .stepEnd 0 }) 0 0 0 ?_ ?_).2.1 0 ?_ ?_ ?_ ?_ ?_ ?_).1 ?_ ?_),
    runs_and (((h (sTask0 (fun t => { t with running := 1, nextStep := 1 }) fun c => { c with running := true, wait := .stepEnd 0 }) 0 0 0 ?_ ?_).2.1 0
      ?_ ?_ ?_ ?_ ?_ ?_).2 ?_ ?_ ?_),
    runs_and ((h (sTask0 id fun c => { c with running := true, wait := .sync }) 0 0 0 ?_ ?_).2.2 ?_ ?_ ?_ ?_ ?_)⟩ <;> decide +kernel

/-- Queue 63 holds one record of one task at 0x100000, or memory does not hold it. -/
def sLaunch (m : Memory) : State := { r0 with mem := m }.modQueue 63 fun q => { q with qctl := 0x8000000000000000 + 2 ^ 37, qbase := 0x100000, qtail := 1 }
def oneRecord : Memory := (Memory.write [] 0x100000 8 0x3FFFFFFFFFFF00).write 0x100008 8 0xFF
/-- A launch of queue 63 whose task, examined, is at the head of die 7. -/
def launchOne : Launch := { (default : Launch) with queue := 63, ntask := 1 }
def sHead (w : Nat) : State := ({ r0 with
  launches := [(0, launchOne)], nextLaunch := 1, nextTask := 1,
  tasks := [(0, { Task.init with words := topbWords [(6, w)], launch := some 0 })] } : State).modSpace 0 fun sp => { sp with savepool := 0x1000000200001 }

theorem witness_DispatchRows : DispatchRows →
    runs (.launchRecordTake 63) (sLaunch oneRecord) ∧ runs (.launchRecordTake 63) (sLaunch []) ∧ exec (.launchRecordTake 0) r0 = .fault .notEnabled ∧
    runs (.taskDispatch 7) (sHead 1) ∧ runs (.taskDispatch 7) (sHead 0) ∧ runs (.staggerExpiry 7 5) (r0.modDie 7 fun d => { d with stagger := [(5, 0)] }) := by
  intro h
  obtain ⟨gs, hg⟩ := some_of (o := ((sHead 0).examineHeads 7).headFits 7 ⟨2, 0, 63⟩) (by decide +kernel)
  refine ⟨runs_two (((h (sLaunch oneRecord)).1 63 _ _ _ rfl ?_ ?_ rfl rfl).1 ?_ ?_), runs_and (((h (sLaunch [])).1 63 _ _ _ rfl ?_ ?_ rfl rfl).2 (.inl ?_)),
    (h r0).2.1 0 (.inl ?_), runs_and (((h (sHead 1)).2.2.1 7 _ rfl).1 ⟨2, 0, 63⟩ ?_ ?_), runs_and (((h (sHead 0)).2.2.1 7 _ rfl).2 ⟨2, 0, 63⟩ [] gs ?_ ?_ ?_ hg),
    runs_and ((h (r0.modDie 7 fun d => { d with stagger := [(5, 0)] })).2.2.2 7 5 (5, 0) ?_ ?_ ?_)⟩ <;> decide +kernel

/-- Context 0 is parked at a spawn, or waits for the answer of spawn.nb into x55 and c14. -/
def sPark : State := sTask0 id fun c => { c with running := true, wait := .spawnPark 0 }
def askResult (v : Word) : CtxResult := ⟨55, false, v, some 14, some 0x7F00, none, [], 0, 0, 0, 0⟩
def sAsk (v : Word) : State := sTask0 id fun c => { c.markEmpty 55 with running := true, results := [askResult v] }
/-- The pool of die 0 is full of a task for which no save area is free. -/
def sDead : State := ({ sPark with tasks := sPark.tasks ++ [(5, { Task.init with words := topbWords [], parent := some 0 })] } : State).modDie 0 fun d =>
  { d with pool := List.replicate 2048 5 }

theorem dead_waits : deadlocked sDead 0 := by
  refine ⟨?_, ?_, ?_, ?_⟩
  · decide +kernel
  · decide +kernel
  · decide +kernel
  · intro c hc z hz
    have e : c = 5 := List.eq_of_mem_replicate (a := 5) (n := 2048) (show c ∈ List.replicate 2048 5 from hc)
    subst e; subst hz
    decide +kernel

theorem witness_SpawnRows : SpawnRows →
    runs (.spawnUnpark 0) sPark ∧ (∃ t z : State, exec (.spawnUnpark 0) sPark = .next t ∧ t.mem = z.mem) ∧ exec (.spawnUnpark 0) r0 = .fault .notEnabled ∧
    runs (.spawnAnswer 0 0) (sAsk 4096) ∧ runs (.spawnAnswer 0 0) (sAsk 0) ∧ exec (.spawnAnswer 0 0) r0 = .fault .notEnabled ∧
    runs (.spawnDeadlockDetect 0) sDead := by
  intro h
  obtain ⟨t, k, m, -⟩ := ((h sPark).1 0 _ rfl).2.1 (0, 0) _ (by decide +kernel) rfl
  refine ⟨((h sPark).1 0 _ rfl).1 ?_, ⟨t, _, k, m⟩, ((h r0).1 0 _ rfl).2.2 ?_, runs_and ((h (sAsk 4096)).2.1 0 0 (askResult 4096) 14 ?_ ?_ ?_ ?_ ?_ ?_),
    runs_and ((h (sAsk 0)).2.1 0 0 (askResult 0) 14 ?_ ?_ ?_ ?_ ?_ ?_), (h r0).2.2.1 0 0 ?_, runs_and ((h sDead).2.2.2 0 dead_waits ?_)⟩ <;> decide +kernel

/-- Task 2, a child of task 1, has one view of 128 bytes, in Landing or in global memory, under operator 1; it has started and ended. -/
def childWords (land : Bool) : Memory := topbWords [(5, 0x10001), (16, (if land then 2 ^ 63 else 0) + 0x2000), (17, 128), (18, 0x7FFF80)]
def sMerge (f : Task → Task) : State := { r0 with nextTask := 3, tasks := [(1, Task.init), (2, f { Task.init with
  words := childWords true, parent := some 1, spawnIx := 1, started := true, mergeOk := true, stopStep := true })] }

theorem witness_MergeRows : MergeRows →
    runs (.viewFill 2) (sMerge id) ∧ runs (.childMerge 2) (sMerge fun t => { t with failedC := true }) ∧ runs (.childMerge 2) (sMerge fun t => { t with mview := 1 }) ∧
    runs (.childMerge 2) (sMerge id) ∧ runs (.childMerge 2) (sMerge fun t => { t with words := childWords false }) := by
  intro h
  have e1 : (sMerge id).granule ((sMerge id).task 2) (((sMerge id).task 2).viewSpace 0) ((sMerge id).task 2).lastCore
      (((sMerge id).task 2).viewBack 0 + 128 * ((sMerge id).task 2).mgran) .read = .ok (.landing 0 0x7FFF80, sMerge id) := rfl
  have e2 : (sMerge id).targetGranule 2 none = .ok (.landing 0 0x2000, sMerge id) := rfl
  obtain ⟨a, ha⟩ := some_of (o := (sMerge id).granuleRead (.landing 0 0x7FFF80)) (by decide +kernel)
  obtain ⟨b, hb⟩ := some_of (o := (sMerge id).granuleRead (.landing 0 0x2000)) (by decide +kernel)
  refine ⟨runs_and (((h (sMerge id) 2 _ rfl).1 ?_ ?_ ?_ ?_).2 ?_ ?_ ?_ ?_ ?_),
    runs_and (((h (sMerge fun t => { t with failedC := true }) 2 _ rfl).2 1 ?_ ?_).1 ?_ ?_ ?_),
    runs_and ((((h (sMerge fun t => { t with mview := 1 }) 2 _ rfl).2 1 ?_ ?_).2 ?_ ?_ ?_ ?_ ?_ ?_ ?_ ?_).1 ?_),
    ⟨_, (((h (sMerge id) 2 _ rfl).2 1 ?_ ?_).2 ?_ ?_ ?_ ?_ ?_ ?_ ?_ ?_).2.1 _ _ a _ _ b ?_ ?_ e1 ha e2 hb⟩,
    runs_and ((((h (sMerge fun t => { t with words := childWords false }) 2 _ rfl).2 1 ?_ ?_).2 ?_ ?_ ?_ ?_ ?_ ?_ ?_ ?_).2.2 1 ?_ ?_ ?_ ?_ rfl)⟩ <;> decide +kernel
/-! ### Witnesses: records of traps, answers, pre-emption and restoring -/

/-- A record with a sequence number, and the value of TRESUME that names it, its target context 0 of core 0. -/
def recOf (engine : Nat) (seq : Option Nat) : TrapRec := { (default : TrapRec) with cls := .align, engine := engine, slot := 1, seq := seq, last := true }
def tres (seq : Nat) : Word := BitVec.ofNat 64 (seq * 2 ^ 28)
/-- Context 0 of core 0 is stopped by records; its address space has a trap ring of 16 records at 0x300000. -/
def sRec (rs : List TrapRec) : State := (sTask0 (fun t => { t with stepOf := [(0, 0, 0)] }) fun c => { c with running := true, stopped := true, recs := rs }).modSpace 0
  fun sp => { sp with trapring := 0x2000000000300000 }
/-- The same without a ring, or with its first slot occupied, or with the record of a halted channel. -/
def sNoRing : State := (sRec [recOf 0 none]).modSpace 0 fun sp => { sp with trapring := 0 }
def sOccupied : State := { sRec [recOf 0 none] with mem := Memory.write [] 0x300000 8 1 }
def sHalted (q : Option Nat) : State := (sRec []).modCore 0 fun c => { c with chans := [(3, { Chan.init with halt := true, halted := some 0, frec := some { recOf 3 q with replay := true } })] }

theorem witness_TrapRecordRows : Obligations.TrapRecordRows →
    runs (.trapRecordWrite 0 0) (sRec [recOf 0 none]) ∧ exec (.trapRecordWrite 0 0) sOccupied = .fault .notEnabled ∧ runs (.trapRecordWrite 0 0) sNoRing ∧
    runs (.trapRecordWrite 0 0) (sHalted none) := by
  intro h
  refine ⟨runs_two (((h (sRec [recOf 0 none]) 0 0 ?_).1 (recOf 0 none) _ _ _ ?_ rfl rfl rfl ?_ ?_ ?_).1 ?_ ?_ ?_),
    ((h sOccupied 0 0 ?_).1 (recOf 0 none) _ _ _ ?_ rfl rfl rfl ?_ ?_ ?_).2.1 ?_ ?_ ?_,
    runs_and (((h sNoRing 0 0 ?_).1 (recOf 0 none) _ _ _ ?_ rfl rfl rfl ?_ ?_ ?_).2.2 ?_ 0 ?_),
    runs_and ((h (sHalted none) 0 0 ?_).2 3 { recOf 3 none with replay := true } _ ?_ ?_ ?_ ?_ ?_ ?_ ?_ rfl ?_ ?_ ?_)⟩ <;> decide +kernel

/-- The record of an engine operation or an instance, and of a merge; jobs stopped by one. -/
def recJob (engine : Nat) (seq : Nat) : TrapRec := { recOf engine (some seq) with inst := some 0, status := 0x1000000000000 }
def sStopped (r : TrapRec) (j : Job) : State := (sRec [r]).modCore 0 fun c => { c with jobs := [j], nextJob := 1 }
def errJob (k : JobKind) : Job := { placeJob with kind := k, err := true }

theorem witness_TrapAnswers : TrapAnswers →
    runs (.retry (.host 0) (tres 5)) (sRec [recOf 0 (some 5)]) ∧ runs (.retry (.ctx 0 1) (tres 5)) (sRec [recOf 3 (some 5)]) ∧
    runs (.skip (.host 1) (tres 0xFFFFFFFF)) (sRec [recOf 0 (some 0xFFFFFFFF)]) ∧ runs (.replay (.host 0) (tres 5)) (sStopped (recJob 7 5) (errJob (.figure 0x03 0))) ∧
    runs (.replay (.host 0) (tres 5)) (sStopped (recJob 4 5) (errJob (.routine 0x80 0))) ∧ runs (.replay (.host 0) (tres 5)) (sRec [recJob 5 5]) ∧
    runs (.replay (.host 0) (tres 5)) (sRec [recOf 1 (some 5)]) ∧ runs (.discard (.strand 0 0 0) (tres 5)) (sRec [recOf 7 (some 5)]) ∧
    runs (.abort (.host 0) (tres 5)) (sRec [recOf 5 (some 5)]) ∧ runs (.retry (.host 0) (tres 5)) (sStopped (recOf 0 (some 5)) (errJob (.figure 0x03 0))) := by
  intro h
  refine ⟨runs_and (((h (sRec [recOf 0 (some 5)]) (.host 0) (tres 5) 0 0 (recOf 0 (some 5)) ?_ ?_ ?_ ?_ ?_ ?_).2.1 ?_).1 ?_),
    runs_and (((h (sRec [recOf 3 (some 5)]) (.ctx 0 1) (tres 5) 0 0 (recOf 3 (some 5)) ?_ ?_ ?_ ?_ ?_ ?_).2.1 ?_).1 ?_),
    runs_and (((h (sRec [recOf 0 (some 0xFFFFFFFF)]) (.host 1) (tres 0xFFFFFFFF) 0 0 (recOf 0 (some 0xFFFFFFFF)) ?_ ?_ ?_ ?_ ?_ ?_).2.1 ?_).2.1 ?_),
    runs_and ((((h (sStopped (recJob 7 5) (errJob (.figure 0x03 0))) (.host 0) (tres 5) 0 0 (recJob 7 5) ?_ ?_ ?_ ?_ ?_ ?_).2.1 ?_).2.2.1 0 (errJob (.figure 0x03 0)) ?_ ?_ ?_).1 ?_ ?_
      (fun n e q => by cases q)),
    runs_and ((((h (sStopped (recJob 4 5) (errJob (.routine 0x80 0))) (.host 0) (tres 5) 0 0 (recJob 4 5) ?_ ?_ ?_ ?_ ?_ ?_).2.1 ?_).2.2.1 0 (errJob (.routine 0x80 0)) ?_ ?_ ?_).2 _ _ ?_ rfl),
    runs_and (((h (sRec [recJob 5 5]) (.host 0) (tres 5) 0 0 (recJob 5 5) ?_ ?_ ?_ ?_ ?_ ?_).2.1 ?_).2.2.2 0 ?_ ?_),
    runs_and ((h (sRec [recOf 1 (some 5)]) (.host 0) (tres 5) 0 0 (recOf 1 (some 5)) ?_ ?_ ?_ ?_ ?_ ?_).2.2.1 ?_ ?_ ?_),
    runs_and ((h (sRec [recOf 7 (some 5)]) (.strand 0 0 0) (tres 5) 0 0 (recOf 7 (some 5)) ?_ ?_ ?_ ?_ ?_ ?_).2.2.2.1 ?_ 0 0 ?_ ?_),
    runs_and ((h (sRec [recOf 5 (some 5)]) (.host 0) (tres 5) 0 0 (recOf 5 (some 5)) ?_ ?_ ?_ ?_ ?_ ?_).2.2.2.2 0 ?_),
    runs_and ((h (sStopped (recOf 0 (some 5)) (errJob (.figure 0x03 0))) (.host 0) (tres 5) 0 0 (recOf 0 (some 5)) ?_ ?_ ?_ ?_ ?_ ?_).1 (errJob (.figure 0x03 0)) ?_ ?_ ?_ ?_ ?_
      (fun n e q => by cases q))⟩ <;> decide +kernel

/-- Task 1 is saved in area 2 of address space 0, which holds its SAVED notice; the FLAGS of the area say that commands are parked, or not. -/
def savedRec : TrapRec := { (default : TrapRec) with cls := .savedNotice, seq := some 9, status := 2 }
def savedTask (f : Task → Task) : Task := f { Task.init with
  words := topbWords [], places := [(0, 0)], started := true, area := some 2, saved := [⟨0, { Ctx.init with task := some 1, running := true }, []⟩] }
def sSaved (f : Task → Task) : State := { r0 with spaces := [(0, { Space.init with notices := [savedRec], savepool := 0x4000000200001, areas := [2] })], tasks := [(1, savedTask f)] }
def sParked : State := { sSaved id with mem := Memory.write [] ((sSaved id).partBase 1 0) 8 3 }
/-- RESTORE of area 2 on a core of die 7. -/
def restoreTo (core : Nat) : Word := BitVec.ofNat 64 (2 * 2 ^ 28 + 7 * 2 ^ 13 + core * 2 ^ 7)

theorem witness_TrapAnswerRules : TrapAnswerRules →
    runs (.retry (.host 0) (tres 5)) r0 ∧ runs (.retry (.host 0) (tres 5)) (sRec [recOf 0 (some 4), recOf 0 (some 5)]) ∧
    runs (.ferry (.host 0) (tres 5)) (sHalted (some 5)) ∧ runs (.restore (.host 0) (restoreTo 35)) (sSaved id) ∧ runs (.restore (.host 0) (restoreTo 63)) (sSaved id) ∧
    runs (.restore (.host 0) (restoreTo 36)) (sSaved id) ∧ runs (.restore (.host 0) (restoreTo 35)) sParked := by
  intro h
  refine ⟨runs_and ((h r0 (.host 0) (tres 5) 0 0 ?_).1 ?_ _ (List.Mem.head _)),
    runs_and ((h (sRec [recOf 0 (some 4), recOf 0 (some 5)]) (.host 0) (tres 5) 0 0 ?_).2.1 (recOf 0 (some 4)) (recOf 0 (some 5)) ?_ ?_ ?_ ?_ ?_ ?_ (Instr.retry, 0) (List.Mem.head _)),
    runs_and ((h (sHalted (some 5)) (.host 0) (tres 5) 0 0 ?_).2.2.1 3 { recOf 3 (some 5) with replay := true } ?_ ?_ ?_ ?_ ?_),
    runs_and (((h (sSaved id) (.host 0) (restoreTo 35) _ _ rfl).2.2.2.1 0 _ 1 _ _ ?_ rfl rfl ⟨_, savedRec, rfl, ?_, ?_, ?_, ?_⟩ rfl ?_ ?_ ?_ ?_ ?_ ?_).1 ?_),
    runs_and (((h (sSaved id) (.host 0) (restoreTo 63) _ _ rfl).2.2.2.1 0 _ 1 _ _ ?_ rfl rfl ⟨_, savedRec, rfl, ?_, ?_, ?_, ?_⟩ rfl ?_ ?_ ?_ ?_ ?_ ?_).1 ?_),
    runs_and (((h (sSaved id) (.host 0) (restoreTo 36) _ _ rfl).2.2.2.1 0 _ 1 _ _ ?_ rfl rfl ⟨_, savedRec, rfl, ?_, ?_, ?_, ?_⟩ rfl ?_ ?_ ?_ ?_ ?_ ?_).2 ?_ ?_),
    runs_and ((h sParked (.host 0) (restoreTo 35) _ _ rfl).2.2.2.2 _ 0 _ savedRec 1 _ 0 ?_ rfl rfl ?_ ?_ ?_ ?_ rfl ?_ ?_ ?_ ?_)⟩ <;> decide +kernel

theorem home_kept {s : State} (h : s.purser.deadStacks = []) {a : Nat} (l : 0x100000 ≤ a) (u : a < 0xC000000000) : s.writeDropped a = false := by
  unfold State.writeDropped State.phys
  have e : decide (a < 0x100000) = false := by simp; omega
  simp only [e, Bool.false_and, Bool.false_or, if_pos u, h]
  rfl

/-- Task 1, whose save area is area 2, runs on context 0 of core 0. -/
def sPre (f : Ctx → Ctx) : State :=
  ({ r0 with spaces := [(0, { Space.init with savepool := 0x4000000200001, areas := [2] })], tasks := [(1, savedTask fun t => { t with saved := [] })] } : State).modCtx
    0 0 fun _ => f { Ctx.init with task := some 1, running := true }
/-- An instance of the context runs; the clock stands at the end of its grace period, or one cycle after. -/
def sGrace (n : Nat) : State := { (sPre fun c => { c with preReq := true, preStop := some 0 }).modCore 0 fun c => { c with jobs := [placeJob] } with cycle := n }

theorem witness_PreemptionRows : PreemptionRows →
    runs (.preemptWrite (.host 0) 0) (sPre id) ∧ exec (.preemptWrite (.ctx 0 1) 0x80000) (sPre id) = .next (sPre id) ∧
    runs (.preemptStop 0 0) (sPre fun c => { c with preReq := true, wait := .prePoint }) ∧
    runs (.preemptStop 0 0) (sPre fun c => { c with preReq := true, wait := .stepEnd 0 }) ∧
    runs (.preemptStop 0 0) (sPre fun c => { c with preReq := true, preStop := some 0 }) ∧ exec (.preemptStop 0 0) (sPre id) = .fault .notEnabled ∧
    exec (.preemptStop 0 0) (sPre fun c => { c with preReq := true, preNew := true }) = .fault .notEnabled ∧
    runs (.graceExpiry 0 0) (sGrace 0x10001) ∧ exec (.graceExpiry 0 0) (sGrace 0x10000) = .fault .notEnabled ∧
    runs (.deviceSwap 1) (sPre fun c => { c with wait := .sync }) ∧ runs (.checkpointStream 0 0 0) (sPre id) ∧ runs (.checkpointStream 0 0 16) (sPre id) := by
  intro h
  have k : ∀ a, (sPre id).partBase 1 0 ≤ a → a < (sPre id).partBase 1 0 + ((sPre id).task 1).areaPart true → (sPre id).writeDropped a = false := by
    intro a l u
    have b : (sPre id).partBase 1 0 = 0x400000 := by decide +kernel
    have c : ((sPre id).task 1).areaPart true = 0x6000 := by decide +kernel
    rw [b] at l u; rw [c] at u
    exact home_kept (by decide +kernel) (by omega) (by omega)
  obtain ⟨z, r, e, -⟩ := ((h (sPre fun c => { c with preReq := true, preStop := some 0 })).2.2.2.1 0 0 _ 1 rfl (by decide +kernel)).2.1 (by decide +kernel)
    (by decide +kernel) (by decide +kernel) (by decide +kernel) (by decide +kernel) (by decide +kernel)
  refine ⟨runs_and ((h (sPre id)).1 (.host 0) 0 ?_ ?_ _ 1 rfl ?_), (h (sPre id)).2.2.1 (.ctx 0 1) 0x80000 nofun ?_,
    runs_and (((h (sPre fun c => { c with preReq := true, wait := .prePoint })).2.2.2.1 0 0 _ 1 rfl ?_).1 ?_ ?_ ?_
      (.inr (.inr (.inr (.inr (.inr (.inr (.inr (.inr (.inl ?_)))))))))),
    runs_and (((h (sPre fun c => { c with preReq := true, wait := .stepEnd 0 })).2.2.2.1 0 0 _ 1 rfl ?_).1 ?_ ?_ ?_
      (.inr (.inr (.inr (.inr (.inr (.inr (.inr (.inr (.inr ⟨0, ?_⟩)))))))))), ⟨z, e⟩, ((h (sPre id)).2.2.2.1 0 0 _ 1 rfl ?_).2.2 (.inl ?_) ?_ ?_,
    ((h (sPre fun c => { c with preReq := true, preNew := true })).2.2.2.1 0 0 _ 1 rfl ?_).2.2 (.inr ?_) ?_ ?_,
    runs_and (((h (sGrace 0x10001)).2.2.2.2.1 0 0 0 _ ?_ rfl).1 ?_ ?_ ?_), ((h (sGrace 0x10000)).2.2.2.2.1 0 0 0 _ ?_ rfl).2 ?_,
    runs_and ((h (sPre fun c => { c with wait := .sync })).2.2.2.2.2.1 1 _ rfl ?_ ?_ ?_ ?_ (fun e he => by
      have q : e = (0, 0) := List.mem_singleton.mp he
      subst q
      exact ⟨by decide +kernel, by decide +kernel, by decide +kernel, by decide +kernel, .inr (.inr (.inl (by decide +kernel)))⟩)),
    runs_and ((h (sPre id)).2.2.2.2.2.2 0 0 _ 1 0 _ rfl rfl ?_ ?_ ?_ ?_ ?_ ?_ ?_ k), runs_and ((h (sPre id)).2.2.2.2.2.2 0 0 _ 1 16 _ rfl rfl ?_ ?_ ?_ ?_ ?_ ?_ ?_ k)⟩ <;>
    decide +kernel

/-- Task 1 is saved and named by RESTORE; the strand of sPass is stopped by a BREAK of its gang. -/
def sRestore : State := sSaved fun t => { t with restore := some (0, 63) }
def sStep : State := (sPass.modStrand 0 0 0 fun st => { st with stopped := true }).modCtx 0 0 fun c => { c with
  stopped := true, recs := [{ recOf 4 (some 0) with cls := .break_, inst := some 0 }] }
theorem witness_RestoreRows : RestoreRows →
    runs (.taskRestore 1) sRestore ∧ exec (.checkpointStream 0 0 0) { r0 with ckptEn := false } = .fault .notEnabled ∧ runs (.singleStep 0 0 0 none) sStep ∧
    runs (.singleStep 0 0 0 (some 0)) sStep := by
  intro h
  obtain ⟨gs, hg⟩ := some_of (o := (sRestore.examineHeads 0).headFits 0 ⟨0, 1, 0⟩) (by decide +kernel)
  obtain ⟨a, ha⟩ := some_of (o := (sStep.modJob 0 0 fun j => { j with err := false }).readySubset 0 0 0 { (sStep.strand 0 0 0) with stopped := false }) (by decide +kernel)
  obtain ⟨b, hb⟩ := some_of (o := ((sStep.modJob 0 0 fun j => { j with err := false }).subsetAt 0 0 0 { (sStep.strand 0 0 0) with stopped := false } 0).filter
    (fun b => b.ready (sStep.modJob 0 0 fun j => { j with err := false }) 0 0)) (by decide +kernel)
  refine ⟨runs_and ((h sRestore).1 1 _ 0 _ ⟨0, 1, 0⟩ [] gs rfl ?_ ?_ rfl ?_ ?_ ?_ ?_ hg), (h { r0 with ckptEn := false }).2.1 0 0 0 ?_,
    runs_and ((h sStep).2.2 0 0 0 none _ _ rfl rfl ?_ ?_ ?_ ?_ _ a rfl ha), runs_and ((h sStep).2.2 0 0 0 (some 0) _ _ rfl rfl ?_ ?_ ?_ ?_ _ b rfl hb)⟩ <;>
    decide +kernel
/-! ### Witnesses: the Causeway -/

def okTest {ε α : Type} (e : Except ε α) (P : α → Bool) : Bool := match e with | .ok x => P x | .error _ => false
theorem okP {ε α : Type} {e : Except ε α} {P : α → Bool} (h : okTest e P = true) : ∃ x, e = .ok x ∧ P x = true := by
  unfold okTest at h
  split at h
  · exact ⟨_, rfl, h⟩
  · cases h
theorem errorP {ε α : Type} {e : Except ε α} {P : ε → Bool} (h : (match e with | .ok _ => false | .error x => P x) = true) : ∃ x, e = .error x ∧ P x = true := by
  split at h
  · cases h
  · exact ⟨_, rfl, h⟩

/-- The fabric changed, at fabric cycle 15. -/
def sFab (f : Fabric → Fabric) : State := { r0 with cycle := 14, fabric := f { r0.fabric with cwcyc := some (0, 0) } }
/-- A schedule entry of an output in fabric cycle 15: valid, for input 3 and circuit 7. -/
def entryOf (r out : Nat) : Nat × BitVec 32 := ((r * 32 + out) * 256 + 15, BitVec.ofNat 32 (2 ^ 20 + 3 * 2 ^ 15 + 7))
def flitAt (r at_ circ : Nat) : CFlit := ⟨r, 3, circ, at_, true, somePacket⟩
def sCirc : State := sFab fun f => { f with
  bankA := [entryOf 2 8, entryOf 7 10, entryOf 9 16], cflits := [flitAt 2 13 7, flitAt 7 0 7, flitAt 9 0 7], cflight := [flitAt 2 15 7, flitAt 2 0 8, flitAt 7 16 7],
  transit := [⟨2, 7, 0, 1, 0, somePacket⟩, ⟨2, 6, 5, 9, 0, somePacket⟩, ⟨2, 5, 1, 1, 0, somePacket⟩], stops := [(2, 5, 1)] }

/-- Router 2 holds. -/
def sHeld : State := { sCirc with fabric := { sCirc.fabric with holds := [(2, 1)] } }

theorem none8 : ¬ routedHere sCirc.fabric 2 3 8 := by
  rintro ⟨e, he, h⟩
  have q : sCirc.fabric.bankA.all (fun e => !(natField e.2.toNat 7 0 == 8)) = true := by decide +kernel
  simpa [h.2.2.2] using List.all_eq_true.mp q e he

theorem witness_FlitRows : Obligations.FlitRows →
    exec (.packetFlitSend 2 8) sCirc = .fault .notEnabled ∧ exec (.packetFlitSend 2 7) sHeld = .fault .notEnabled ∧ runs (.packetFlitSend 2 7) sCirc ∧ runs (.packetFlitSend 2 6) sCirc ∧
    exec (.packetFlitSend 2 5) sCirc = .fault .notEnabled ∧ runs (.stopSignal 9 17 5 true) sCirc ∧
    exec (.circuitFlitArrival 7 3 7 somePacket true) sCirc = .fault .notEnabled ∧ runs (.circuitFlitArrival 2 3 7 somePacket true) sCirc ∧
    runs (.circuitFlitArrival 2 3 8 somePacket true) sCirc ∧ runs (.circuitFlitDepart 2 8) sCirc ∧ runs (.circuitFlitDepart 7 10) sCirc ∧
    runs (.circuitFlitDepart 9 16) sCirc ∧ runs (.cwentWrite (.host 0) 0xFF1F80FF) sCirc ∧ runs (.cwswapWrite (.host 0) 1) sCirc ∧
    runs .cwswapSwitch { sFab (fun f => { f with arm := true }) with cycle := 0 } ∧
    exec .cwswapSwitch (sFab fun f => { f with arm := true, period := 1 }) = .fault .notEnabled ∧ exec .cwswapSwitch (sFab fun f => { f with arm := true }) = .fault .notEnabled ∧
    runs (.linkTraining 17 false 0xFFFE none) r0 ∧ runs (.linkTraining 17 true 0 none) r0 := by
  intro h
  obtain ⟨c, hc⟩ := some_of (o := sCirc.circuitAt 2 8) (by decide +kernel)
  refine ⟨(h sCirc 2 8).1 c hc, (h sHeld 2 7).2.1 ?_, runs_and (((h sCirc 2 7).2.2.1 ?_ ?_ ?_).1 ⟨2, 7, 0, 1, 0, somePacket⟩ ?_),
    runs_and (((h sCirc 2 6).2.2.1 ?_ ?_ ?_).1 ⟨2, 6, 5, 9, 0, somePacket⟩ ?_),
    ((h sCirc 2 5).2.2.1 ?_ ?_ ?_).2 ?_, runs_and ((h sCirc 9 17).2.2.2.1 5 true ?_ ?_ ?_), ((h sCirc 7 3).2.2.2.2.1 7 somePacket true (flitAt 7 16 7) ?_).1 ?_,
    runs_and (((h sCirc 2 3).2.2.2.2.1 7 somePacket true (flitAt 2 15 7) ?_).2.1 ?_ ⟨entryOf 2 8, ?_⟩ ?_),
    runs_and (((h sCirc 2 3).2.2.2.2.1 8 somePacket true (flitAt 2 0 8) ?_).2.2 ?_ (.inl none8)),
    runs_and ((h sCirc 2 8).2.2.2.2.2.1 3 7 (flitAt 2 13 7) ?_ ?_ ?_ ?_), runs_and ((h sCirc 7 10).2.2.2.2.2.1 3 7 (flitAt 7 0 7) ?_ ?_ ?_ ?_),
    runs_and ((h sCirc 9 16).2.2.2.2.2.1 3 7 (flitAt 9 0 7) ?_ ?_ ?_ ?_), runs_and ((h sCirc 0 0).2.2.2.2.2.2.1 (.host 0) 0xFF1F80FF ?_),
    runs_and ((h sCirc 0 0).2.2.2.2.2.2.2.1 (.host 0) 1 ?_), runs_and ((h { sFab (fun f => { f with arm := true }) with cycle := 0 } 0 0).2.2.2.2.2.2.2.2.1 ?_ ?_ ?_ ?_),
    (h (sFab fun f => { f with arm := true, period := 1 }) 0 0).2.2.2.2.2.2.2.2.2.1 (.inr (.inl ?_)),
    (h (sFab fun f => { f with arm := true }) 0 0).2.2.2.2.2.2.2.2.2.1 (.inr (.inr ?_)),
    runs_and (((h r0 0 0).2.2.2.2.2.2.2.2.2.2 17 0xFFFE none ?_ ?_).1), runs_and (((h r0 0 0).2.2.2.2.2.2.2.2.2.2 17 0 none ?_ ?_).2 ?_ ?_)⟩ <;>
    decide +kernel

/-- A request of lane 31 of the strand, under tag 0; what comes back for it from peer 1; the lane's result that it fills. -/
def askOf (want tries : Nat) : Request := { reqOf want somePacket with lane := 31, tries := tries, lctr := some 0xFF8 }
def backOf (ptype value : Nat) : Packet := { (default : Packet) with ptype := ptype, src := 1, value := BitVec.ofNat 64 value }
def waitOf : LaneResult := ⟨31, 40, false, false, .fabric 5, 0, [], 0, 0, 0, 0⟩
def sReply (q : Request) : State := (withStrand fun st => { st with results := [waitOf] }).modCore 0 fun c => { c with requests := [q] }
/-- The clock stands where a request sent at reset times out, or 1 ns before; a tag rests until then; a lane waits for a notice. -/
def sLate (n : Nat) (q : Request) : State := { (sReply q).modCore 0 fun c => { c with coolTags := [(9, 100000)] } with cycle := n }
def noticeWait : Strand := { laneStrand with results := [⟨31, 40, false, false, .notice 0x10000000000 false 0, 0, [], 0, 0, 0, 0⟩] }
def sNotice : State := sLane.modCore 0 fun c => { c with parts := [(3, { Part.init with strands := [(0, noticeWait)] })] }

theorem witness_ReplyRows : Obligations.ReplyRows →
    runs (.replyArrival 0 (backOf 3 7)) sLane ∧ runs (.replyArrival 0 (backOf 3 7)) (sReply (askOf 3 0)) ∧ runs (.replyArrival 0 (backOf 14 0)) (sReply (askOf 14 0)) ∧
    runs (.replyArrival 0 (backOf 14 1)) (sReply (askOf 14 0)) ∧ runs (.replyArrival 0 (backOf 14 2)) (sReply (askOf 14 8)) ∧
    runs (.replyArrival 0 (backOf 14 2)) (sReply (askOf 14 7)) ∧ runs (.refusalArrival 0 (backOf 15 2)) (sReply (askOf 3 0)) ∧
    runs (.bulkAckArrival 0 (backOf 1 16)) (sReply (askOf 1 0)) ∧ exec (.requestTimeout 0 0) (sLate 139998 (askOf 3 0)) = .fault .notEnabled ∧
    runs (.requestTimeout 0 0) (sLate 140000 (askOf 3 0)) ∧ runs (.timedOutTagRelease 0 9) (sLate 140000 (askOf 3 0)) ∧
    exec (.timedOutTagRelease 0 9) (sLate 139998 (askOf 3 0)) = .fault .notEnabled ∧
    exec (.enqueueRetry 0 0) (sReply { askOf 14 1 with backoff := some 1 }) = .fault .notEnabled ∧
    runs (.enqueueRetry 0 0) (sReply { askOf 14 1 with backoff := some 0 }) ∧ runs (.rslotGetTimeout 0 0) sNotice := by
  intro h
  have g (v n : Nat) : gangHere (sReply (askOf v n)) 0 (askOf v n) 0 0 placeJob := ⟨rfl, rfl, rfl, rfl, rfl, by show 0 < 8; decide⟩
  have w (v n : Nat) : fillsLane (sReply (askOf v n)) 0 (askOf v n) 0 0 waitOf := ⟨rfl, ⟨.inl (by decide), rfl⟩, rfl⟩
  refine ⟨runs_and (((h sLane 0).1 (backOf 3 7) ?_ ?_ ?_).1 ?_),
    runs_and (((h (sReply (askOf 3 0)) 0).1 (backOf 3 7) ?_ ?_ ?_).2.1 (askOf 3 0) 0 0 waitOf ?_ (w 3 0) ?_),
    runs_and (((h (sReply (askOf 14 0)) 0).1 (backOf 14 0) ?_ ?_ ?_).2.1 (askOf 14 0) 0 0 waitOf ?_ (w 14 0) ?_),
    runs_and ((((h (sReply (askOf 14 0)) 0).1 (backOf 14 1) ?_ ?_ ?_).2.2 (askOf 14 0) ?_ ?_).1 0 0 placeJob (g 14 0) ?_),
    runs_and ((((h (sReply (askOf 14 8)) 0).1 (backOf 14 2) ?_ ?_ ?_).2.2 (askOf 14 8) ?_ ?_).1 0 0 placeJob (g 14 8) ?_),
    runs_and ((((h (sReply (askOf 14 7)) 0).1 (backOf 14 2) ?_ ?_ ?_).2.2 (askOf 14 7) ?_ ?_).2 ?_ ?_),
    runs_and ((h (sReply (askOf 3 0)) 0).2.1 (backOf 15 2) (askOf 3 0) 0 0 placeJob ?_ ?_ ?_ ?_ (g 3 0)),
    runs_and ((h (sReply (askOf 1 0)) 0).2.2.1 (backOf 1 16) (askOf 1 0) ?_ ?_ ?_),
    ((h (sLate 139998 (askOf 3 0)) 0).2.2.2.1 0 (askOf 3 0) ?_ ?_).1 ?_, runs_and (((h (sLate 140000 (askOf 3 0)) 0).2.2.2.1 0 (askOf 3 0) ?_ ?_).2 ?_),
    runs_and ((h (sLate 140000 (askOf 3 0)) 0).2.2.2.2.1 9 ?_), (h (sLate 139998 (askOf 3 0)) 0).2.2.2.2.2.1 9 ?_,
    ((h (sReply { askOf 14 1 with backoff := some 1 }) 0).2.2.2.2.2.2.1 0 { askOf 14 1 with backoff := some 1 } 1 ?_ ?_).1 ?_,
    runs_and (((h (sReply { askOf 14 1 with backoff := some 0 }) 0).2.2.2.2.2.2.1 0 { askOf 14 1 with backoff := some 0 } 0 ?_ ?_).2 ?_),
    runs_and ((h sNotice 0).2.2.2.2.2.2.2 3 noticeWait _ 0x10000000000 0 0 placeJob ?_ rfl rfl ⟨false, rfl⟩ ?_ ?_ ?_ ?_ ?_)⟩ <;> decide +kernel

theorem witness_CombiningRows : CombiningRows →
    (let s := sFab fun f => { f with combine := [⟨2, 15, [somePacket]⟩] }; exec (.combineRelease 2 0) s = .fault .notEnabled) ∧
    (let s := sFab fun f => { f with cwcomb := 1, combine := [⟨2, 14, [somePacket]⟩] }; runs (.combineRelease 2 0) s) ∧
    (let s := sFab fun f => { f with combine := [⟨7, 15, List.replicate 16 somePacket⟩] }; runs (.combineRelease 7 0) s) := by
  intro h
  refine ⟨(h (sFab fun f => { f with combine := [⟨2, 15, [somePacket]⟩] }) 2 0 ⟨2, 15, [somePacket]⟩ ?_).1 ?_ ?_,
    runs_and (((h (sFab fun f => { f with cwcomb := 1, combine := [⟨2, 14, [somePacket]⟩] }) 2 0 ⟨2, 14, [somePacket]⟩ ?_).2 ?_ ?_).1 _ rfl),
    runs_two (((h (sFab fun f => { f with combine := [⟨7, 15, List.replicate 16 somePacket⟩] }) 7 0 ⟨7, 15, List.replicate 16 somePacket⟩ ?_).2 ?_ ?_).2
      somePacket somePacket (List.replicate 14 somePacket) ?_)⟩ <;> decide +kernel

/-- What the device has delivered to itself. -/
def selfOf (p : Packet) : Packet := { p with src := 0, dst := 0 }
def sSelf (s : State) (p : Packet) : State := { s with fabric := { s.fabric with arrived := [selfOf p] } }
/-- A slot of port router 1 in use: expecting contributor 31, or 0 and 31, by addition of n32; a put of contributor 31. -/
def slotUsed (done : Bool) (ex : Nat) : RSlot := { RSlot.init with sgen := 3, used := true, ty := 2, expect := ex, tmo := 1, done := done }
def sSlotted (x : RSlot) : State := { r0 with fabric := { r0.fabric with slots := [(127, x)] } }
def handleOf (gen : Nat) : Word := BitVec.ofNat 64 (gen * 2 ^ 48 + 31 * 2 ^ 32 + 63 * 2 ^ 13 + 2 ^ 12)
def putOf (gen : Nat) : Packet := selfOf { (default : Packet) with ptype := 10, addr := handleOf gen, value := 8, aux := 0x06 }
/-- The same of tenant 5, which has no address space. -/
def other (p : Packet) : Packet := { p with tenant := 5 }
def allocOf : Packet := selfOf { (default : Packet) with ptype := 8, value := 0x8000000001000000 }
/-- All slots of port router 0, or all but the last, in use. -/
def sAllSlots (n : Nat) : State := { r0 with fabric := { r0.fabric with slots := (List.range n).map fun i => (i, slotUsed false 1), arrived := [allocOf] } }

theorem witness_ReductionSlotRows : Obligations.ReductionSlotRows →
    runs (.rslotAllocServe (selfOf (other allocOf))) (sSelf r0 (other allocOf)) ∧ runs (.rslotAllocServe allocOf) (sAllSlots 63) ∧ runs (.rslotAllocServe allocOf) (sAllSlots 64) ∧
    runs (.rslotPutArrival (selfOf (other (putOf 3)))) (sSelf r0 (other (putOf 3))) ∧
    runs (.rslotFreeArrival (selfOf (other { putOf 3 with ptype := 12 }))) (sSelf r0 (other { putOf 3 with ptype := 12 })) ∧
    runs (.rslotPutArrival (putOf 2)) (sSelf (sSlotted (slotUsed false 0x80000000)) (putOf 2)) ∧ runs (.rslotPutArrival (putOf 3)) (sSelf (sSlotted (slotUsed true 0x80000000)) (putOf 3)) ∧
    runs (.rslotPutArrival (putOf 3)) (sSelf (sSlotted (slotUsed false 0x80000000)) (putOf 3)) ∧
    exec (.rslotTimeout 1 63) { sSlotted (slotUsed false 1) with cycle := 1398 } = .fault .notEnabled ∧
    runs (.rslotTimeout 1 63) { sSlotted (slotUsed false 1) with cycle := 1400 } ∧
    runs (.noticeArrival (selfOf { putOf 3 with ptype := 11 })) (sSelf r0 { putOf 3 with ptype := 11 }) ∧
    runs (.rslotFreeArrival (selfOf { putOf 3 with ptype := 12 })) (sSelf (sSlotted (slotUsed true 1)) { putOf 3 with ptype := 12 }) ∧
    runs (.rslotFreeArrival (selfOf { putOf 2 with ptype := 12 })) (sSelf (sSlotted (slotUsed true 1)) { putOf 2 with ptype := 12 }) := by
  intro h
  refine ⟨runs_and (((h (sSelf r0 (other allocOf))).1 (selfOf (other allocOf)) ?_ ?_ ?_ ?_ _ rfl).1 ?_),
    runs_two (((h (sAllSlots 63)).1 allocOf ?_ ?_ ?_ ?_ _ rfl).2.1 63 ?_ ?_ ?_ ?_), runs_and (((h (sAllSlots 64)).1 allocOf ?_ ?_ ?_ ?_ _ rfl).2.2 ?_ ?_),
    runs_and (((h (sSelf r0 (other (putOf 3)))).2.1 (selfOf (other (putOf 3))) ?_ ?_).1 ?_),
    runs_and (((h (sSelf r0 (other { putOf 3 with ptype := 12 }))).2.1 (selfOf (other { putOf 3 with ptype := 12 })) ?_ ?_).2 ?_),
    runs_and (((h (sSelf (sSlotted (slotUsed false 0x80000000)) (putOf 2))).2.2.1 (putOf 2) _ _ _ _ ?_ ?_ ?_ rfl rfl rfl rfl).1 (.inr (.inl ?_))),
    runs_and (((h (sSelf (sSlotted (slotUsed true 0x80000000)) (putOf 3))).2.2.1 (putOf 3) _ _ _ _ ?_ ?_ ?_ rfl rfl rfl rfl).2.1 ?_ ?_ ?_),
    runs_and (((h (sSelf (sSlotted (slotUsed false 0x80000000)) (putOf 3))).2.2.1 (putOf 3) _ _ _ _ ?_ ?_ ?_ rfl rfl rfl rfl).2.2 ?_ ?_ ?_ ?_ ?_ ?_),
    ((h { sSlotted (slotUsed false 1) with cycle := 1398 }).2.2.2.1 1 63 _ ?_ rfl ?_ ?_).1 ?_,
    runs_and (((h { sSlotted (slotUsed false 1) with cycle := 1400 }).2.2.2.1 1 63 _ ?_ rfl ?_ ?_).2 ?_),
    runs_and ((h (sSelf r0 { putOf 3 with ptype := 11 })).2.2.2.2.1 (selfOf { putOf 3 with ptype := 11 }) ?_ ?_),
    runs_and (((h (sSelf (sSlotted (slotUsed true 1)) { putOf 3 with ptype := 12 })).2.2.2.2.2 (selfOf { putOf 3 with ptype := 12 }) _ _ ?_ ?_ ?_ rfl rfl).1 ?_),
    runs_and (((h (sSelf (sSlotted (slotUsed true 1)) { putOf 2 with ptype := 12 })).2.2.2.2.2 (selfOf { putOf 2 with ptype := 12 }) _ _ ?_ ?_ ?_ rfl rfl).2 ?_)⟩ <;>
    decide +kernel

/-- Five remote queues at 0x400000: closed, host queue 0, which is empty, host queue 1, which is full, a ring of 4 records at 0x1000
of the mapped page, and one of none. -/
def rqMem : Memory := [(0x400000, 5), (0x400020, 3), (0x400040, 3), (0x400048, 1), (0x400060, 1), (0x400068, 0x1000), (0x400070, 4), (0x400080, 1), (0x400088, 0x1000)].foldl
  (fun m e => m.write e.1 8 e.2) r1.mem
def sRemote (p : Packet) : State :=
  ({ r1 with mem := rqMem, fabric := { r1.fabric with rqbase := 0x400001, arrived := [selfOf p] } } : State).modQueue 0 (fun q => { q with qbase := 0x500000 }) |>.modQueue 1
    fun q => { q with qtail := 1 }
def getOf (at_ : Nat) : Packet := { (default : Packet) with ptype := 2, addr := BitVec.ofNat 64 at_, aux := 0x02 }
def addOf (at_ : Nat) : Packet := { getOf at_ with ptype := 4, value := 9 }
def bulkOf : Packet := { (default : Packet) with dcore := 287, laddr := 0x7FFFF0, dctr := 0xFF8, data := List.replicate 16 1 }
def mailOf : Packet := { (default : Packet) with ptype := 6, dcore := 287, laddr := 15, value := 3 }
def enqOf (n : Nat) : Packet := { (default : Packet) with ptype := 13, addr := BitVec.ofNat 64 (n * 2 ^ 16), data := List.replicate 64 1 }

def levelOk (o : Except (Nat × Nat) Walk) : Bool := match o with | .error e => decide (e.1 < 8) | .ok w => decide (w.level < 8)

theorem level_of (c : Nat) (o : Except (Nat × Nat) Walk) (h : levelOk o = true) :
    ∃ l, l < 8 ∧ Claim.endLevel c o l := by
  unfold Claim.endLevel
  split
  · exact ⟨0, by decide, rfl⟩
  · cases o with
    | error x => exact ⟨_, of_decide_eq_true h, rfl⟩
    | ok x => exact ⟨_, of_decide_eq_true h, rfl⟩

theorem witness_ServingRows : ServingRows →
    runs (.remoteRequestServe (selfOf (getOf 0x7FFC))) (sRemote (getOf 0x7FFC)) ∧ runs (.remoteRequestServe (selfOf (addOf 0x7FFC))) (sRemote (addOf 0x7FFC)) ∧
    runs (.remoteRequestServe (selfOf (getOf 0x8000))) (sRemote (getOf 0x8000)) ∧
    (let p := { getOf 0 with tenant := 5 }; runs (.remoteRequestServe (selfOf p)) (sRemote p)) ∧
    runs (.enqueueArrival (selfOf (other (enqOf 3)))) (sRemote (other (enqOf 3))) ∧ runs (.mailboxArrival (selfOf (other mailOf))) (sRemote (other mailOf)) ∧
    (let p := { bulkOf with tenant := 5 }; runs (.bulkPacketArrival (selfOf p)) (sRemote p)) ∧ runs (.bulkPacketArrival (selfOf bulkOf)) (sRemote bulkOf) ∧
    runs (.mailboxArrival (selfOf mailOf)) (sRemote mailOf) ∧ (let s := sSelf r0 (enqOf 0); runs (.enqueueArrival (selfOf (enqOf 0))) s) ∧
    (∀ n ∈ [0, 1, 2, 3, 4], runs (.enqueueArrival (selfOf (enqOf n))) (sRemote (enqOf n))) := by
  intro h
  obtain ⟨x, hx, px⟩ := okP (e := (sRemote (getOf 0x7FFC)).spaceXlate 0 0 .read 0x7FFC) (P := fun x => !x.2.lineBad x.1) (by decide +kernel)
  obtain ⟨y, hy, py⟩ := okP (e := (sRemote (addOf 0x7FFC)).spaceXlate 0 0 .atomic 0x7FFC) (P := fun x => !x.2.lineBad x.1) (by decide +kernel)
  obtain ⟨c, hc, pc⟩ := errorP (e := (sRemote (getOf 0x8000)).spaceXlate 0 0 .read 0x8000) (P := fun c => decide (0 < c) && decide (c < 8)) (by decide +kernel)
  obtain ⟨a, ha, pa⟩ := okP (e := (sRemote (enqOf 3)).spaceXlate 0 0 .atomic 0x1000) (P := fun x => x.1 == 0x241000 && (x.2.mem.read (x.1 + 8) 8 == 0 &&
    (x.2.mem.read x.1 8 == 0 && okTest (x.2.spaceXlate 0 0 .write 0x1040) fun z =>
      z.1 == 0x241040 && ((List.range 64).all (fun i => !z.2.writeDropped (z.1 + i)) && (List.range 8).all (fun i => !z.2.writeDropped (x.1 + 8 + i)))))) (by decide +kernel)
  obtain ⟨d, hd, pd⟩ := okP (e := (sRemote (enqOf 4)).spaceXlate 0 0 .atomic 0x1000) (P := fun _ => true) (by decide +kernel)
  simp only [Bool.and_eq_true, beq_iff_eq] at pa
  obtain ⟨p1, p2, p3, p4⟩ := pa
  obtain ⟨z, hz, pz⟩ := okP (e := a.2.spaceXlate 0 0 .write 0x1040) (P := fun z => z.1 == 0x241040 && ((List.range 64).all (fun i => !z.2.writeDropped (z.1 + i)) &&
    (List.range 8).all (fun i => !z.2.writeDropped (a.1 + 8 + i)))) p4
  simp only [Bool.and_eq_true, beq_iff_eq, List.all_eq_true, List.mem_range, Bool.not_eq_true', decide_eq_true_eq] at pz px py pc
  obtain ⟨l, hl1, hl2⟩ := level_of c ((sRemote (getOf 0x8000)).walk 0 (selfOf (getOf 0x8000)).addr.toNat) (by decide +kernel)
  obtain ⟨z1, z2, z3⟩ := pz
  have enq : ∀ n ∈ [0, 1, 2, 3, 4], runs (.enqueueArrival (selfOf (enqOf n))) (sRemote (enqOf n)) := by
    intro n hn
    simp only [List.mem_cons, List.not_mem_nil, or_false] at hn
    rcases hn with rfl | rfl | rfl | rfl | rfl
    · exact runs_and ((((h (sRemote (enqOf 0)) (selfOf (enqOf 0)) (by decide +kernel)).2.2.2.2 _ _ rfl (.inl rfl) (by decide +kernel) rfl rfl).2 (by decide +kernel) (by decide +kernel)
        (by decide +kernel) (by decide +kernel)).1 (by decide +kernel))
    · exact runs_and (((((h (sRemote (enqOf 1)) (selfOf (enqOf 1)) (by decide +kernel)).2.2.2.2 _ _ rfl (.inl rfl) (by decide +kernel) rfl rfl).2 (by decide +kernel) (by decide +kernel)
        (by decide +kernel) (by decide +kernel)).2.1 0 _ _ (by decide +kernel) (by decide +kernel) (by decide +kernel) rfl rfl).2 (by decide +kernel) (by decide +kernel)
          (by decide +kernel))
    · exact runs_and (((((h (sRemote (enqOf 2)) (selfOf (enqOf 2)) (by decide +kernel)).2.2.2.2 _ _ rfl (.inl rfl) (by decide +kernel) rfl rfl).2 (by decide +kernel) (by decide +kernel)
        (by decide +kernel) (by decide +kernel)).2.1 1 _ _ (by decide +kernel) (by decide +kernel) (by decide +kernel) rfl rfl).1 (by decide +kernel))
    · have e : (sRemote (enqOf 3)).mem.read (0x400060 + 16) 8 % 2 ^ 32 = 4 := by decide +kernel
      refine runs_and (((((h (sRemote (enqOf 3)) (selfOf (enqOf 3)) (by decide +kernel)).2.2.2.2 0x400060 _ rfl (.inl rfl) (by decide +kernel) (by decide +kernel) rfl).2 (by decide +kernel)
        (by decide +kernel) (by decide +kernel) (by decide +kernel)).2.2 0 0x1000 a.1 a.2 0 (by decide +kernel) (by decide +kernel) (by decide +kernel) (by decide +kernel)
        ha p2.symm).2 z.1 z.2 ?_ ?_ (by decide +kernel) z2 z3 ?_)
      · rw [p3, e]; decide
      · rw [e]; exact hz
      · rw [p1, z1]; decide
    · refine runs_and (((((h (sRemote (enqOf 4)) (selfOf (enqOf 4)) (by decide +kernel)).2.2.2.2 0x400080 _ rfl (.inl rfl) (by decide +kernel) (by decide +kernel) rfl).2 (by decide +kernel)
        (by decide +kernel) (by decide +kernel) (by decide +kernel)).2.2 0 0x1000 d.1 d.2 _ (by decide +kernel) (by decide +kernel) (by decide +kernel) (by decide +kernel)
        hd rfl).1 ?_)
      have e : (sRemote (enqOf 4)).mem.read (0x400080 + 16) 8 % 2 ^ 32 = 0 := by decide +kernel
      rw [e]; exact Nat.zero_le _
  refine ⟨runs_and ((h (sRemote (getOf 0x7FFC)) (selfOf (getOf 0x7FFC)) ?_).1 0 x.1 x.2 (.inl ?_) (.inl ?_) ?_ hx px),
    runs_and ((h (sRemote (addOf 0x7FFC)) (selfOf (addOf 0x7FFC)) ?_).1 0 y.1 y.2 (.inr ?_) (.inl ?_) ?_ hy py),
    runs_and ((h (sRemote (getOf 0x8000)) (selfOf (getOf 0x8000)) ?_).2.1 0 c l (.inl ?_) (.inl ?_) ?_ pc.1 pc.2 hl1 hc hl2),
    runs_and (((h (sRemote { getOf 0 with tenant := 5 }) (selfOf { getOf 0 with tenant := 5 }) ?_).2.2.1 ?_).1 (.inl ?_) (.inl ?_)),
    runs_and (((h (sRemote (other (enqOf 3))) (selfOf (other (enqOf 3))) ?_).2.2.1 ?_).2.1 ?_ (.inl ?_)),
    runs_and (((h (sRemote (other mailOf)) (selfOf (other mailOf)) ?_).2.2.1 ?_).2.2.1 ?_ ?_ ?_),
    runs_and (((h (sRemote { bulkOf with tenant := 5 }) (selfOf { bulkOf with tenant := 5 }) ?_).2.2.1 ?_).2.2.2 ?_ ?_ ?_ ?_),
    runs_and (((h (sRemote bulkOf) (selfOf bulkOf) ?_).2.2.2.1 ?_ ?_).1 ?_ ?_ ?_), runs_and (((h (sRemote mailOf) (selfOf mailOf) ?_).2.2.2.1 ?_ ?_).2 ?_ ?_),
    runs_and (((h (sSelf r0 (enqOf 0)) (selfOf (enqOf 0)) ?_).2.2.2.2 _ _ ?_ (.inl ?_) ?_ rfl rfl).1 (.inl ?_)), enq⟩ <;>
    decide +kernel
/-! ### Witnesses: the host's accesses, the boot and the Purser -/

theorem line_good {s : State} (h : s.badLines = []) (d : s.purser.deadStacks = []) {a : Nat} (u : a < 0xC000000000) : s.lineBad a = false := by
  unfold State.lineBad State.phys
  rw [h, d, if_pos u]
  rfl
theorem range_good {s : State} (h : s.badLines = []) (d : s.purser.deadStacks = []) {a n : Nat} (u : a + n < 0xC000000000) : goodLines s a n :=
  fun _ _ l => line_good h d (by omega)

/-- A read of BAR 0 completes. -/
theorem runs_reads {s : State} {p off v : Nat} (h : readsAs s p off v) : runs (.bar0AccessError p off 8 false) s := runs_eq h.1

theorem witness_RegisterRows : RegisterRows →
    exec (.registerWrite (.host 1) (.sys 0x220) 0x1000A) r0 = .next r0 ∧ exec (.registerWrite (.ctx 287 7) (.sys 0x200) 0x10000) r0 = .next r0 ∧
    runs (.registerWrite (.host 1) (.sys 0x228) 1) r0 ∧ runs (.registerWrite (.host 1) .bar2win (-1)) r0 ∧
    runs (.registerWrite (.host 1) (.qbase 63) (-1)) r0 ∧ runs (.registerWrite (.host 0) (.qbase 63) (-1)) r0 ∧ runs (.registerWrite (.host 1) (.msix 255 1) 1) r0 ∧
    runs (.readClear (.host 1) 0x22B) r0 ∧
    exec (.bar0AccessError 1 0xFFFFC 8 true) r0 = .next (r0.modPort 1 fun x => { x with ur := true, rdata := if true then x.rdata else 0 }) := by
  intro h
  obtain ⟨-, -, -, w, win, qb, ms, rc, ur, -⟩ := h r0 1 1 (by decide)
  refine ⟨(h r0 1 0x1000A (by decide)).2.1 0x220 ?_ ?_ ?_, (h r0 1 0x10000 (by decide)).2.2.1 (.ctx 287 7) 0x200 ?_ ?_ ?_ ?_ ?_, runs_and (w 0x228 ?_ ?_),
    runs_and (h r0 1 (-1) (by decide)).2.2.2.2.1, runs_and ((h r0 1 (-1) (by decide)).2.2.2.2.2.1 63 _ ?_ rfl),
    runs_and ((h r0 0 (-1) (by decide)).2.2.2.2.2.1 63 _ ?_ rfl), runs_and (ms 255 1 ?_ ?_), runs_and (rc 0x22B ?_), ur 0xFFFFC 8 true ?_ (.inr ?_)⟩ <;>
    first | decide +kernel | exact fun _ => nofun

theorem witness_RegisterReads : RegisterRows → runs (.bar0AccessError 1 0 8 false) r0 ∧ runs (.bar0AccessError 1 0x1160 8 false) r0 ∧
    runs (.bar0AccessError 1 (0x10008 + 64 * 63) 8 false) r0 ∧ runs (.bar0AccessError 1 (0x20000 + 8 * 511) 8 false) r0 ∧ runs (.bar0AccessError 1 0x30000 8 false) r0 ∧
    exec (.bar0AccessError 1 0x1800 4 true) r0 = .next r0 := by
  intro h
  obtain ⟨-, -, -, -, -, -, -, -, -, z, y, q, m, b, o⟩ := h r0 1 1 (by decide)
  refine ⟨runs_reads z, runs_reads (y 0x22C ?_ ?_ ?_), runs_reads (q 63 _ ?_ rfl).2.1, runs_reads (m 511 ?_), runs_reads b, o 4 0x1800 (.inl rfl) ?_ ?_ ?_⟩ <;> decide +kernel

/-- Port 1's window begins at 0, at the last 64 GiB of tier C, or where nothing is. -/
def sWin (w : Nat) : State := r0.modPort 1 fun p => { p with win := w }

theorem witness_HostMemoryRows : HostMemoryRows →
    runs (.hostBar2Read 1 0x100000 64) (sWin 0) ∧ runs (.hostBar2Read 1 0x100000 64) (sWin 15) ∧ runs (.hostBar2Write 1 0xFFFFFFFFF [7]) (sWin 0x17F) ∧
    runs (.hostBar2Write 1 0 [7, 8]) (sWin 0x180) ∧ (∀ op < 3, runs (.hostAtomicop 1 0x100008 true op 3 5) (sWin 0)) ∧
    exec (.hostAtomicop 1 0x100002 false 0 3 5) (sWin 0) = .next ((sWin 0).modPort 1 fun x => { x with ur := true }) := by
  intro h
  have g (n : Nat) (u : n < 100) : goodLines (sWin 0) (bar2 (sWin 0) 1 0x100000) n := range_good rfl rfl (by show 0 * 2 ^ 36 + 0x100000 + n < _; omega)
  have g8 : goodLines (sWin 0) (bar2 (sWin 0) 1 0x100008) 8 := range_good rfl rfl (by decide)
  refine ⟨runs_and ((h (sWin 0) 1 0x100000).1 64 ?_ ?_ (g 64 (by decide))), runs_and ((h (sWin 15) 1 0x100000).2.1 64 ?_ ?_),
    runs_and (((h (sWin 0x17F) 1 0xFFFFFFFFF).2.2.1 [7] ?_).1 ?_), runs_and (((h (sWin 0x180) 1 0).2.2.1 [7, 8] ?_).2 ?_),
    fun op ho => runs_two (((h (sWin 0) 1 0x100008).2.2.2 true 8 op 3 5 rfl ho (by decide +kernel)).1 (by decide) (by decide +kernel) g8 (by decide +kernel)),
    ((h (sWin 0) 1 0x100002).2.2.2 false 4 0 3 5 rfl ?_ ?_).2 ?_⟩ <;> decide +kernel

/-- Queue 63 of port 1, enabled, with 16 records at 0x100000, three of them pending; a write of QCTL waits, or none. -/
def qctl1 : Word := 0x8800002000000000
def sQ (w : Option Word) : State := r0.modQueue 63 fun q => { q with qctl := qctl1, qbase := 0x100000, qtail := 3, wait := w }

theorem witness_QueueRegisterRows : QueueRegisterRows →
    runs (.qctlWrite 1 63 5) (sQ none) ∧ runs (.qctlWrite 0 63 5) (sQ none) ∧ runs (.qctlApply 63) (sQ (some 0)) ∧ runs (.qctlApply 63) (sQ (some qctl1)) ∧
    exec (.qctlApply 63) (sQ none) = .fault .notEnabled ∧ runs (.qtailWrite 1 63 17) (sQ none) ∧ runs (.qtailWrite 1 63 16) (sQ none) := by
  intro h
  refine ⟨runs_and ((h (sQ none) 1 63 5 _ rfl ?_ ?_).1 ?_ (.inr ?_)), runs_and ((h (sQ none) 0 63 5 _ rfl ?_ ?_).2.1 ?_ ?_ ?_),
    runs_and (((h (sQ (some 0)) 0 63 0 _ rfl ?_ ?_).2.2.1 0 ?_).1 (.inr (.inr (.inl ?_)))),
    runs_and (((h (sQ (some qctl1)) 0 63 0 _ rfl ?_ ?_).2.2.1 qctl1 ?_).2 (.inl ?_) ?_ ?_ ?_ ?_ ?_), (h (sQ none) 0 63 0 _ rfl ?_ ?_).2.2.2.1 ?_,
    runs_and ((h (sQ none) 1 63 17 _ rfl ?_ ?_).2.2.2.2.1 (.inr ?_)), runs_and ((h (sQ none) 1 63 16 _ rfl ?_ ?_).2.2.2.2.2 ?_ ?_)⟩ <;> decide +kernel

/-- The Purser changed; a boot step that failed. -/
def sPurser (f : Purser → Purser) : State := { r0 with purser := f r0.purser }
def badStep : BootOutcome := ⟨true, false, [], 50000⟩

theorem witness_BootRows : BootRows →
    runs (.deviceReset [⟨false, false, [], 50000⟩]) r0 ∧ runs (.deviceReset [badStep]) r0 ∧ runs (.bootStepLimitExpiry 10) (sPurser fun p => { p with current := some 10 }) ∧
    exec (.bootStepLimitExpiry 10) (sPurser fun p => { p with current := some 9 }) = .fault .notEnabled := by
  intro h
  refine ⟨runs_and ((h r0).2.1 [⟨false, false, [], 50000⟩] ?_ ?_ ?_), runs_and ((h r0).2.2.1 badStep ?_ ?_ ?_),
    runs_and (((h (sPurser fun p => { p with current := some 10 })).2.2.2.1 10 ?_).2 (.inr rfl)), (h (sPurser fun p => { p with current := some 9 })).2.2.2.2 10 ?_⟩ <;>
    decide +kernel

/-- A line waits to be spared, while its stack has a spare row left, or none; a request of attestation 5 waits at 10 ms. -/
def sSpare (n : Nat) : State := sPurser fun p => { p with sparing := [4], spares := [(0, n)] }
def sRequest : State := { r0 with cycle := 14000000, mem := Memory.write [] 0x1020 8 5 }

theorem witness_PurserRows : PurserRows →
    runs (.blockHold 7 179 9) r0 ∧ exec (.issuePass 287 3) (r0.modPart 287 3 fun x => { x with hold := 1 }) = .fault .notEnabled ∧
    exec (.landingBankServe 287 5) (r0.modCore 287 fun x => { x with hold := 1 }) = .fault .notEnabled ∧
    runs .powerStatusUpdate { r0 with cycle := 14000000 } ∧ exec .powerStatusUpdate { r0 with cycle := 13999999 } = .fault .notEnabled ∧
    runs (.errorHistoryEntry (.hbmLine 0x105) true false 3) r0 ∧ runs (.errorHistoryEntry (.core 287) false true 3) r0 ∧ runs (.rowSpare 0x13F) (sSpare 511) ∧
    runs (.rowSpare 0x13F) (sSpare 512) ∧ exec (.rowSpare 0x140) (sSpare 0) = .fault .notEnabled ∧ runs .attestationPoll sRequest ∧
    runs .attestationPoll { r0 with cycle := 14000000 } := by
  intro h
  obtain ⟨hold, -, -, -, -, eh, -, -, -⟩ := h r0
  refine ⟨runs_and (hold 7 179 9 ?_), (h _).2.1 287 3 ?_, (h _).2.2.1 287 5 ?_, runs_and ((h { r0 with cycle := 14000000 }).2.2.2.1 ?_),
    (h { r0 with cycle := 13999999 }).2.2.2.2.1 ?_,
    runs_and (eh (.hbmLine 0x105) true false 3 _ ?_ rfl), runs_and (eh (.core 287) false true 3 _ ?_ rfl),
    runs_and (((h (sSpare 511)).2.2.2.2.2.2.1 0x13F ?_ ?_).1 ?_), runs_and (((h (sSpare 512)).2.2.2.2.2.2.1 0x13F ?_ ?_).2 ?_), (h (sSpare 0)).2.2.2.2.2.2.2.1 0x140 ?_,
    runs_and (((h sRequest).2.2.2.2.2.2.2.2 5 ?_ ?_).1 ?_ ?_), runs_and (((h { r0 with cycle := 14000000 }).2.2.2.2.2.2.2.2 0 ?_ ?_).2 ?_)⟩ <;> decide +kernel
/-! ### Witnesses: the machine -/

theorem witness_EncodingRoundTrip : Obligations.EncodingRoundTrip →
    decode (encode (.add (sx 63 0 1))) = .ok (.add (sx 63 0 1)) ∧ decode (encode (.tres (ef (opT 31) (opX 63) (opX 0) (opX 0) 0))) = .ok (.tres (ef (opT 31) (opX 63) (opX 0) (opX 0) 0)) ∧
    decode (encode (.iadd ⟨true, 0, 127, 0, 127⟩)) = .ok (.iadd ⟨true, 0, 127, 0, 127⟩) ∧
    decode (encode (.iaddLong (lf 127 0 1 31 15 0xFFFF))) = .ok (.iaddLong (lf 127 0 1 31 15 0xFFFF)) := by
  intro h
  refine ⟨h _ ?_ ⟨?_, fun _ _ e => (by cases e), fun _ _ e => (by cases e)⟩, h _ ?_ ⟨?_, fun _ _ e => (by cases e), fun _ _ e => (by cases e)⟩,
    h _ ?_ ⟨?_, fun _ _ e => (by cases e), fun _ _ e => (by cases e)⟩, h _ ?_ ⟨?_, fun _ _ e => (by cases e), fun _ _ e => (by cases e)⟩⟩ <;> decide +kernel

theorem witness_LaneWordsKept : Obligations.LaneWordsKept →
    encode (.iadd ⟨false, 7, 3, 4, 5⟩) = [0b000001_0_0_111_0000011_0000100_0000101] := by
  intro h
  exact (h 0b000001_0_0_111_0000011_0000100_0000101 0 (.iadd ⟨false, 7, 3, 4, 5⟩) rfl).2.trans (by decide +kernel)

/-- One agenda entry is left. -/
noncomputable def sAgenda : State := { r0 with agenda := [(3, .hangctlWrite 287 3 5)] }

/-- The words at the PC of the one unit that issues are fetched, decoded and run. -/
theorem words_of {s0 : State} {k p : Nat} {i : Instr}
    (h : (match s0.unitsNow k p with
      | [(b, none)] => (match s0.fetchLane k p b.gang (maskClass false ((passOf [b]).map (fun r => r.lane))) b.pc with
        | .ok x => (match decodeLane x.1 x.2.1 with
          | .ok j => j == i && (match exec i { x.2.2 with turn := ⟨k, 0, p, passOf [b]⟩ } with | .next _ => true | _ => false)
          | .error _ => false)
        | .error _ => false)
      | _ => false) = true) :
    ∃ b w0 w1 s1 t, s0.unitsNow k p = [(b, none)] ∧
      s0.fetchLane k p b.gang (maskClass false ((passOf [b]).map (fun r => r.lane))) b.pc = .ok (w0, w1, s1) ∧
      decodeLane w0 w1 = .ok i ∧ exec i { s1 with turn := ⟨k, 0, p, passOf [b]⟩ } = .next t := by
  split at h
  · rename_i b e
    split at h
    · rename_i x e2
      split at h
      · rename_i j e3
        have g := Bool.and_eq_true_iff.mp h
        have hj : j = i := eq_of_beq g.1
        have h2 := g.2
        split at h2
        · rename_i t e4
          exact ⟨b, x.1, x.2.1, x.2.2, t, e, e2, hj ▸ e3, e4⟩
        · cases h2
      · cases h
    · cases h
  · cases h

/-- Queue 63 holds a write of QCTL that must be applied in this cycle. -/
def sDue : State := { (sQ (some 0)) with cycle := 2800 }

theorem witness_StepRunsDecodedInstruction : Obligations.StepRunsDecodedInstruction →
    (∃ t, step sAgenda = .next t ∧ (t.part 287 3).hangNew = some 5 ∧ t.cycle = 3) ∧
    (∃ t, step sDue = .next t ∧ (t.queue 63).wait = none) ∧ (Config.cycleEnds r0.tick = true → step r0 = .next { r0 with tick := 1 }.passTime) ∧
    (Config.cycleEnds r0.tick = false → Config.nextTurn r0.tick = .hangctlWrite 0 0 5 → ∃ t, step r0 = .next t) ∧
    (Config.cycleEnds r0.tick = false → Config.nextTurn r0.tick = .hangctlWrite 288 0 5 → ∃ t, step r0 = .next t) ∧
    runs (.issuePass 0 0) sPass ∧
    (∃ mkR : SFields → SlotRun, codeRow scalarMeans 0x76 = some mkR ∧ ∀ z, exec (.nop (sx 0 0 0)) z = issueOne 0 (mkR (sx 0 0 0)) z) := by
  intro h
  have idle : ({ r0 with tick := r0.tick + 1 } : State).runDue = none := by decide +kernel
  have due : (match ({ sDue with tick := sDue.tick + 1 } : State).runDue with | some t => (t.queue 63).wait.isNone | none => false) = true := by decide +kernel
  obtain ⟨b, w0, w1, s1, t, e1, e2, e3, e4⟩ := words_of (s0 := passing sPass) (k := 0) (p := 0) (i := .iadd ⟨false, 7, 3, 4, 5⟩) (by decide +kernel)
  obtain ⟨mkR, r1, r2⟩ := (h r0).2.2.2.1 0x76 _ (sx 0 0 0) rfl
  refine ⟨⟨_, (h sAgenda).1 3 _ [] rfl, ?_, ?_⟩, ?_, (((h r0).2.1 _ rfl rfl).2 idle).2.1, fun e c => ?_, fun e c => ?_,
    runs_and ((h sPass).2.2.1 0 0 b w0 w1 _ s1 _ _ t ?_ ?_ rfl ?_ e1 e2 e3 rfl e4), ⟨mkR, r1, r2⟩⟩
  · decide +kernel
  · decide +kernel
  · split at due
    · rename_i t e
      exact ⟨t, (((h sDue).2.1 _ rfl rfl).1 t e).1, by simpa using due⟩
    · cases due
  · exact ⟨_, ((((h r0).2.1 _ rfl rfl).2 idle).2.2 _ e c.symm).1 (by decide +kernel) _ rfl⟩
  · exact ⟨_, ((((h r0).2.1 _ rfl rfl).2 idle).2.2 _ e c.symm).2 (.inl (by decide +kernel))⟩
  all_goals decide +kernel

theorem witness_GlobalMemoryCanonicalKept : Obligations.GlobalMemoryCanonicalKept →
    (match step sAgenda with | .next t => t.mem.wf | _ => false) = true := by
  intro h
  exact h sAgenda _ (by decide +kernel) rfl

theorem witness_TrapEntry : Obligations.TrapEntry →
    ((r0.takeTrap 287 7 ⟨0, 0, 1, 0x40, 3, none⟩ .align 0x1001 0).ctx 287 7).stopped = true := by
  intro h
  obtain ⟨⟨r, e, -⟩, -⟩ := h r0 287 7 ⟨0, 0, 1, 0x40, 3, none⟩ .align 0x1001 0 _ rfl (by decide +kernel)
  rw [e]

/-- A nest of 1,024 by 1 by 1 by 1 by 1 by 3 steps. -/
def nest : Task := { Task.init with words := Memory.write [] 32 8 (1023 + 2 * 2 ^ 50) }
theorem witness_StepNestOrder : Obligations.StepNestOrder → (∀ d < 6, nest.stepPos 3071 d < nest.extent d) ∧ Task.init.numSteps = 1 := by
  intro h
  exact ⟨((h nest).2.2.2.2 3071 (by decide +kernel)).1, (h Task.init).2.1 (by decide +kernel)⟩
/-! ### Well-formedness: an ill-formed term for each check -/

theorem test_wf_core : (Instr.bundleIssue 287).wf = true ∧ (Instr.bundleIssue 288).wf = false := by decide
theorem test_wf_context : (Instr.stepStart 287 7).wf = true ∧ (Instr.stepStart 0 8).wf = false := by decide
theorem test_wf_partition : (Instr.issuePass 0 3).wf = true ∧ (Instr.issuePass 0 4).wf = false := by decide
theorem test_wf_strand_slot : (Instr.strandFinish 0 3 31).wf = true ∧ (Instr.strandFinish 0 3 32).wf = false := by decide
theorem test_wf_die : (Instr.spawnUnpark 7).wf = true ∧ (Instr.spawnUnpark 8).wf = false := by decide
theorem test_wf_port : (Instr.hostBar2Read 1 0 1).wf = true ∧ (Instr.hostBar2Read 2 0 1).wf = false := by decide
theorem test_wf_waiter : (Instr.evpostWrite 0 (.strand 3 31) 0).wf = true ∧ (Instr.evpostWrite 0 (.strand 4 0) 0).wf = false ∧
    (Instr.evpostWrite 0 (.ctx 8) 0).wf = false := by decide
theorem test_wf_issuer : (Instr.retry (.host 1) 0).wf = true ∧ (Instr.retry (.host 2) 0).wf = false ∧ (Instr.retry (.ctx 288 0) 0).wf = false ∧
    (Instr.retry (.strand 0 0 32) 0).wf = false := by decide
theorem test_wf_event_slot : (Instr.eventFire 0 (.ctx 0) 15).wf = true ∧ (Instr.eventFire 0 (.ctx 0) 16).wf = false := by decide
theorem test_wf_channel : (Instr.transferStart 0 3).wf = true ∧ (Instr.transferStart 0 4).wf = false := by decide
theorem test_wf_bank : (Instr.landingBankServe 0 63).wf = true ∧ (Instr.landingBankServe 0 64).wf = false := by decide
theorem test_wf_queue : (Instr.qpushServe 0 15).wf = true ∧ (Instr.qpushServe 0 16).wf = false := by decide
theorem test_wf_reduction_slot : (Instr.rslotTimeout 1 63).wf = true ∧ (Instr.rslotTimeout 1 64).wf = false := by decide
theorem test_wf_figures : (Instr.hardBoundFigure 0x7F default).wf = false ∧ (Instr.routineBoundFigure 0x6F default).wf = false ∧
    (Instr.unboundFigureIssue 0x22 default).wf = false ∧ (Instr.unboundFigureIssue 0x23 default).wf = true ∧ (Instr.retiredFigureIssue 0x23 default).wf = false := by decide
theorem test_wf_rslot : (Instr.rslotAlloc { (default : LLong) with mod := 1 }).wf = false ∧ (Instr.rslotFree { (default : LLong) with mod := 3 }).wf = true := by decide
theorem test_wf_retired_opcode : (Instr.retiredLaneOpcode 0xF4000000 0).wf = false ∧ (Instr.retiredLaneOpcode 0xF8000000 1).wf = false ∧
    (Instr.retiredLaneOpcode 0xFA000000 1).wf = true := by decide

/-! ### Decoding: words worked out in the spec, or written out from its tables -/

/-- The slot of 04 R86's example: `add x7, x7, #1`. -/
theorem test_word_add_imm : decodeScalar 0x43F1C3800001 none = .ok (.addI ⟨7, false, 7, false, 0, 1, none⟩) ∧ slotGuard 0x43F1C3800001 = 31 := ⟨rfl, by decide⟩
/-- The short form of 04 R91's example: `?!p2 fadd.f32 v4, v5, v6`. -/
theorem test_word_fadd : decodeLane 0x41410286 0 = .ok (.fadd ⟨true, 2, 4, 5, 6⟩) := rfl
/-- The long form of 04 R91's example: `ffma.f32 v4, v5, v6, v7`. -/
theorem test_word_ffma : decodeLane 0x86E10286 0x01C00007 = .ok (.ffma ⟨false, 7, 4, 5, 6, 0x0E, false, 0, 7⟩) := rfl

theorem test_word_cmp : decodeScalar 0b0111010_00000_001110_0_000001_0_000010_0000000000000000 none = .ok (.cmpLtS ⟨14, false, 1, false, 2, 0, none⟩) := rfl
theorem test_word_ld_l : decodeScalar 0b1001101_11111_000011_0_000100_0_000000_1111111111111110 none = .ok (.ldLB16S ⟨3, false, 4, false, 0, 0xFFFE, none⟩) := rfl
theorem test_word_st_g : decodeScalar 0b1100011_11111_000000_0_000100_0_000101_0000000000001000 none = .ok (.stGB64 ⟨0, false, 4, false, 5, 8, none⟩) := rfl
theorem test_word_ld_g_extension : decodeScalar 0b1011011_11111_000011_1_000100_0_000000_0000000000000001 (some 2) =
    .ok (.ldGB64 ⟨3, true, 4, false, 0, 1, some 2⟩) := rfl
theorem test_word_spawn : decodeScalar 0b1100101_11111_000011_0_000100_0_000000_0000000000000000 none = .ok (.spawn ⟨3, false, 4, false, 0, 0, none⟩) := rfl
theorem test_word_cwr : decodeScalar 0b1110000_11111_000000_0_000100_0_000000_0000000000000000 none = .ok (.cwr ⟨0, false, 4, false, 0, 0, none⟩) := rfl
theorem test_word_fwalk : decodeScalar 0b1111011_11111_000001_0_000100_0_000000_0000000000000001 none = .ok (.fwalk ⟨1, false, 4, false, 0, 1, none⟩) := rfl
theorem test_word_scalar_reserved : decodeScalar 0 none = .error .scalarUnassigned ∧ decodeScalar 0b1001111_11111_000000_0_000000_0_000000_0000000000000000 none =
    .error (.scalarReserved 0x4F) ∧ decodeScalar 0b0011100_11111_000000_0_000000_0_000000_0000000000000000 none = .error (.scalarReserved 0x1C) := ⟨rfl, rfl, rfl⟩

theorem test_word_mma : decodeEngine 0b00010000_11111_100_01_000001_0_00_000010_1_00_000011_0_11_000000_0_000000000101 =
    .mmaBf16 ⟨4, ⟨1, 1, false⟩, ⟨0, 2, true⟩, ⟨0, 3, false⟩, ⟨3, 0, false⟩, 5⟩ := rfl
theorem test_word_ttrans : decodeEngine 0b01001100_11111_000_00_000001_0_00_000010_0_11_000000_0_11_000000_0_000000000000 =
    .ttrans ⟨0, ⟨0, 1, false⟩, ⟨0, 2, false⟩, ⟨3, 0, false⟩, ⟨3, 0, false⟩, 0⟩ := rfl
theorem test_word_figures : (decodeEngine 0x2100000000000000 matches .retiredFigureIssue _ _) = true ∧ (decodeEngine 0x1B00000000000000 matches .unboundFigureIssue _ _) = true ∧
    (decodeEngine 0xFF00000000000000 matches .routineBoundFigure _ _) = true := ⟨rfl, rfl, rfl⟩

theorem test_word_imad : decodeLane 0b100000_1_0_111_0000100_0000101_0000110 0b000001_00110_0_0000_000000000_0000111 = .ok (.imad ⟨false, 7, 4, 5, 6, 6, false, 0, 7⟩) := rfl
theorem test_word_dsetp : decodeLane 0b100010_1_0_111_0000001_0000100_0000110 0b000011_01111_0_0010_0000000000000000 = .ok (.dsetp ⟨false, 7, 1, 4, 6, 15, false, 2, 0⟩) := rfl
theorem test_word_cvt_mx : decodeLane 0b100011_1_0_111_0000001_0000100_0000110 0b000001_00000_0_0000_0000000000010011 = .ok (.cvtMx ⟨false, 7, 1, 4, 6, 0, false, 0, 0x13⟩) := rfl
theorem test_word_stx : decodeLane 0b100100_1_0_111_0000000_0000100_0000110 0b000110_00010_0_0000_000000010_0000101 = .ok (.stx ⟨false, 7, 0, 4, 6, 2, false, 0, 0x105⟩) := rfl
theorem test_word_qpop : decodeLane 0b100101_1_0_111_0000110_0000000_0000000 0b000100_00010_0_0000_0000000000001111 = .ok (.qpop ⟨false, 7, 6, 0, 0, 2, false, 0, 15⟩) := rfl
theorem test_word_join : decodeLane 0b100110_1_0_111_0000111_0000000_0011111 0b000100_00000_1_0011_1111111111111111 = .ok (.join ⟨false, 7, 7, 0, 31, 0, true, 3, 0xFFFF⟩) := rfl
theorem test_word_vote : decodeLane 0b100111_1_0_111_0000110_0000111_0000000 0b000011_00000_0_0110_0000000000000000 = .ok (.vote ⟨false, 7, 6, 7, 0, 0, false, 6, 0⟩) := rfl
theorem test_word_wany : decodeLane 0b101000_1_0_111_0000000_0000000_0000000 0b000010_00000_0_0000_1000000000000000 = .ok (.wany ⟨false, 7, 0, 0, 0, 0, false, 0, 0x8000⟩) := rfl
theorem test_word_rslot_put : decodeLane 0b101001_1_0_111_0000000_0010100_0000100 0b000011_01110_0_0001_0000000000000000 =
    .ok (.rslotPut ⟨false, 7, 0, 20, 4, 14, false, 1, 0⟩) := rfl
theorem test_word_fbar : decodeLane 0b101010_1_0_111_0000000_0000000_0000000 0b000110_00000_0_0000_0000000000000000 = .ok (.laneFbar ⟨false, 7, 0, 0, 0, 0, false, 0, 0⟩) := rfl
theorem test_word_retired : decodeLane 0xF8000000 0 = .ok (.retiredLaneOpcode 0xF8000000 0) := rfl
theorem test_word_lane_reserved : decodeLane 0x7C000000 0 = .error (.laneReserved 0x1F) ∧ decodeLane 0x80000000 0 = .error (.groupShort 0x20) ∧
    decodeLane 0x06000000 0x04000000 = .error (.subReserved 1 1) ∧ decodeLane 0x82000000 0x38000000 = .error (.subReserved 0x20 14) := ⟨rfl, rfl, rfl, rfl⟩

/-- The bundle of 02 R41 with one operation in S1 and its extension word. -/
theorem test_word_bundle : (decodeBundle (encodeBundle { (default : Bundle) with s1p := true, xown := 2, s1 := 0x43F1C3800001, x := 5 })).ext 1 = some 5 ∧
    decodeTableWord 64 (0x01C00007 * 2 ^ 32 + 0x86E10286) = some (.ffma ⟨false, 7, 4, 5, 6, 0x0E, false, 0, 7⟩) := ⟨rfl, rfl⟩

/-! ### Objects (22 R421 to R428) -/

/-- The lane veneer that R425 writes out. -/
theorem test_lane_veneer : (laneVeneer 0x0000004123456780).flatMap encode =
    [0x82FF8000, 0x31406780, 0x82FF8000, 0x31412345, 0x82FFC000, 0x31400041, 0x82FFC000, 0x31410000, 0x9AE03F00, 0x04000000] := by decide +kernel
/-- A tree leaf 300 bundles away: a veneer within 128 bundles when it is far, else a link error (R428). -/
theorem test_far_leaf : linkValue 6 true false false (300 * 32) 0 [200 * 32, 100 * 32] = some 100 ∧
    linkValue 6 false false false (300 * 32) 0 [100 * 32] = none ∧ linkValue 6 true false false (300 * 32) 0 [128 * 32] = none ∧
    linkValue 5 false false false (300 * 32) 0 [] = some 300 := by decide +kernel
theorem test_reloc_limits : relocValue 2 false false (2 ^ 32) 0 = none ∧ relocValue 9 false false 0x7F 0 = none ∧ relocValue 8 false false 6 0 = none ∧
    relocValue 4 true false (2 ^ 50) 32 = some (2 ^ 45 - 1) ∧ relocValue 4 false false (2 ^ 50) 32 = none := by decide +kernel
/-- A backward distance stands in the immediate and in X; the first offset stands in the low bits of the tree slot. -/
theorem test_patch : (decodeBundle (patchBundle 4 0 (encodeBundle { (default : Bundle) with xown := 1 }) (-2))).ext 0 = some 0xFFFFFFFF ∧
    (decodeBundle (patchBundle 4 0 0 (-2))).s0 = 0xFFFE ∧ (decodeBundle (patchBundle 5 0 0 (-1))).b = 0xFFF ∧
    (decodeBundle (patchBundle 6 3 0 5)).x = 0x05000000 ∧ (decodeBundle (patchBundle 9 2 0 0x80)).e = 0x8000000000000000 := by decide +kernel
/-- Three figure symbols and two free numbers: the load fails; with three it gives the lowest (R424, R428). -/
def figSym (n : Nat) : YofSymbol := ⟨n, none, 0, true, .figure⟩
def sFigures (n : Nat) : State := r0.modSpace 5 fun sp => { sp with figures := (List.range n).map fun i => (0x80 + i, 1 <<< 62) }
theorem test_load : (sFigures 126).loadFigures 5 [figSym 0, figSym 1, figSym 2] = none ∧
    ((sFigures 125).loadFigures 5 [figSym 0, figSym 1, figSym 2]).map (·.map Prod.snd) = some [0xFD, 0xFE, 0xFF] := by decide +kernel

/-- The header flit of a bulk packet of 130 bytes (19 R372). -/
def bulk130 : Packet := { (default : Packet) with circ := 5, src := 1, dst := 2, gen := 3, tag := 4, vclass := 2, tenant := 7, dcore := 287, laddr := 0x1000, dctr := 8, aux := 130, data := List.replicate 130 0 }
theorem test_header : pktHeader bulk130 true =
    [0b0000_0010_00000101_000000000001_000000000010_0011_0000000100_10_1_0000000, 0b0000000000000111_100011111_0000000_00000000000000000001000000000000, 0, 0,
      0x800000082, 0, 0, 0] := by decide +kernel
/-! ### Steps with the results the spec works out, or that follow by hand from its rules -/

/-- x[n] of context 0 of core 0 after the instruction. -/
def xAfter (i : Instr) (s : State) (n : Nat) : Option Word := match exec i s with | .next t => some ((t.ctx 0 0).getX n) | _ => none
/-- Condition bits after the instruction. -/
def cAfter (i : Instr) (s : State) : Option (BitVec 16) := match exec i s with | .next t => some (t.ctx 0 0).c | _ => none
/-- v[n] of lanes 0 and 31 after the instruction, and the numeric flags of their context. -/
def vAfter (i : Instr) (s : State) (n : Nat) : Option (Nat × Nat × BitVec 32) :=
  match exec i s with | .next t => some ((t.lane 0 0 0 0).getV n, (t.lane 0 0 0 31).getV n, (t.ctx 0 0).numflags) | _ => none
/-- v[n] of lane 0 set. -/
def withV (l : List (Nat × Nat)) : State := withStrand fun st => st.modLane 0 fun x => l.foldl (fun y e => y.setV e.1 e.2) x
def withX (l : List (Nat × Word)) : State := withCtx fun c => l.foldl (fun y e => y.setX e.1 e.2) c

theorem test_add_wraps : xAfter (.add (sx 3 4 5)) (withX [(4, -1), (5, 2)]) 3 = some 1 := by decide +kernel
theorem test_add_source_is_destination : xAfter (.add (sx 4 4 4)) (withX [(4, 21)]) 4 = some 42 := by decide +kernel
theorem test_x0_discards : xAfter (.add (sx 0 4 4)) (withX [(4, 21)]) 0 = some 0 := by decide +kernel
theorem test_sub_order : xAfter (.sub (sx 3 4 5)) (withX [(4, 3), (5, 5)]) 3 = some (-2) := by decide +kernel
theorem test_mulh_signed : xAfter (.mulhS (sx 3 4 5)) (withX [(4, -1), (5, 2)]) 3 = some (-1) := by decide +kernel
theorem test_mulh_unsigned : xAfter (.mulhN (sx 3 4 5)) (withX [(4, -1), (5, 2)]) 3 = some 1 := by decide +kernel
/-- 05 R99: the one signed quotient that does not fit, and its remainder. -/
theorem test_div_overflow : xAfter (.divS (sx 3 4 5)) (withX [(4, 0x8000000000000000), (5, -1)]) 3 = some 0x8000000000000000 ∧
    xAfter (.remS (sx 3 4 5)) (withX [(4, 0x8000000000000000), (5, -1)]) 3 = some 0 := by decide +kernel
theorem test_div_truncates : xAfter (.divS (sx 3 4 5)) (withX [(4, -7), (5, 2)]) 3 = some (-3) ∧
    xAfter (.remS (sx 3 4 5)) (withX [(4, -7), (5, 2)]) 3 = some (-1) := by decide +kernel
theorem test_shr_s : xAfter (.sra (sx 3 4 5)) (withX [(4, -8), (5, 65)]) 3 = some (-4) := by decide +kernel
theorem test_shr_n : xAfter (.shr (sx 3 4 5)) (withX [(4, -8), (5, 1)]) 3 = some 0x7FFFFFFFFFFFFFFC := by decide +kernel
theorem test_clz_zero : xAfter (.clz (sx 3 4 0)) (withX [(4, 0)]) 3 = some 64 := by decide +kernel
/-- 05's pair `li`, `lih`: each half of 0xFEDC_1234_5678_9ABC. -/
theorem test_li : xAfter (.li ⟨4, false, 0, false, 0, 0x9ABC, some 0x12345678⟩) r0 4 = some 0x123456789ABC := by decide +kernel
theorem test_lih : xAfter (.lih (si 4 0 0xFEDC)) (withX [(4, 0x123456789ABC)]) 4 = some 0xFEDC123456789ABC := by decide +kernel
theorem test_cmp_signed : cAfter (.cmpLtS (sx 7 4 5)) (withX [(4, -1), (5, 1)]) = some 0x80 := by decide +kernel
theorem test_cmp_unsigned : cAfter (.cmpLtN (sx 7 4 5)) (withX [(4, -1), (5, 1)]) = some 0 := by decide +kernel
/-- 05 R88's example: `cmp.lt.s c2, x4, x5`. -/
theorem test_word_cmp_example : decodeScalar 0x75F082050000 none = .ok (.cmpLtS ⟨2, false, 4, false, 5, 0, none⟩) := rfl

/-- 07 R157: 3 − 5 under `.sat.n32`. -/
theorem test_isub_sat : vAfter (.isubLong (lf 6 4 5 0x0A 1 0)) (withV [(4, 3), (5, 5)]) 6 = some (0, 0, 8) := by decide +kernel
theorem test_iadd_sat : vAfter (.iaddLong (lf 6 4 5 0x06 1 0)) (withV [(4, 0x7FFFFFFF), (5, 1)]) 6 = some (0x7FFFFFFF, 0x2015, 8) := by decide +kernel
/-- 07 R158's selectors. -/
theorem test_prmt : vAfter (.prmt (lf 6 4 5 0x02 0 0x688)) (withV [(4, 0x12345685)]) 6 = some (0x12345685, 5, 0) ∧
    vAfter (.prmt (lf 6 4 5 0x02 0 0x053)) (withV [(4, 0x12345685)]) 6 = some (0x85563412, 0x05000000, 0) ∧
    vAfter (.prmt (lf 6 4 5 0x02 0 0xE000)) (withV [(4, 0x12345685)]) 6 = some (0xFFFFFF85, 5, 0) := by decide +kernel
/-- 07 R159's pair. -/
theorem test_movi : vAfter (.movi (lf 4 0 0 0x0A 0 0x9ABC)) sLane 4 = some (0x9ABC, 0x9ABC, 0) ∧
    vAfter (.movi (lf 4 0 0 0x0A 1 0x1234)) (withV [(4, 0x9ABC)]) 4 = some (0x12349ABC, 0x12340005, 0) := by decide +kernel
theorem test_bfe_sign : vAfter (.bfe (lf 6 4 0 0x06 0 (4 * 64 + 4))) (withV [(4, 0x85)]) 6 = some (0xFFFFFFF8, 0, 0) := by decide +kernel
theorem test_bfi : vAfter (.bfi (lf 6 4 5 0x02 0 7)) (withV [(4, 0xFF), (5, 0x0404), (7, 0x12345600)]) 6 = some (0x123456F0, 0x50000, 0) := by decide +kernel
theorem test_dot4 : vAfter (.dot4 (lf 6 4 5 0x06 0 (3 * 128 + 7))) (withV [(4, 0xFF), (5, 2), (7, 1)]) 6 = some (0xFFFFFFFF, 0x50, 0) := by decide +kernel
/-- The conversions at the edges of 01's table; the first two are 07 R169's example, whose words decode to it. -/
theorem test_cvt_sat : decodeLane 0x8EE10280 0x0403 = .ok (.cvt (lf 4 5 0 0 0 0x0403)) ∧
    vAfter (.cvt (lf 4 5 0 0 0 0x0403)) (withV [(5, 0x43FA0000)]) 4 = some (0x7E, 0, 8) := ⟨rfl, by decide +kernel⟩
theorem test_cvt_overflow : vAfter (.cvt (lf 4 5 0 0 0 0x0003)) (withV [(5, 0x43FA0000)]) 4 = some (0x7F, 0, 4) := by decide +kernel
theorem test_cvt_edges :
    vAfter (.cvt (lf 4 5 0 0 0 2)) (withV [(5, 0x3F808000)]) 4 = some (0x3F80, 0, 0) ∧
    vAfter (.cvt (lf 4 5 0 0 0 2)) (withV [(5, 0x3F818000)]) 4 = some (0x3F82, 0, 0) ∧
    vAfter (.cvt (lf 4 5 0 0 0 1)) (withV [(5, 0x33400000)]) 4 = some (1, 0, 0) ∧
    vAfter (.cvt (lf 4 5 0 0 0 1)) (withV [(5, 0x33000000)]) 4 = some (0, 0, 0) ∧
    vAfter (.cvt (lf 4 5 0 0 0 7)) (withV [(5, 0xFF800000)]) 4 = some (0xF, 0, 8) ∧
    vAfter (.cvt (lf 4 5 0 0 0 9)) (withV [(5, 0xC0200000)]) 4 = some (0xFFFFFFFE, 0, 0) ∧
    vAfter (.cvt (lf 4 5 0 0 0 3)) (withV [(5, 0x80000000)]) 4 = some (0x80, 0, 0) := by decide +kernel
/-- 07 R170's run, on lanes 0 and 31: the other lanes give no element. -/
theorem test_cvt_mx : decodeLane 0x8E210283 0x04100013 = .ok (.cvtMx ⟨false, 1, 4, 5, 3, 0, true, 0, 0x13⟩) ∧
    vAfter (.cvtMx (lu 4 5 3 0 0 0x13)) ((withV [(5, 0x42200000)]).modStrand 0 0 0 fun st => st.modLane 31 fun l => l.setV 5 0xBFC00000) 4 =
      some (0x7A, 0xD4, 0) := ⟨rfl, by decide +kernel⟩
theorem test_word_ld_g_lane : decodeLane 0x92E20100 0x00400040 = .ok (.laneLdG (lf 8 2 0 0x02 0 0x40)) := rfl
theorem test_fadd : vAfter (.fadd (ls 6 4 5)) (withV [(4, 0x3F800000), (5, 0x3F800000)]) 6 = some (0x40000000, 0x2015, 0) := by decide +kernel
theorem test_frcp_zero : vAfter (.frcp (lf 6 4 0 0x0E 0 0)) (withV [(4, 0)]) 6 ≠ none := by decide +kernel
theorem test_ffma_once : vAfter (.ffma (lf 6 4 5 0x0E 0 7)) (withV [(4, 0x3F800001), (5, 0x3F800001), (7, 0xBF800002)]) 6 = some (0x28800000, 0, 0) := by decide +kernel
/-- 06 R147's block: 40.0, 0, 0, 3.0 and zeros, one outlier. -/
theorem test_tquant_i4e : i4eQuant 1 ([.fin false 40 0, .fin false 0 0, .fin false 0 0, .fin false 3 0] ++ List.replicate 28 (.fin false 0 0)) =
    (0x7E, [8, 0xA, 6, 6] ++ List.replicate 28 0, 0) := by decide +kernel
/-- 01's block of 31 zeros and 40.0 into MX E4M3. -/
theorem test_block_e4m3 : blockEncode (.fp e4m3) (List.replicate 31 (.fin false 0 0) ++ [.fin false 40 0]) = (124, List.replicate 31 0 ++ [0x7A], 0) := by decide +kernel
/-- The drains of 01's table: 500.0 to E4M3, 70,000.0 to FP16, 1 + (2^23 − 1) / 2^31 to BF16, −2.5 to INT8. -/
theorem test_drain_edges : (Elem.fp e4m3).encode .towardZero false true (.fin false 500 0) = (0x7E, 8) ∧
    (Elem.fp fp16).encode .towardZero false true (.fin false 70000 0) = (0x7BFF, 8) ∧
    (Elem.fp bf16).encode .towardZero false true (fp32.decode 0x3F80FFFF) = (0x3F80, 0) ∧
    (Elem.int 8 true).encode .towardZero false true (.fin true 5 (-1)) = (0xFE, 0) := by decide +kernel

/-! ### Witnesses: instructions and happenings that complete -/

theorem witness_LaneFabricCompletes : Obligations.LaneFabricCompletes →
    runs (.rget (lf 6 20 24 0x02 0 0x7FFC)) sPeer ∧ runs (.ratom (lu 6 20 31 0x06 0 0x8000)) sPeer ∧ runs (.rslotAlloc (lu 20 0 6 0 0 0)) sPeer ∧
    runs (.rslotPut (lf 0 28 4 0x0F 1 0)) sPeer ∧ runs (.rslotFree (lf 0 28 0 0 3 0)) sPeer ∧ runs (.rslotGet (lf 6 28 0 0x0F 2 0)) sPeer ∧
    runs (.rslotGet (lf 6 28 0 0x02 10 0)) sPeer ∧ runs (.renq (lf 6 30 32 0 0 0)) sPeer ∧ runs (.bxfer (lf 0 8 0 0 1 0)) sPeer := by
  intro h
  refine ⟨runs_and (((h sPeer (lf 6 20 24 0x02 0 0x7FFC) ?_).1 ?_ ?_ ?_).1 ?_ ?_), runs_and (((h sPeer (lu 6 20 31 0x06 0 0x8000) ?_).1 ?_ ?_ ?_).2 ?_),
    runs_and ((h sPeer (lu 20 0 6 0 0 0) ?_).2.1 ?_ ?_ ?_ ?_ ?_ ?_ ?_ ?_), runs_and (((h sPeer (lf 0 28 4 0x0F 1 0) ?_).2.2.1 ?_ ?_ ?_ ?_).1 ?_ ?_ ?_ ?_),
    runs_and (((h sPeer (lf 0 28 0 0 3 0) ?_).2.2.1 ?_ ?_ ?_ ?_).2 ?_ ?_ ?_ ?_ ?_), runs_and ((h sPeer (lf 6 28 0 0x0F 2 0) ?_).2.2.2.1 ?_ ?_ ?_ ?_ ?_ ?_ ?_ ?_),
    runs_and ((h sPeer (lf 6 28 0 0x02 10 0) ?_).2.2.2.1 ?_ ?_ ?_ ?_ ?_ ?_ ?_ ?_),
    runs_and ((h sPeer (lf 6 30 32 0 0 0) ?_).2.2.2.2.1 ?_ ?_ ?_ ?_ ?_ ?_ ?_ ?_ ?_),
    runs_and ((h sPeer (lf 0 8 0 0 1 0) ?_).2.2.2.2.2 _ _ ?_ rfl rfl ?_ ?_ ?_ ?_ ?_ ?_ ?_ ?_ ?_ ?_ ?_ ?_ ?_ ?_ ?_ ?_ ?_)⟩ <;> decide +kernel

theorem witness_PreemptionAndReplyRowsComplete : Obligations.PreemptionAndReplyRowsComplete →
    runs (.preemptWrite (.host 1) (-1)) r0 ∧ runs (.preemptStop 0 0) (sPre fun c => { c with preReq := true, wait := .stepEnd 0 }) ∧
    runs (.preemptStop 0 0) (sPre fun c => { c with preReq := true, preStop := some 0 }) ∧ runs (.graceExpiry 0 0) (sGrace 0x10001) ∧
    runs (.deviceSwap 1) (sPre fun c => { c with wait := .sync }) ∧ runs (.taskRestore 1) sRestore ∧ runs (.checkpointStream 0 0 16) (sPre id) ∧
    runs (.singleStep 0 0 0 (some 0)) sStep ∧ runs (.replyArrival 0 (backOf 14 1)) (sReply (askOf 14 0)) ∧
    runs (.refusalArrival 0 (backOf 15 2)) (sReply (askOf 3 0)) ∧ runs (.bulkAckArrival 0 (backOf 1 16)) (sReply (askOf 1 0)) ∧
    runs (.requestTimeout 0 0) (sLate 140000 (askOf 3 0)) ∧ runs (.enqueueRetry 0 0) (sReply { askOf 14 1 with backoff := some 0 }) ∧
    runs (.timedOutTagRelease 0 9) (sLate 140000 (askOf 3 0)) ∧ runs (.rslotGetTimeout 0 0) sNotice := by
  intro h
  obtain ⟨gs, hg⟩ := some_of (o := (sRestore.examineHeads 0).headFits 0 ⟨0, 1, 0⟩) (by decide +kernel)
  obtain ⟨b, hb⟩ := some_of (o := (sStep.modJob 0 (sStep.strand 0 0 0).gang fun j => { j with err := false }).subsetAt 0 0 0 { (sStep.strand 0 0 0) with stopped := false } 0) (by decide +kernel)
  have hr : b.ready (sStep.modJob 0 (sStep.strand 0 0 0).gang fun j => { j with err := false }) 0 0 = true := by
    have q : (((sStep.modJob 0 (sStep.strand 0 0 0).gang fun j => { j with err := false }).subsetAt 0 0 0 { (sStep.strand 0 0 0) with stopped := false } 0).all
      fun b => b.ready (sStep.modJob 0 (sStep.strand 0 0 0).gang fun j => { j with err := false }) 0 0) = true := by decide +kernel
    rw [hb] at q
    exact q
  obtain ⟨-, -, -, -, -, -, st, -⟩ := h sStep
  obtain ⟨-, -, -, -, -, -, -, -, late, tags, -⟩ := h (sLate 140000 (askOf 3 0))
  refine ⟨(h r0).1 (.host 1) (-1), runs_and (((h (sPre fun c => { c with preReq := true, wait := .stepEnd 0 })).2.1 0 0 1 ?_).1 ?_ ?_ ?_),
    ((h (sPre fun c => { c with preReq := true, preStop := some 0 })).2.1 0 0 1 ?_).2 ?_ ?_, (h (sGrace 0x10001)).2.2.1 0 0 0 placeJob ?_ ?_ ?_ ?_ ?_,
    runs_and ((h (sPre fun c => { c with wait := .sync })).2.2.2.1 1 ?_ ?_ ?_ ?_ (fun e he => by
      have q : e = (0, 0) := List.mem_singleton.mp he
      subst q
      exact ⟨by decide +kernel, by decide +kernel, by decide +kernel, by decide +kernel, .inr (.inr (.inl (by decide +kernel)))⟩)),
    (h sRestore).2.2.2.2.1 1 0 _ ⟨0, 1, 0⟩ [] gs ?_ ?_ rfl ?_ ?_ ?_ ?_ hg, (h (sPre id)).2.2.2.2.2.1 0 0 1 0 16 ?_ ?_ ?_ ?_ ?_ ?_ ?_,
    st 0 0 0 0 (sStep.strand 0 0 0) b ?_ ?_ ?_ ?_ hb hr, ((h (sReply (askOf 14 0))).2.2.2.2.2.2.2.1 0 (backOf 14 1) ?_).1 ?_,
    ((h (sReply (askOf 3 0))).2.2.2.2.2.2.2.1 0 (backOf 15 2) ?_).2.1 ?_, ((h (sReply (askOf 1 0))).2.2.2.2.2.2.2.1 0 (backOf 1 16) ?_).2.2 ?_,
    (late 0 0 (askOf 3 0) ?_).1 ?_ ?_, ((h (sReply { askOf 14 1 with backoff := some 0 })).2.2.2.2.2.2.2.2.1 0 0 { askOf 14 1 with backoff := some 0 } ?_).2 0 ?_ ?_,
    tags 0 9 100000 ?_ ?_, (h sNotice).2.2.2.2.2.2.2.2.2.2 0 ⟨3, ?_, (0, noticeWait), ?_, ⟨31, 40, false, false, .notice 0x10000000000 false 0, 0, [], 0, 0, 0, 0⟩, ?_,
      0x10000000000, false, 0, rfl, ?_, ?_⟩⟩ <;>
    decide +kernel
end Sys2Proof.Tests
end

section
/-! PROOFS. What a host reads and writes: O59. The arms of `exec` for the accesses of a host, the rules of the shared
operations they use (a write of a system register, a read of BAR 0, a write at its home, a write of QCTL), then the three
families of rows. -/
namespace Sys2Proof.Proofs.HostAccess
open Sys2Proof Sys2Proof.Machine Sys2Proof.Claim Sys2Proof.Laws

section Rows
variable {s : State} {p : Nat} {v : Word}

/-! ### The arms of a host's accesses -/

theorem exec_registerWrite (i : Issuer) (r : RegId) (v : Word) (s : State) :
    exec (.registerWrite i r v) s = execRegisterWrite i r v s := rfl
theorem exec_readClear (i : Issuer) (n : Nat) (s : State) : exec (.readClear i n) s = execReadClear i n s := rfl
theorem exec_bar0AccessError (p off size : Nat) (wr : Bool) (s : State) :
    exec (.bar0AccessError p off size wr) s = execBar0AccessError p off size wr s := rfl
theorem exec_hostBar2Read (p off n : Nat) (s : State) : exec (.hostBar2Read p off n) s = execHostBar2Read p off n s := rfl
theorem exec_hostBar2Write (p off : Nat) (bs : List Byte) (s : State) :
    exec (.hostBar2Write p off bs) s = execHostBar2Write p off bs s := rfl
theorem exec_hostAtomicop (p off : Nat) (wide : Bool) (op : Nat) (a b : Word) (s : State) :
    exec (.hostAtomicop p off wide op a b) s = execHostAtomicop p off wide op a b s := rfl
theorem exec_qctlWrite (p q : Nat) (v : Word) (s : State) : exec (.qctlWrite p q v) s = execQctlWrite p q v s := rfl
theorem exec_qctlApply (q : Nat) (s : State) : exec (.qctlApply q) s = execQctlApply q s := rfl
theorem exec_qtailWrite (p q : Nat) (v : Word) (s : State) : exec (.qtailWrite p q v) s = execQtailWrite p q v s := rfl

theorem issuerOk_host (hp : p < 2) : issuerOk (.host p) = true := by simp [issuerOk, hp]

/-! ### Fields and bits of a word -/

theorem fieldNat_eq_natField {w : Nat} (x : BitVec w) (hi lo : Nat) : fieldNat x hi lo = natField x.toNat hi lo := rfl

/-- A field of one bit is that bit. -/
theorem natField_single {w : Nat} (x : BitVec w) (i : Nat) : natField x.toNat i i = (x.getLsbD i).toNat := by
  rw [natField, Nat.add_sub_cancel_left, Nat.pow_one, BitVec.getLsbD, Nat.toNat_testBit]

theorem natField_single_lt (x i : Nat) : natField x i i < 2 := by
  rw [natField, Nat.add_sub_cancel_left, Nat.pow_one]
  exact Nat.mod_lt _ (by decide)

/-- A number of which every bit lies in a mask is at most the mask. -/
theorem le_of_bitsIn {x mask : Nat} (h : bitsIn x mask = true) : x ≤ mask := by
  have e : x ||| mask = mask := by simpa [bitsIn] using h
  exact e ▸ Nat.left_le_or

/-- A word of which every bit lies in a mask is left whole by the mask. -/
theorem and_mask_of_bitsIn {mask : Nat} (h : bitsIn v.toNat mask = true) : v &&& BitVec.ofNat 64 mask = v := by
  have e : v.toNat ||| mask = mask := by simpa [bitsIn] using h
  refine BitVec.eq_of_getLsbD_eq fun i hi => ?_
  have b : (v.getLsbD i || mask.testBit i) = mask.testBit i := by
    rw [BitVec.getLsbD, ← Nat.testBit_or, e]
  rw [BitVec.getLsbD_and, BitVec.getLsbD_ofNat, ← b]
  cases v.getLsbD i <;> simp [hi]

/-! ### Writes of system registers (16 R337) -/

theorem sysValueOk_le {n : Nat} (h : sysValueOk n v = true) : v.toNat ≤ sysMask n :=
  le_of_bitsIn (Bool.and_eq_true_iff.mp h).1

theorem and_sysMask_of_sysValueOk {n : Nat} (h : sysValueOk n v = true) : v &&& BitVec.ofNat 64 (sysMask n) = v :=
  and_mask_of_bitsIn (Bool.and_eq_true_iff.mp h).1

/-- A host's write is that of the value without its reserved bits (00 R9). -/
theorem regWrite_host_mask (s : State) (p n : Nat) (v : Word) :
    s.regWrite (.host p) n (v &&& BitVec.ofNat 64 (sysMask n)) = s.regWrite (.host p) n v := by
  simp only [State.regWrite, BitVec.and_assoc, BitVec.and_self]

/-- A value out of range leaves the register as it is (log 62). -/
theorem regWrite_host_bad {n : Nat} (h : sysValueOk n (v &&& BitVec.ofNat 64 (sysMask n)) = false) :
    s.regWrite (.host p) n v = s := by
  simp [State.regWrite, h]

theorem regWrite_other_bad {i : Issuer} {n : Nat} (hi : ∀ q, i ≠ .host q) (h : sysValueOk n v = false) :
    s.regWrite i n v = s := by
  cases i with
  | host q => exact absurd rfl (hi q)
  | ctx k c => simp [State.regWrite, h]
  | strand k q sl => simp [State.regWrite, h]

theorem regWrite_host_ok {n : Nat} (h : sysValueOk n v = true) : s.regWrite (.host p) n v = s.sysWrite (.host p) n v := by
  simp [State.regWrite, and_sysMask_of_sysValueOk h, h]

/-- A write of a listed register, but of TLBINV, is applied. -/
theorem execRegisterWrite_sys {i : Issuer} {n : Nat} (hi : issuerOk i = true) (hn : isSysReg n = true) (h8 : n ≠ 0x208) :
    execRegisterWrite i (.sys n) v s = .next (s.regWrite i n v) := by
  simp [execRegisterWrite, hi, hn, h8]

/-- The registers whose write sets one field of the device, of a port or of an address space. -/
def plainRegs : List Nat := [0x200, 0x201, 0x202, 0x203, 0x206, 0x207, 0x20B, 0x20C, 0x220, 0x224, 0x225, 0x228]

theorem plainRegs_listed : ∀ n ∈ plainRegs, isSysReg n = true ∧ n ≠ 0x208 := by decide

/-- Such a write changes no core and no byte of memory. -/
theorem sysWrite_plain_frame {n : Nat} (hn : n ∈ plainRegs) :
    (s.sysWrite (.host p) n v).cores = s.cores ∧ (s.sysWrite (.host p) n v).mem = s.mem := by
  simp only [plainRegs, List.mem_cons, List.not_mem_nil, or_false] at hn
  rcases hn with rfl | rfl | rfl | rfl | rfl | rfl | rfl | rfl | rfl | rfl | rfl | rfl <;> exact ⟨rfl, rfl⟩

/-! ### QCTL of a queue (22 R415), and a word of the MSI-X table -/

/-- 22 R415: a refused write sets ERR and leaves every other bit of QCTL. -/
theorem getLsbD_qctl_setErr (x : HostQueue) {i : Nat} (hi : i < 64) :
    x.setErr.qctl.getLsbD i = (x.qctl.getLsbD i || decide (i = 62)) := by
  rw [HostQueue.setErr, BitVec.getLsbD_or, BitVec.getLsbD_ofNat, Nat.testBit_two_pow]
  simp [hi, eq_comm]

theorem err_setErr (x : HostQueue) : natField x.setErr.qctl.toNat 62 62 = 1 := by
  rw [natField_single, getLsbD_qctl_setErr x (by decide)]
  simp

theorem getLsbD_qctl_setErr_other (x : HostQueue) : ∀ i < 64, i ≠ 62 → x.setErr.qctl.getLsbD i = x.qctl.getLsbD i := by
  intro i hi h
  simp [getLsbD_qctl_setErr x hi, h]

theorem owner_eq (x : HostQueue) : x.owner = natField x.qctl.toNat 59 59 := rfl
theorem en_eq_true (x : HostQueue) : x.en = true ↔ natField x.qctl.toNat 63 63 = 1 := beq_iff_eq

/-- A message that was pending leaves the table as it is. -/
theorem flushPending_msix (x : Port) (e : Nat) : (x.flushPending e).msix = x.msix := by
  unfold Port.flushPending
  split <;> rfl

/-! ### Reads of BAR 0 (22 R412) -/

/-- No read of a system register but of the three counters changes anything. -/
theorem sysRead_state (i : Issuer) (a n : Nat) (h : n ∉ [0x229, 0x22A, 0x22B]) : (s.sysRead i a n).2 = s := by
  unfold State.sysRead
  split <;> simp_all

/-- The counters too leave cores and memory as they are. -/
theorem sysRead_frame (s : State) (i : Issuer) (a n : Nat) :
    (s.sysRead i a n).2.mem = s.mem ∧ (s.sysRead i a n).2.cores = s.cores := by
  unfold State.sysRead
  split <;> exact ⟨rfl, rfl⟩

theorem isSysReg_range {n : Nat} (h : isSysReg n = true) : 0x200 ≤ n ∧ n ≤ 0x22C := by
  simp only [isSysReg, Bool.or_eq_true, Bool.and_eq_true, decide_eq_true_eq, beq_iff_eq] at h
  omega

/-- An aligned word of BAR 0 whose read changes nothing is read whole or by halves. -/
theorem readsAs_of_bar0Word {off x : Nat} (hp : p < 2) (ha : off % 8 = 0) (ho : off < 0x100000)
    (hw : s.bar0Word p off = (x, s)) : readsAs s p off x := by
  refine ⟨?_, fun h hh => ?_⟩
  · have e : off / 8 * 8 = off := by omega
    have g : ¬ (2 ≤ p ∨ 0x100000 ≤ off) := by omega
    simp [exec_bar0AccessError, execBar0AccessError, g, ha, e, hw]
  · have e : (off + 4 * h) / 8 * 8 = off := by omega
    have g : ¬ (2 ≤ p ∨ 0x100000 ≤ off + 4 * h) := by omega
    have m : (off + 4 * h) % 4 = 0 := by omega
    have d : (off + 4 * h) % 8 * 8 = 32 * h := by omega
    simp [exec_bar0AccessError, execBar0AccessError, g, m, e, hw, d]

theorem bar0Word_devid (s : State) (p : Nat) : s.bar0Word p 0 = (s.devid p, s) := rfl

theorem bar0Word_sys {n : Nat} (hn : isSysReg n = true) (ha : n ≠ 0x210) (hc : n ∉ [0x229, 0x22A, 0x22B]) :
    s.bar0Word p (0x1000 + 8 * (n - 0x200)) = ((s.sysRead (.host p) 0 n).1.toNat, s) := by
  obtain ⟨lo, hi⟩ := isSysReg_range hn
  have e : 0x200 + (0x1000 + 8 * (n - 0x200) - 0x1000) / 8 = n := by omega
  rw [State.bar0Word, if_neg (by omega), if_pos (by omega)]
  simp only [e, if_neg ha, if_pos hn, sysRead_state _ _ _ hc]

/-- The registers of queue `q` stand at its 64 bytes (22 R415). -/
theorem bar0Word_queue {q j : Nat} (hq : q < 64) (hj : j < 64) :
    s.bar0Word p (0x10000 + j + 64 * q) = ((s.queue q).reg j, s) := by
  have e : (0x10000 + j + 64 * q - 0x10000) / 64 = q := by omega
  have m : (0x10000 + j + 64 * q) % 64 = j := by omega
  rw [State.bar0Word, if_neg (by omega), if_neg (by omega), if_pos (by omega), e, m]

theorem bar0Word_msix {i : Nat} (hi : i < 512) :
    s.bar0Word p (0x20000 + 8 * i) = (((s.port p).msixWord i).toNat, s) := by
  have e : (0x20000 + 8 * i - 0x20000) / 8 = i := by omega
  rw [State.bar0Word, if_neg (by omega), if_neg (by omega), if_neg (by omega), if_pos (by omega), e]

theorem bar0Word_win (s : State) (p : Nat) : s.bar0Word p 0x30000 = ((s.port p).win * 2 ^ 36, s) := rfl

theorem readsAs_queue {q : Nat} (j : Nat) (hp : p < 2) (hq : q < 64) (hj : j < 64) (ha : j % 8 = 0) :
    readsAs s p (0x10000 + j + 64 * q) ((s.queue q).reg j) :=
  readsAs_of_bar0Word hp (by omega) (by omega) (bar0Word_queue hq hj)

/-! ### The clauses of the registers -/

/-- Reserved bits of a host's write are ignored (00 R9). -/
theorem registerWrite_mask (s : State) (p n : Nat) (v : Word) :
    exec (.registerWrite (.host p) (.sys n) v) s =
      exec (.registerWrite (.host p) (.sys n) (v &&& BitVec.ofNat 64 (sysMask n))) s := by
  simp only [exec_registerWrite, execRegisterWrite, regWrite_host_mask]

theorem registerWrite_plain (hp : p < 2) {n : Nat} (hn : n ∈ plainRegs) (hv : sysValueOk n v = true) :
    exec (.registerWrite (.host p) (.sys n) v) s = .next (s.sysWrite (.host p) n v) := by
  obtain ⟨listed, h8⟩ := plainRegs_listed n hn
  rw [exec_registerWrite, execRegisterWrite_sys (issuerOk_host hp) listed h8, regWrite_host_ok hv]

theorem readClear_host (hp : p < 2) {n : Nat} (hn : 0x229 ≤ n ∧ n ≤ 0x22B) :
    exec (.readClear (.host p) n) s = .next ((s.sysRead (.host p) 0 n).2.modPort p fun x =>
      { x with rdata := (s.sysRead (.host p) 0 n).1.toNat, ur := false }) := by
  simp [exec_readClear, execReadClear, issuerOk_host hp, hn.1, hn.2]

theorem toNat_ofNat_of_lt {x : Nat} (h : x < 2 ^ 64) : (BitVec.ofNat 64 x).toNat = x := by
  rw [BitVec.toNat_ofNat, Nat.mod_eq_of_lt h]

/-- 00 R8, 19 R379: the counter is returned, and cleared. -/
theorem readClear_result (hp : p < 2) : ∀ n, n ∈ [0x229, 0x22A, 0x22B] →
    ∃ t, exec (.readClear (.host p) n) s = .next t ∧ t.mem = s.mem ∧ t.cores = s.cores ∧
      (t.port p).ur = false ∧
      (n = 0x229 → (s.fabric.laterep < 2 ^ 64 → (t.port p).rdata = s.fabric.laterep) ∧ t.fabric.laterep = 0) ∧
      (n = 0x22A → (s.fabric.circdrop < 2 ^ 64 → (t.port p).rdata = s.fabric.circdrop) ∧ t.fabric.circdrop = 0) ∧
      (n = 0x22B → (s.fabric.rsldrop < 2 ^ 64 → (t.port p).rdata = s.fabric.rsldrop) ∧ t.fabric.rsldrop = 0) := by
  intro n hn
  have range : 0x229 ≤ n ∧ n ≤ 0x22B := by
    simp only [List.mem_cons, List.not_mem_nil, or_false] at hn
    omega
  refine ⟨_, readClear_host hp range, ?_⟩
  rw [modPort_mem, modPort_cores, port_modPort_same, modPort_fabric]
  obtain ⟨mem, cores⟩ := sysRead_frame s (.host p) 0 n
  refine ⟨mem, cores, rfl, ?_, ?_, ?_⟩ <;> (rintro rfl; exact ⟨toNat_ofNat_of_lt, rfl⟩)

/-- 16 R337, 19 R379: each of these registers takes the value written. -/
theorem plainRegs_write (hp : p < 2) : ∀ n, n ∈ plainRegs → sysValueOk n v = true →
    ∃ t, exec (.registerWrite (.host p) (.sys n) v) s = .next t ∧ t.cores = s.cores ∧ t.mem = s.mem ∧
      (n = 0x200 → (t.port p).assel = v.toNat % 2 ^ 16 ∧ t.assel = s.assel) ∧
      (n = 0x201 → (t.space (s.port p).assel).ptbase = v) ∧ (n = 0x202 → (t.space (s.port p).assel).asctl = v) ∧
      (n = 0x203 → (t.space (s.port p).assel).savepool = v) ∧ (n = 0x206 → (t.space (s.port p).assel).peermap = v) ∧
      (n = 0x207 → (t.space (s.port p).assel).tenant = v) ∧ (n = 0x20B → t.pregrace = v.toNat) ∧ (n = 0x20C → t.ckptEn = decide (v = 1)) ∧
      (n = 0x220 → t.fabric.cwsel = v.toNat) ∧ (n = 0x224 → t.fabric.cwtmo = v.toNat) ∧ (n = 0x225 → t.fabric.cwcomb = v.toNat) ∧
      (n = 0x228 → t.fabric.rqbase = v) := by
  intro n hn hv
  have le := sysValueOk_le hv
  obtain ⟨cores, mem⟩ := sysWrite_plain_frame (s := s) (p := p) (v := v) hn
  refine ⟨_, registerWrite_plain hp hn hv, cores, mem, ?_, ?_, ?_, ?_, ?_, ?_, ?_, ?_, ?_, ?_, ?_, ?_⟩ <;> rintro rfl
  case refine_1 => simp [State.sysWrite]
  case refine_2 | refine_3 | refine_4 | refine_5 | refine_6 => simp [State.sysWrite, State.asselOf]
  case refine_7 | refine_10 | refine_11 =>
    exact Nat.mod_eq_of_lt (Nat.lt_succ_of_le le)
  case refine_8 =>
    have two : v.toNat = 0 ∨ v.toNat = 1 := by
      have le : v.toNat ≤ 1 := le
      omega
    have one : decide (v = 1) = decide (v.toNat = 1) := decide_eq_decide.mpr BitVec.toNat_inj.symm
    show (v.toNat % 2 == 1) = decide (v = 1)
    rw [one]
    rcases two with h | h <;> simp [h]
  case refine_9 | refine_12 => rfl

theorem bar2win_write (hp : p < 2) : ∃ t, exec (.registerWrite (.host p) .bar2win v) s = .next t ∧ t.mem = s.mem ∧
    (t.port p).win = fieldNat v 47 36 := by
  refine ⟨s.modPort p fun x => { x with win := fieldNat v 47 36 }, ?_, rfl, by simp⟩
  simp [exec_registerWrite, execRegisterWrite, issuerOk_host hp]

theorem execRegisterWrite_qbase (hp : p < 2) {q : Nat} (hq : q < 64) : execRegisterWrite (.host p) (.qbase q) v s =
    .next (s.modQueue q fun x => if x.owner ≠ p then x.setErr else if x.en then x
      else { x with qbase := BitVec.ofNat 64 (fieldNat v 47 12 * 4096) }) := by
  simp [execRegisterWrite, issuerOk_host hp, Nat.not_le_of_lt hq]

theorem execRegisterWrite_msix (hp : p < 2) {e w : Nat} (he : e < 256) (hw : w < 2) :
    execRegisterWrite (.host p) (.msix e w) v s =
      .next (s.modPort p fun x => ({ x with msix := x.msix.put (2 * e + w) v } : Port).flushPending e) := by
  simp [execRegisterWrite, issuerOk_host hp, Nat.not_le_of_lt he, Nat.not_le_of_lt hw]

/-- 22 R415, R416: BASE through the owning port alone, and while the queue is disabled. -/
theorem qbase_write (hp : p < 2) : ∀ q x, q < 64 → x = s.queue q →
    ∃ t, exec (.registerWrite (.host p) (.qbase q) v) s = .next t ∧ t.mem = s.mem ∧
      (natField x.qctl.toNat 59 59 ≠ p → natField (t.queue q).qctl.toNat 62 62 = 1 ∧ (t.queue q).qbase = x.qbase) ∧
      (natField x.qctl.toNat 59 59 = p → natField x.qctl.toNat 63 63 = 1 → t.queue q = x) ∧
      (natField x.qctl.toNat 59 59 = p → natField x.qctl.toNat 63 63 = 0 →
        t.queue q = { x with qbase := BitVec.ofNat 64 (fieldNat v 47 12 * 4096) }) := by
  rintro q x hq rfl
  refine ⟨_, (exec_registerWrite ..).trans (execRegisterWrite_qbase hp hq), rfl, ?_⟩
  simp only [queue_modQueue_same, owner_eq, en_eq_true]
  refine ⟨fun other => ?_, fun own on => ?_, fun own off => ?_⟩
  · rw [if_pos other]
    exact ⟨err_setErr _, rfl⟩
  · simp [own, on]
  · simp [own, off]

theorem msix_write (hp : p < 2) : ∀ e w, e < 256 → w < 2 →
    ∃ t, exec (.registerWrite (.host p) (.msix e w) v) s = .next t ∧ t.mem = s.mem ∧
      (t.port p).msixWord (2 * e + w) = v ∧ ∀ i, i ≠ 2 * e + w → (t.port p).msixWord i = (s.port p).msixWord i := by
  intro e w he hw
  refine ⟨_, (exec_registerWrite ..).trans (execRegisterWrite_msix hp he hw), rfl, ?_, fun i hi => ?_⟩
  · rw [port_modPort_same, Port.msixWord, flushPending_msix, get_put_same]
  · rw [port_modPort_same, Port.msixWord, flushPending_msix, get_put_other _ _ _ _ _ hi, Port.msixWord]

/-- 22 R412: an access of another width, or not aligned. -/
theorem bar0_unsupported (hp : p < 2) : ∀ off size (wr : Bool), off < 0x100000 → (size ≠ 4 ∧ size ≠ 8) ∨ off % size ≠ 0 →
    exec (.bar0AccessError p off size wr) s =
      .next (s.modPort p (fun x => { x with ur := true, rdata := if wr then x.rdata else 0 })) := by
  intro off size wr ho bad
  have g : ¬ (2 ≤ p ∨ 0x100000 ≤ off) := by omega
  have b : ¬ ((size = 4 ∨ size = 8) ∧ off % size = 0) := by omega
  rw [exec_bar0AccessError, execBar0AccessError, if_neg g, if_pos b]

/-- 22 R412: a write of a reserved or read-only offset is ignored. -/
theorem bar0_write_ignored (hp : p < 2) : ∀ size off, size = 4 ∨ size = 8 → off % size = 0 → off < 0x100000 →
    bar0Written off = false → exec (.bar0AccessError p off size true) s = .next s := by
  intro size off hs ha ho hw
  have g : ¬ (2 ≤ p ∨ 0x100000 ≤ off) := by omega
  simp [exec_bar0AccessError, execBar0AccessError, g, hs, ha, hw]

theorem readsAs_sys (hp : p < 2) {n : Nat} (hn : isSysReg n = true) (ha : n ≠ 0x210) (hc : n ∉ [0x229, 0x22A, 0x22B]) :
    readsAs s p (0x1000 + 8 * (n - 0x200)) (s.sysRead (.host p) 0 n).1.toNat := by
  obtain ⟨lo, hi⟩ := isSysReg_range hn
  exact readsAs_of_bar0Word hp (by omega) (by omega) (bar0Word_sys hn ha hc)

theorem registerRows : RegisterRows := by
  intro s p v hp
  refine ⟨fun n => registerWrite_mask s p n v, fun n hn h8 bad => ?_, fun i n hi other hn h8 bad => ?_, plainRegs_write hp,
    bar2win_write hp, qbase_write hp, msix_write hp, readClear_result hp, bar0_unsupported hp,
    readsAs_of_bar0Word hp rfl (by decide) (bar0Word_devid s p), fun n => readsAs_sys hp, ?_,
    fun i hi => readsAs_of_bar0Word hp (by omega) (by omega) (bar0Word_msix hi),
    readsAs_of_bar0Word hp rfl (by decide) (bar0Word_win s p), bar0_write_ignored hp⟩
  · rw [exec_registerWrite, execRegisterWrite_sys (issuerOk_host hp) hn h8, regWrite_host_bad bad]
  · rw [exec_registerWrite, execRegisterWrite_sys hi hn h8, regWrite_other_bad other bad]
  · rintro q x hq rfl
    exact ⟨readsAs_queue 0 hp hq (by decide) rfl, readsAs_queue 8 hp hq (by decide) rfl, readsAs_queue 16 hp hq (by decide) rfl,
      readsAs_queue 24 hp hq (by decide) rfl, readsAs_queue 32 hp hq (by decide) rfl, readsAs_queue 40 hp hq (by decide) rfl⟩

/-! ### Bytes at their homes (22 R413, 23 R429) -/

theorem bar2Ok_of_reaches {off n : Nat} (h : reaches s p off n) : s.bar2Ok p off n = true := by
  obtain ⟨hp, up, pos, fits⟩ := h
  simp only [State.bar2Ok, hp, up, pos, fits, decide_true, Bool.not_false, Bool.and_true]

/-- Whether a range is in tiers H and C is what its two ends say. -/
theorem inTiers_iff {a n : Nat} : s.inTiers a n = true ↔ memoryHere s a n := by
  simp only [State.inTiers, Bool.and_eq_true]
  refine and_congr ?_ ?_
  · cases s.phys a <;> simp
  · cases s.phys (a + n - 1) <;> simp

theorem inTiers_eq_false {a n : Nat} (h : ¬ memoryHere s a n) : s.inTiers a n = false :=
  Bool.eq_false_iff.mpr fun e => h (inTiers_iff.mp e)

/-- Where every line is good a host reads memory, and no free value is taken (log 34). -/
theorem homeRead_good {a n : Nat} (h : goodLines s a n) : s.homeRead a n = (s.mem.read a n, s) := by
  refine if_neg fun bad => ?_
  obtain ⟨l, hl, hb⟩ := List.any_eq_true.mp bad
  simp only [linesOf, List.mem_map, List.mem_range] at hl
  obtain ⟨i, hi, rfl⟩ := hl
  rw [h (a / 64 + i) (by omega) (by omega)] at hb
  exact absurd hb (by decide)

theorem putByte_eq (s : State) (a : Nat) (b : Byte) :
    s.putByte a b = { s with mem := if s.writeDropped a then s.mem else s.mem.setByte a b } := by
  unfold State.putByte
  split <;> rfl

theorem writeDropped_putByte (s : State) (a : Nat) (b : Byte) : (s.putByte a b).writeDropped = s.writeDropped := by
  rw [putByte_eq]
  rfl

theorem cores_homeBytes (bs : List Byte) (s : State) (a : Nat) : (homeBytes s a bs).cores = s.cores := by
  induction bs generalizing s a with
  | nil => rfl
  | cons b r ih => rw [homeBytes, ih, putByte_eq]

theorem byte_putByte_same (s : State) (a : Nat) (b : Byte) :
    (s.putByte a b).mem.byte a = if s.writeDropped a = false then b else s.mem.byte a := by
  rw [putByte_eq]
  cases s.writeDropped a <;> simp

theorem byte_putByte_other (s : State) {a j : Nat} (b : Byte) (h : j ≠ a) : (s.putByte a b).mem.byte j = s.mem.byte j := by
  rw [putByte_eq]
  cases s.writeDropped a
  · exact byte_setByte_other _ _ _ _ h
  · rfl

/-- Memory after a write: its bytes that are not dropped, the rest as before. -/
theorem byte_homeBytes (bs : List Byte) (s : State) (a j : Nat) : (homeBytes s a bs).mem.byte j =
    if a ≤ j ∧ j < a + bs.length ∧ s.writeDropped j = false then bs.getD (j - a) 0 else s.mem.byte j := by
  induction bs generalizing s a with
  | nil =>
    rw [List.length_nil, Nat.add_zero, if_neg fun h => Nat.not_lt_of_le h.1 h.2.1, homeBytes]
  | cons b r ih =>
    rw [homeBytes, ih, writeDropped_putByte]
    by_cases first : j = a
    · subst first
      rw [if_neg (by omega), byte_putByte_same]
      simp
    · have inRest : (a + 1 ≤ j ∧ j < a + 1 + r.length ∧ s.writeDropped j = false) ↔
          (a ≤ j ∧ j < a + (b :: r).length ∧ s.writeDropped j = false) := by
        rw [List.length_cons, ← and_assoc, ← and_assoc]
        exact and_congr_left' (by omega)
      rw [byte_putByte_other _ _ first]
      simp only [inRest]
      split
      · next h => rw [show j - a = j - (a + 1) + 1 by omega, List.getD_cons_succ]
      · rfl

/-- A number none of whose bytes is dropped is written as it stands. -/
theorem mem_homeBytes_bytesOf (n : Nat) (s : State) (a x : Nat) (h : ∀ i < n, s.writeDropped (a + i) = false) :
    (homeBytes s a (bytesOf n x)).mem = s.mem.write a n x := by
  induction n generalizing s a x with
  | zero => rfl
  | succ k ih =>
    have d : s.writeDropped a = false := h 0 (Nat.succ_pos k)
    have r : ∀ i < k, (s.putByte a (BitVec.ofNat 8 (x % 256))).writeDropped (a + 1 + i) = false := by
      intro i hi
      rw [writeDropped_putByte, Nat.add_assoc, Nat.add_comm 1 i]
      exact h (i + 1) (by omega)
    rw [bytesOf, homeBytes, ih _ _ _ r, putByte_eq, d]
    rfl

/-- A write at its home leaves memory as its bytes do. -/
theorem mem_homeWrite (s : State) (a : Nat) (bs : List Byte) : (s.homeWrite a bs).mem = (homeBytes s a bs).mem := by
  unfold State.homeWrite
  dsimp only
  split <;> rfl

theorem cores_homeWrite (s : State) (a : Nat) (bs : List Byte) : (s.homeWrite a bs).cores = s.cores := by
  unfold State.homeWrite
  dsimp only
  split <;> exact cores_homeBytes bs s a

/-! ### The clauses of BAR 2 -/

theorem bar2Addr_eq (s : State) (p off : Nat) : s.bar2Addr p off = bar2 s p off := rfl
@[simp] theorem complete_mem (s : State) (p x : Nat) : (s.complete p x).mem = s.mem := rfl
@[simp] theorem complete_purser (s : State) (p x : Nat) : (s.complete p x).purser = s.purser := rfl
@[simp] theorem port_complete (s : State) (p x : Nat) : (s.complete p x).port p = { s.port p with rdata := x, ur := false } :=
  port_modPort_same _ _ _
@[simp] theorem countDiscard_mem (s : State) : s.countDiscard.mem = s.mem := rfl
@[simp] theorem countDiscard_discards (s : State) : s.countDiscard.purser.discards = s.purser.discards + 1 := rfl

theorem hostBar2Read_here {off n : Nat} (r : reaches s p off n) (here : memoryHere s (bar2 s p off) n)
    (good : goodLines s (bar2 s p off) n) :
    exec (.hostBar2Read p off n) s = .next (s.complete p (s.mem.read (bar2 s p off) n)) := by
  simp [exec_hostBar2Read, execHostBar2Read, bar2Addr_eq, bar2Ok_of_reaches r, inTiers_iff.mpr here, homeRead_good good]

theorem hostBar2Read_elsewhere {off n : Nat} (r : reaches s p off n) (away : ¬ memoryHere s (bar2 s p off) n) :
    exec (.hostBar2Read p off n) s = .next (s.countDiscard.complete p (2 ^ (8 * n) - 1)) := by
  simp [exec_hostBar2Read, execHostBar2Read, bar2Addr_eq, bar2Ok_of_reaches r, inTiers_eq_false away]

theorem hostBar2Write_here {off : Nat} {bs : List Byte} (r : reaches s p off bs.length)
    (here : memoryHere s (bar2 s p off) bs.length) :
    exec (.hostBar2Write p off bs) s = .next (s.homeWrite (bar2 s p off) bs) := by
  simp [exec_hostBar2Write, execHostBar2Write, bar2Addr_eq, bar2Ok_of_reaches r, inTiers_iff.mpr here]

theorem hostBar2Write_elsewhere {off : Nat} {bs : List Byte} (r : reaches s p off bs.length)
    (away : ¬ memoryHere s (bar2 s p off) bs.length) : exec (.hostBar2Write p off bs) s = .next s.countDiscard := by
  simp [exec_hostBar2Write, execHostBar2Write, bar2Addr_eq, bar2Ok_of_reaches r, inTiers_eq_false away]

theorem hostAtomicop_here {off op n : Nat} {wide : Bool} {a b : Word} (hn : n = if wide then 8 else 4) (hop : op < 3)
    (r : reaches s p off n) (aligned : off % n = 0) (here : memoryHere s (bar2 s p off) n) (good : goodLines s (bar2 s p off) n) :
    exec (.hostAtomicop p off wide op a b) s =
      .next ((s.homeWrite (bar2 s p off) (bytesOf n (pcieAtomic op n (s.mem.read (bar2 s p off) n) a b))).complete p
        (s.mem.read (bar2 s p off) n)) := by
  simp [exec_hostAtomicop, execHostAtomicop, ← hn, bar2Addr_eq, bar2Ok_of_reaches r, Nat.not_lt.mpr (Nat.le_of_lt_succ hop),
    aligned, inTiers_iff.mpr here, homeRead_good good]

theorem hostAtomicop_misaligned {off op n : Nat} {wide : Bool} {a b : Word} (hn : n = if wide then 8 else 4) (hop : op < 3)
    (r : reaches s p off n) (bad : off % n ≠ 0) :
    exec (.hostAtomicop p off wide op a b) s = .next (s.modPort p (fun x => { x with ur := true })) := by
  simp [exec_hostAtomicop, execHostAtomicop, ← hn, bar2Ok_of_reaches r, Nat.not_lt.mpr (Nat.le_of_lt_succ hop), bad]

theorem read_lt (m : Memory) (a n : Nat) : m.read a n < 256 ^ n := by
  induction n generalizing a with
  | zero => exact Nat.one_pos
  | succ k ih =>
    have low := (m.byte a).isLt
    have high := ih (a + 1)
    rw [Memory.read, Nat.pow_succ]
    omega

theorem two_pow_eight_mul (n : Nat) : 2 ^ (8 * n) = 256 ^ n := by rw [Nat.pow_mul]

/-- The value an AtomicOp leaves fits in its width (22 R410). -/
theorem pcieAtomic_lt {n old : Nat} (op : Nat) (a b : Word) (h : old < 256 ^ n) : pcieAtomic op n old a b < 256 ^ n := by
  have pos : 0 < 2 ^ (8 * n) := Nat.two_pow_pos _
  rw [← two_pow_eight_mul] at h ⊢
  unfold pcieAtomic
  dsimp only
  split
  · exact Nat.mod_lt _ pos
  · exact Nat.mod_lt _ pos
  · split
    · exact Nat.mod_lt _ pos
    · exact h

/-- Where no byte is dropped, an AtomicOp leaves its result at its place and every other byte as it was. -/
theorem homeWrite_pcieAtomic {s : State} {at_ n : Nat} (op : Nat) (a b : Word) (kept : ∀ i < n, s.writeDropped (at_ + i) = false) :
    let t := s.homeWrite at_ (bytesOf n (pcieAtomic op n (s.mem.read at_ n) a b))
    t.mem.read at_ n = pcieAtomic op n (s.mem.read at_ n) a b ∧
      ∀ x, x < at_ ∨ at_ + n ≤ x → t.mem.byte x = s.mem.byte x := by
  simp only [mem_homeWrite, mem_homeBytes_bytesOf _ _ _ _ kept]
  refine ⟨?_, fun x hx => byte_write_other _ _ _ _ _ hx⟩
  rw [read_write_same, Nat.mod_eq_of_lt (pcieAtomic_lt op a b (read_lt _ _ _))]

theorem hostMemoryRows : HostMemoryRows := by
  intro s p off
  refine ⟨fun n r here good => ?_, fun n r away => ?_, fun bs r => ⟨fun here => ?_, fun away => ?_⟩,
    fun wide n op a b hn hop r => ⟨fun aligned here good kept => ?_, hostAtomicop_misaligned hn hop r⟩⟩
  · exact ⟨_, hostBar2Read_here r here good, by simp⟩
  · exact ⟨_, hostBar2Read_elsewhere r away, by simp⟩
  · refine ⟨_, hostBar2Write_here r here, cores_homeWrite _ _ _, fun j => ?_⟩
    rw [mem_homeWrite, byte_homeBytes]
  · exact ⟨_, hostBar2Write_elsewhere r away, rfl, rfl⟩
  · obtain ⟨result, frame⟩ := homeWrite_pcieAtomic op a b kept
    refine ⟨_, _, hostAtomicop_here hn hop r aligned here good, rfl, by rw [port_complete], ?_, ?_, ?_, frame⟩ <;>
      (rintro rfl; exact result)

/-! ### The registers of a host queue (22 R415 to R417) -/

/-- When the Purser refuses a write of QCTL (22 R416, 23 R431). -/
theorem qctlRefused_iff (x : HostQueue) (w : Word) : s.qctlRefused x w = true ↔
    ((natField w.toNat 63 63 = 1 ∧ (∀ d, s.phys (natField x.qbase.toNat 47 12 * 4096) ≠ .tierH ∧
        s.phys (natField x.qbase.toNat 47 12 * 4096) ≠ .host d)) ∨ 2 ≤ natField w.toNat 61 60 ∨ natField w.toNat 39 35 < 4 ∨
      16 < natField w.toNat 39 35 ∨ (natField x.qctl.toNat 63 63 = 1 ∧ natField w.toNat 61 35 ≠ natField x.qctl.toNat 61 35) ∨
      (natField w.toNat 63 63 = 1 ∧ s.purser.mode = 1)) := by
  simp only [State.qctlRefused, Bool.or_eq_true, Bool.and_eq_true, decide_eq_true_eq, beq_iff_eq, bne_iff_ne, en_eq_true,
    or_assoc]
  simp only [fieldNat_eq_natField]
  cases s.phys (natField x.qbase.toNat 47 12 * 4096) <;> simp

theorem applyQctl_refused {q : Nat} {w : Word} (h : s.qctlRefused (s.queue q) w = true) :
    s.applyQctl q w = s.modQueue q HostQueue.setErr := by
  simp [State.applyQctl, State.modQueue, h]

/-- The value that QCTL takes: the written fields, and ERR unless a 1 is written to it. -/
def qctlValue (x : HostQueue) (w : Word) : Nat :=
  qctlFields w + (if fieldNat w 62 62 = 1 then 0 else fieldNat x.qctl 62 62 * 2 ^ 62)

theorem applyQctl_accepted {q : Nat} {w : Word} (h : s.qctlRefused (s.queue q) w = false) :
    s.applyQctl q w = s.modQueue q fun x => { x with qctl := BitVec.ofNat 64 (qctlValue x w) } := by
  simp [State.applyQctl, State.modQueue, h, qctlValue]

/-- The fields of a number put together from EN, ERR and the fields in [61:35]. -/
theorem natField_qctl {en err mid x : Nat} (he : en < 2) (hr : err < 2) (hm : mid < 2 ^ 27)
    (hx : x = en * 2 ^ 63 + mid * 2 ^ 35 + err * 2 ^ 62) :
    x < 2 ^ 64 ∧ natField x 63 63 = en ∧ natField x 61 35 = mid ∧ natField x 34 0 = 0 ∧ natField x 62 62 = err := by
  simp only [natField]
  omega

/-- ERR, kept or cleared, in its place in QCTL. -/
theorem errKept_mul (c : Prop) [Decidable c] (e k : Nat) : (if c then 0 else e * k) = (if c then 0 else e) * k := by
  split
  · rw [Nat.zero_mul]
  · rfl

theorem natField_qctlValue (x : HostQueue) (w : Word) :
    let y := (BitVec.ofNat 64 (qctlValue x w)).toNat
    natField y 63 63 = natField w.toNat 63 63 ∧ natField y 61 35 = natField w.toNat 61 35 ∧ natField y 34 0 = 0 ∧
      natField y 62 62 = if natField w.toNat 62 62 = 1 then 0 else natField x.qctl.toNat 62 62 := by
  have hr : (if natField w.toNat 62 62 = 1 then 0 else natField x.qctl.toNat 62 62) < 2 := by
    split
    · decide
    · exact natField_single_lt _ _
  have hm : natField w.toNat 61 35 < 2 ^ 27 := Nat.mod_lt _ (by decide)
  have hx : qctlValue x w = natField w.toNat 63 63 * 2 ^ 63 + natField w.toNat 61 35 * 2 ^ 35 +
      (if natField w.toNat 62 62 = 1 then 0 else natField x.qctl.toNat 62 62) * 2 ^ 62 := by
    have en : w.toNat % 2 ^ 64 / 2 ^ 63 = natField w.toNat 63 63 := by
      rw [natField]
      omega
    rw [qctlValue, qctlFields, en, fieldNat_eq_natField, fieldNat_eq_natField, fieldNat_eq_natField, errKept_mul]
  obtain ⟨fits, fields⟩ := natField_qctl (natField_single_lt _ _) hr hm hx
  simpa only [toNat_ofNat_of_lt fits] using fields

theorem execQctlApply_waiting {q : Nat} {w : Word} (h : (s.queue q).wait = some w) :
    execQctlApply q s = .next ((s.applyQctl q w).modQueue q fun x => { x with wait := none }) := by
  simp [execQctlApply, h]

/-- 22 R415: QCTL written while no earlier write waits and the queue is disabled, or through the port that owns it. -/
theorem execQctlWrite_taken {q : Nat} (hp : p < 2) (hq : q < 64) (free : (s.queue q).wait = none)
    (own : natField (s.queue q).qctl.toNat 63 63 = 0 ∨ natField (s.queue q).qctl.toNat 59 59 = p) :
    execQctlWrite p q v s = .next (s.modQueue q fun x => { x with wait := some v, since := s.cycle }) := by
  have taken : ¬ ((s.queue q).en && (s.queue q).owner != p) = true := by
    rw [Bool.and_eq_true, en_eq_true, bne_iff_ne, owner_eq]
    omega
  simp only [execQctlWrite, free, State.modQueue, if_neg taken]
  exact if_neg (by omega)

/-- 22 R416: through the other port, while the queue is enabled. -/
theorem execQctlWrite_discarded {q : Nat} (hp : p < 2) (hq : q < 64) (free : (s.queue q).wait = none)
    (on : natField (s.queue q).qctl.toNat 63 63 = 1) (other : natField (s.queue q).qctl.toNat 59 59 ≠ p) :
    execQctlWrite p q v s = .next (s.modQueue q fun x => { x.setErr with wait := none }) := by
  have discarded : ((s.queue q).en && (s.queue q).owner != p) = true := by
    rw [Bool.and_eq_true, en_eq_true, bne_iff_ne, owner_eq]
    exact ⟨on, other⟩
  simp only [execQctlWrite, free, State.modQueue, if_pos discarded]
  exact if_neg (by omega)

/-- 22 R417: through the other port, or more than the queue holds. -/
theorem execQtailWrite_refused {q : Nat} (hp : p < 2) (hq : q < 64)
    (bad : natField (s.queue q).qctl.toNat 59 59 ≠ p ∨
      2 ^ natField (s.queue q).qctl.toNat 39 35 < (v.toNat % 2 ^ 32 + 2 ^ 32 - (s.queue q).qhead) % 2 ^ 32) :
    execQtailWrite p q v s = .next (s.modQueue q HostQueue.setErr) := by
  rw [← owner_eq, ← fieldNat_eq_natField] at bad
  rw [execQtailWrite, if_neg (by omega), State.modQueue, State.modQueue]
  rcases bad with other | far
  · rw [if_pos other]
  · rw [if_pos far, ite_self]

theorem execQtailWrite_taken {q : Nat} (hp : p < 2) (hq : q < 64) (own : natField (s.queue q).qctl.toNat 59 59 = p)
    (room : (v.toNat % 2 ^ 32 + 2 ^ 32 - (s.queue q).qhead) % 2 ^ 32 ≤ 2 ^ natField (s.queue q).qctl.toNat 39 35) :
    execQtailWrite p q v s = .next (s.modQueue q fun x => { x with qtail := v.toNat % 2 ^ 32 }) := by
  rw [← owner_eq] at own
  rw [← fieldNat_eq_natField] at room
  rw [execQtailWrite, if_neg (by omega), State.modQueue, State.modQueue, if_neg (fun other => other own), if_neg (Nat.not_lt.mpr room)]

theorem queueRegisterRows : QueueRegisterRows := by
  rintro s p q v x rfl hp hq
  refine ⟨fun free own => ?_, fun free on other => ?_, fun w waits => ⟨fun bad => ?_, fun base dev low high same mode => ?_⟩,
    fun free => ?_, fun bad => ?_, fun own room => ?_⟩
  · exact ⟨_, (exec_qctlWrite ..).trans (execQctlWrite_taken hp hq free own), rfl, queue_modQueue_same ..⟩
  · refine ⟨_, (exec_qctlWrite ..).trans (execQctlWrite_discarded hp hq free on other), rfl, ?_⟩
    rw [queue_modQueue_same]
    exact ⟨rfl, err_setErr _, getLsbD_qctl_setErr_other _⟩
  · refine ⟨_, (exec_qctlApply ..).trans (execQctlApply_waiting waits), rfl, ?_⟩
    rw [queue_modQueue_same, applyQctl_refused ((qctlRefused_iff _ _).mpr bad), queue_modQueue_same]
    exact ⟨rfl, err_setErr _, getLsbD_qctl_setErr_other _⟩
  · have accepted : s.qctlRefused (s.queue q) w = false := by
      refine Bool.eq_false_iff.mpr fun e => ?_
      rcases (qctlRefused_iff _ _).mp e with ⟨-, away⟩ | h | h | h | ⟨on, differs⟩ | ⟨-, h⟩
      · rcases base with h | ⟨d, h⟩
        · exact (away 0).1 h
        · exact (away d).2 h
      · omega
      · omega
      · omega
      · exact differs (same on)
      · omega
    refine ⟨_, (exec_qctlApply ..).trans (execQctlApply_waiting waits), rfl, ?_⟩
    rw [queue_modQueue_same, applyQctl_accepted accepted, queue_modQueue_same]
    exact ⟨rfl, natField_qctlValue _ _⟩
  · simp [exec_qctlApply, execQctlApply, free]
  · refine ⟨_, (exec_qtailWrite ..).trans (execQtailWrite_refused hp hq bad), rfl, ?_⟩
    rw [queue_modQueue_same]
    exact ⟨rfl, err_setErr _⟩
  · exact ⟨_, (exec_qtailWrite ..).trans (execQtailWrite_taken hp hq own room), rfl, queue_modQueue_same ..⟩

end Rows

/-- Settles O59: a host's accesses, row by row: its registers, its memory through BAR 2, its queues. -/
theorem hostRows : Obligations.HostRows := ⟨registerRows, hostMemoryRows, queueRegisterRows⟩

end Sys2Proof.Proofs.HostAccess
end

section
/-! PROOFS. Number formats: O6 and O7. What decoding a finite code answers and what rounding does with a value of the
format, put together for a conversion; then the integers of the integer forms of `mma`. -/
namespace Sys2Proof.Proofs.NumberFormats
open Sys2Proof Sys2Proof.Machine

/-! ### The parts of a code (01 R12) -/

/-- The fraction field of a code. -/
def fracOf (f : FFmt) (x : Nat) : Nat := x % 2 ^ f.fbits
/-- The exponent field of a code. -/
def expOf (f : FFmt) (x : Nat) : Nat := x / 2 ^ f.fbits % 2 ^ f.ebits
/-- Whether the sign bit of a code is set. -/
def signOf (f : FFmt) (x : Nat) : Bool := x / 2 ^ (f.fbits + f.ebits) % 2 == 1

/-- A code less its sign. -/
def magOf (f : FFmt) (x : Nat) : Nat := expOf f x * 2 ^ f.fbits + fracOf f x

theorem fracOf_lt (f : FFmt) (x : Nat) : fracOf f x < 2 ^ f.fbits := Nat.mod_lt _ (Nat.two_pow_pos _)
theorem expOf_lt (f : FFmt) (x : Nat) : expOf f x < 2 ^ f.ebits := Nat.mod_lt _ (Nat.two_pow_pos _)

theorem magOf_eq_mod (f : FFmt) (x : Nat) : magOf f x = x % 2 ^ (f.ebits + f.fbits) := by
  rw [Nat.add_comm, Nat.pow_add, Nat.mod_mul, magOf, expOf, fracOf, Nat.mul_comm, Nat.add_comm]

theorem magOf_lt_mul {f : FFmt} {x k : Nat} (h : expOf f x < k) : magOf f x < k * 2 ^ f.fbits := by
  have frac := fracOf_lt f x
  calc magOf f x < (expOf f x + 1) * 2 ^ f.fbits := by
        rw [magOf, Nat.succ_mul]
        omega
    _ ≤ k * 2 ^ f.fbits := Nat.mul_le_mul_right _ h

theorem signCode_add_magOf {f : FFmt} {x : Nat} (h : x < 2 ^ (1 + f.ebits + f.fbits)) :
    f.signCode (signOf f x) + magOf f x = x := by
  have top : x / 2 ^ (f.ebits + f.fbits) < 2 := by
    rw [Nat.div_lt_iff_lt_mul (Nat.two_pow_pos _), ← Nat.pow_succ', Nat.succ_eq_one_add, ← Nat.add_assoc]
    exact h
  have sign : f.signCode (signOf f x) = 2 ^ (f.ebits + f.fbits) * (x / 2 ^ (f.ebits + f.fbits)) := by
    rw [FFmt.signCode, signOf, Nat.add_comm f.fbits]
    generalize x / 2 ^ (f.ebits + f.fbits) = b at top ⊢
    rcases (by omega : b = 0 ∨ b = 1) with rfl | rfl
    · rw [Nat.mul_zero]
      exact if_neg (by decide)
    · rw [Nat.mul_one]
      exact if_pos (by decide)
  rw [sign, magOf_eq_mod, Nat.div_add_mod]

/-! ### What a finite code stands for -/

/-- Decoding, in the parts of a code. -/
theorem decode_eq (f : FFmt) (x : Nat) : f.decode x =
    if f.spec = .ieee ∧ expOf f x = 2 ^ f.ebits - 1 then (if fracOf f x = 0 then .inf (signOf f x) else .nan)
    else if f.spec = .e4m3 ∧ expOf f x = 2 ^ f.ebits - 1 ∧ fracOf f x = 2 ^ f.fbits - 1 then .nan
    else if expOf f x = 0 then .fin (signOf f x) (fracOf f x) f.qmin
    else .fin (signOf f x) (2 ^ f.fbits + fracOf f x) (f.qmin + (expOf f x - 1)) := by
  have unit : (expOf f x : Int) - f.bias - f.fbits = f.qmin + (expOf f x - 1) := by
    rw [FFmt.qmin]
    omega
  rw [← unit]
  simp only [FFmt.decode, Bool.and_eq_true, beq_iff_eq, and_assoc]
  rfl

/-- A finite code is none of the special ones (01 R13). It stands for its fraction at the smallest exponent when its
exponent field is 0, and else for its fraction with the hidden bit (01 R12). -/
theorem of_decode_eq_fin {f : FFmt} {x m : Nat} {n : Bool} {e : Int} (h : f.decode x = .fin n m e) :
    (f.spec = .ieee → expOf f x ≠ 2 ^ f.ebits - 1) ∧
      (f.spec = .e4m3 → expOf f x = 2 ^ f.ebits - 1 → fracOf f x ≠ 2 ^ f.fbits - 1) ∧ n = signOf f x ∧
      ((expOf f x = 0 ∧ m = fracOf f x ∧ e = f.qmin) ∨
        ∃ k : Nat, expOf f x = k + 1 ∧ m = 2 ^ f.fbits + fracOf f x ∧ e = f.qmin + k) := by
  rw [decode_eq] at h
  split at h
  · split at h <;> cases h
  next noInfinity =>
    split at h
    · cases h
    next noNan =>
      refine ⟨fun i a => noInfinity ⟨i, a⟩, fun i a b => noNan ⟨i, a, b⟩, ?_⟩
      split at h
      next zero =>
        cases h
        exact ⟨rfl, .inl ⟨zero, rfl, rfl⟩⟩
      next pos =>
        cases h
        exact ⟨rfl, .inr ⟨expOf f x - 1, by omega, rfl, by omega⟩⟩

/-- The magnitude of a finite code is at most that of the largest (01 R13). -/
theorem magOf_le_maxCode {f : FFmt} {x m : Nat} {n : Bool} {e : Int} (h : f.decode x = .fin n m e) : magOf f x ≤ f.maxCode := by
  obtain ⟨noInfinity, noNan, -, -⟩ := of_decode_eq_fin h
  have exp := expOf_lt f x
  have below : expOf f x ≠ 2 ^ f.ebits - 1 → magOf f x < (2 ^ f.ebits - 1) * 2 ^ f.fbits := fun ne => magOf_lt_mul (by omega)
  have whole : 2 ^ (f.ebits + f.fbits) = (2 ^ f.ebits - 1) * 2 ^ f.fbits + 2 ^ f.fbits := by
    rw [← Nat.succ_mul, Nat.succ_eq_add_one, Nat.sub_add_cancel (Nat.one_le_two_pow), Nat.pow_add]
  cases spec : f.spec with
  | ieee =>
    simp only [FFmt.maxCode, spec]
    exact Nat.le_sub_one_of_lt (below (noInfinity spec))
  | e4m3 =>
    simp only [FFmt.maxCode, spec, whole]
    have frac := fracOf_lt f x
    by_cases top : expOf f x = 2 ^ f.ebits - 1
    · have := noNan spec top
      rw [magOf, top]
      omega
    · have := below top
      omega
  | none =>
    simp only [FFmt.maxCode, spec, Nat.pow_add]
    exact Nat.le_sub_one_of_lt (magOf_lt_mul exp)

/-! ### Rounding a value that the format has (01 R28) -/

theorem roundQ_self (mode : RMode) (m : Nat) (e : Int) : roundQ mode m e e = m := by
  rw [roundQ, if_pos (Int.le_refl e), Int.sub_self, Int.toNat_zero, Nat.pow_zero, Nat.mul_one]

theorem roundCode_subnormal {f : FFmt} (mode : RMode) {m : Nat} (h : m < 2 ^ f.fbits) : f.roundCode mode m f.qmin = m := by
  by_cases zero : m = 0
  · rw [FFmt.roundCode, if_pos zero, zero]
  · have low : Nat.log2 m < f.fbits := (Nat.log2_lt zero).mpr h
    have unit : max (floorLog2 m f.qmin - f.fbits) f.qmin = f.qmin := by
      rw [floorLog2]
      omega
    rw [FFmt.roundCode, if_neg zero]
    simp only [unit, roundQ_self]
    rw [Int.sub_self, Int.toNat_zero, Nat.zero_mul, Nat.zero_add]

theorem roundCode_normal {f : FFmt} (mode : RMode) {r : Nat} (k : Nat) (h : r < 2 ^ f.fbits) :
    f.roundCode mode (2 ^ f.fbits + r) (f.qmin + k) = (k + 1) * 2 ^ f.fbits + r := by
  have pos : 2 ^ f.fbits + r ≠ 0 := by
    have := Nat.two_pow_pos f.fbits
    omega
  have lead : Nat.log2 (2 ^ f.fbits + r) = f.fbits := by
    rw [Nat.log2_eq_iff pos, Nat.pow_succ]
    omega
  have unit : max (floorLog2 (2 ^ f.fbits + r) (f.qmin + k) - f.fbits) f.qmin = f.qmin + k := by
    rw [floorLog2, lead]
    omega
  have above : (f.qmin + k - f.qmin).toNat = k := by omega
  rw [FFmt.roundCode, if_neg pos]
  simp only [unit, roundQ_self]
  rw [above, Nat.succ_mul, Nat.add_assoc]

theorem roundCode_of_decode {f : FFmt} {x m : Nat} {n : Bool} {e : Int} (mode : RMode) (h : f.decode x = .fin n m e) :
    f.roundCode mode m e = magOf f x := by
  obtain ⟨-, -, -, ⟨zero, rfl, rfl⟩ | ⟨k, exp, rfl, rfl⟩⟩ := of_decode_eq_fin h
  · rw [roundCode_subnormal mode (fracOf_lt f x), magOf, zero, Nat.zero_mul, Nat.zero_add]
  · rw [roundCode_normal mode k (fracOf_lt f x), magOf, exp]

theorem convert_fin_of_le {f : FFmt} {mode : RMode} {m : Nat} {e : Int} (sat drain n : Bool) (h : f.roundCode mode m e ≤ f.maxCode) :
    f.convert mode sat drain (.fin n m e) = (f.signCode n + f.roundCode mode m e, 0) := if_pos h

/-- Converting what a finite code stands for gives the code back, whatever the widths and the bias of the format
(01 R28). -/
theorem convert_of_decode {f : FFmt} {x m : Nat} {n : Bool} {e : Int} (mode : RMode) (sat drain : Bool)
    (hx : x < 2 ^ (1 + f.ebits + f.fbits)) (h : f.decode x = .fin n m e) : f.convert mode sat drain (.fin n m e) = (x, 0) := by
  obtain ⟨-, -, sign, -⟩ := of_decode_eq_fin h
  have round := roundCode_of_decode mode h
  rw [convert_fin_of_le sat drain n (round ▸ magOf_le_maxCode h), round, sign, signCode_add_magOf hx]

/-- Settles O6: a finite code is rounded to itself, on every path. -/
theorem finiteCodesKept : Obligations.FiniteCodesKept :=
  fun _ _ mode sat drain _ _ _ _ hx h => convert_of_decode mode sat drain hx h

/-! ### The integer forms of `mma` (01 R27) -/

@[simp] theorem fvalInt_ofInt (i : Int) : fvalInt (.ofInt i) = i := by
  simp only [fvalInt, FVal.ofInt, Int.toNat_zero, Nat.pow_zero, Nat.mul_one, decide_eq_true_eq]
  split <;> omega

theorem toSigned_eq_toInt_ofNat (w n : Nat) : toSigned w n = (BitVec.ofNat w n).toInt := by
  have half : n % 2 ^ w < 2 ^ (w - 1) ↔ 2 * (n % 2 ^ w) < 2 ^ w := by
    cases w with
    | zero => rw [Nat.pow_zero, Nat.mod_one]
    | succ w => rw [Nat.add_sub_cancel, Nat.pow_succ]; omega
  simp only [toSigned, BitVec.toInt_eq_toNat_cond, BitVec.toNat_ofNat, half]

theorem ofSigned_eq_toNat_ofInt (w : Nat) (i : Int) : ofSigned w i = (BitVec.ofInt w i).toNat := by
  rw [ofSigned, BitVec.toNat_ofInt]

theorem foldl_add_eq_add_sum (l : List Nat) (g : Nat → Int) (i : Int) : l.foldl (fun t k => t + g k) i = i + (l.map g).sum := by
  rw [← List.foldl_map (f := g) (g := (· + ·)), List.sum_eq_foldl,
    ← List.foldl_assoc (op := ((· + ·) : Int → Int → Int)), Int.add_zero]

/-- IOVF: the true sum lies outside the INT32 range. -/
theorem iovf_ite (i : Int) : (if i < -2147483648 ∨ 2147483647 < i then flIovf else 0) =
    if -2 ^ 31 ≤ i ∧ i < 2 ^ 31 then 0 else flIovf := by
  have outside : (i < -2147483648 ∨ 2147483647 < i) ↔ ¬ (-2 ^ 31 ≤ i ∧ i < 2 ^ 31) := by omega
  by_cases inside : -2 ^ 31 ≤ i ∧ i < 2 ^ 31
  · rw [if_pos inside, if_neg fun out => outside.mp out inside]
  · rw [if_neg inside, if_pos (outside.mpr inside)]

/-- 01 R27, for elements of any integer format. -/
theorem mmaElem_int (chunk k : Nat) (a b : Nat → FVal × NFlags) (acc : Nat) :
    let sum : Int := (BitVec.ofNat 32 acc).toInt + ((List.range k).map fun i => fvalInt (a i).1 * fvalInt (b i).1).sum
    mmaElem 2 chunk k 0 1 a b acc = ((BitVec.ofInt 32 sum).toNat, if -2 ^ 31 ≤ sum ∧ sum < 2 ^ 31 then 0 else flIovf) := by
  simp only [mmaElem, if_true, Nat.zero_lt_one, foldl_add_eq_add_sum, toSigned_eq_toInt_ofNat, ofSigned_eq_toNat_ofInt, iovf_ite]

/-- The integer forms: their accumulator is INT32, and their one chunk is the whole reduction (01 R27, 06 R142). -/
theorem mmaForm_int {fig : Nat} (h : fig = 0x14 ∨ fig = 0x18) : ∃ fa fb, mmaForm fig = some (fa, fb, 2, 0) := by
  rcases h with rfl | rfl <;> exact ⟨_, _, rfl⟩

/-- Settles O7: the sum is exact, and is reduced modulo 2^32 once. -/
theorem integerMatrixAccumulation : Obligations.IntegerMatrixAccumulation := by
  intro fig hfig
  obtain ⟨fa, fb, form⟩ := mmaForm_int hfig
  refine ⟨fa, fb, 0, form, fun k acc a b fl _ sum hsum => ?_⟩
  rw [mmaElem_int, hsum]
  simp only [fvalInt_ofInt]

end Sys2Proof.Proofs.NumberFormats
end

section
/-! PROOFS. The words of lane instructions: O17. -/
namespace Sys2Proof.Proofs.LaneWords
open Sys2Proof Sys2Proof.Claim

/-! ### The encoder puts back the fields that the decoder takes (03 R74, R75) -/

/-- A field of one bit is that bit. -/
theorem ofBool_getLsbD {w : Nat} (x : BitVec w) (i : Nat) : BitVec.ofBool (x.getLsbD i) = x.extractLsb' i 1 := by
  refine BitVec.eq_of_getLsbD_eq fun j hj => ?_
  obtain rfl : j = 0 := by omega
  simp

theorem encodeShort_shortFields {w0 : W32} (h : w0.getLsbD 25 = false) :
    encodeShort (w0.extractLsb' 26 6).toNat (shortFields w0) = w0 := by
  have form : (0 : BitVec 1) = w0.extractLsb' 25 1 := by rw [← ofBool_getLsbD, h]; rfl
  simp (disch := decide) only [encodeShort, shortFields, BitVec.ofNat_toNat, BitVec.setWidth_eq, form, ofBool_getLsbD,
    BitVec.extractLsb'_append_extractLsb'_eq_extractLsb']
  exact Laws.ext_all w0

theorem encodeLong0_longFields {w0 : W32} (w1 : W32) (h : w0.getLsbD 25 = true) :
    encodeLong0 (w0.extractLsb' 26 6).toNat (longFields w0 w1) = w0 := by
  have form : (1 : BitVec 1) = w0.extractLsb' 25 1 := by rw [← ofBool_getLsbD, h]; rfl
  simp (disch := decide) only [encodeLong0, longFields, BitVec.ofNat_toNat, BitVec.setWidth_eq, form, ofBool_getLsbD,
    BitVec.extractLsb'_append_extractLsb'_eq_extractLsb']
  exact Laws.ext_all w0

theorem encodeLong1_longFields (w0 w1 : W32) : encodeLong1 (w1.extractLsb' 26 6).toNat (longFields w0 w1) = w1 := by
  simp (disch := decide) only [encodeLong1, longFields, BitVec.ofNat_toNat, BitVec.setWidth_eq, ofBool_getLsbD,
    BitVec.extractLsb'_append_extractLsb'_eq_extractLsb']
  exact Laws.ext_all w1

/-! ### The encoder gives back the row of the opcode map (04 R90, R91) -/

theorem mem_of_codeRow {α : Type} {t : List (Nat × α)} {k : Nat} {v : α} (h : codeRow t k = some v) : (k, v) ∈ t := by
  induction t with
  | nil => cases h
  | cons e r ih =>
    obtain ⟨j, u⟩ := e
    rw [codeRow] at h
    split at h
    · next hj => cases h; subst hj; exact List.mem_cons_self
    · exact List.mem_cons_of_mem _ (ih h)

/-- Every row of the map of short forms is the row that the encoder names. -/
theorem shortCodes_encForm : ∀ e ∈ shortCodes, ∀ f, (e.2 f).wf = true ∧ encForm (e.2 f) = .short e.1 f := by
  intro e he f
  have rows : shortCodes.map (fun e => ((e.2 f).wf, encForm (e.2 f))) = shortCodes.map (fun e => (true, .short e.1 f)) := rfl
  exact Prod.mk.inj (List.map_inj_left.mp rows e he)

theorem singleCodes_encForm : ∀ e ∈ singleCodes, ∀ f, (e.2 f).wf = true ∧ encForm (e.2 f) = .long e.1 0 f := by
  intro e he f
  have rows : singleCodes.map (fun e => ((e.2 f).wf, encForm (e.2 f))) = singleCodes.map (fun e => (true, .long e.1 0 f)) := rfl
  exact Prod.mk.inj (List.map_inj_left.mp rows e he)

theorem groupCodes_encForm : ∀ e ∈ groupCodes, ∀ f, (e.2 f).wf = true ∧ encForm (e.2 f) = .long (e.1 / 64) (e.1 % 64) f := by
  intro e he f
  have rows : groupCodes.map (fun e => ((e.2 f).wf, encForm (e.2 f))) = groupCodes.map (fun e => (true, .long (e.1 / 64) (e.1 % 64) f)) := rfl
  exact Prod.mk.inj (List.map_inj_left.mp rows e he)

theorem decodeRslot_encForm (f : LLong) : (decodeRslot f).wf = true ∧ encForm (decodeRslot f) = .long 0x29 3 f := by
  unfold decodeRslot
  split
  · next form => exact ⟨beq_iff_eq.mpr form, rfl⟩
  · next form => exact ⟨beq_iff_eq.mpr form, rfl⟩
  · next form => exact ⟨beq_iff_eq.mpr form, rfl⟩
  · next h0 h1 h2 =>
    have form : f.mod.toNat % 4 = 3 := by
      have four : f.mod.toNat % 4 < 4 := Nat.mod_lt _ (by decide)
      have n0 : f.mod.toNat % 4 ≠ 0 := h0
      have n1 : f.mod.toNat % 4 ≠ 1 := h1
      have n2 : f.mod.toNat % 4 ≠ 2 := h2
      omega
    exact ⟨beq_iff_eq.mpr form, rfl⟩

/-! ### The two forms of a lane word -/

theorem words_of_short {w0 w1 : W32} {i : Instr} (form : w0.getLsbD 25 = false)
    (h : i.wf = true ∧ encForm i = .short (w0.extractLsb' 26 6).toNat (shortFields w0)) :
    i.wf = true ∧ encode i = if w0.getLsbD 25 then [w0, w1] else [w0] := by
  obtain ⟨wf, enc⟩ := h
  simp only [encode, enc, form, encodeShort_shortFields form]
  exact ⟨wf, rfl⟩

theorem words_of_long {w0 w1 : W32} {i : Instr} (form : w0.getLsbD 25 = true)
    (h : i.wf = true ∧ encForm i = .long (w0.extractLsb' 26 6).toNat (w1.extractLsb' 26 6).toNat (longFields w0 w1)) :
    i.wf = true ∧ encode i = if w0.getLsbD 25 then [w0, w1] else [w0] := by
  obtain ⟨wf, enc⟩ := h
  simp only [encode, enc, form, encodeLong0_longFields w1 form, encodeLong1_longFields]
  exact ⟨wf, rfl⟩

theorem words_of_retired {w0 w1 : W32} (op : (w0.extractLsb' 26 6).toNat = 0x3E ∨ (w0.extractLsb' 26 6).toNat = 0x3F) :
    (Instr.retiredLaneOpcode w0 (if w0.getLsbD 25 then w1 else 0)).wf = true ∧
      encode (.retiredLaneOpcode w0 (if w0.getLsbD 25 then w1 else 0)) = if w0.getLsbD 25 then [w0, w1] else [w0] := by
  have high : 0x3E ≤ (w0.extractLsb' 26 6).toNat := by omega
  refine ⟨?_, ?_⟩
  · show (decide (0x3E ≤ (w0.extractLsb' 26 6).toNat) && (w0.getLsbD 25 || (if w0.getLsbD 25 then w1 else 0) == 0)) = true
    rw [decide_eq_true high]
    cases w0.getLsbD 25 <;> rfl
  · show (if w0.getLsbD 25 then [w0, if w0.getLsbD 25 then w1 else 0] else [w0]) = _
    cases w0.getLsbD 25 <;> rfl

/-- Settles O17, by the branches of the decoder. -/
theorem laneWordsKept : Obligations.LaneWordsKept := by
  intro w0 w1 i h
  unfold decodeLane at h
  dsimp only at h
  split at h
  · next op => cases h; exact words_of_retired op
  · split at h
    · cases h
    · split at h
      · next form =>
        refine words_of_long form ?_
        split at h
        · next mk row =>
          split at h
          · next sub => cases h; rw [sub]; exact singleCodes_encForm _ (mem_of_codeRow row) _
          · cases h
        · split at h
          · next rslot => obtain ⟨op, sub⟩ := rslot; cases h; rw [op, sub]; exact decodeRslot_encForm _
          · split at h
            · next mk row =>
              cases h
              have lt : (w1.extractLsb' 26 6).toNat < 64 := (w1.extractLsb' 26 6).isLt
              have g := groupCodes_encForm _ (mem_of_codeRow row) (longFields w0 w1)
              dsimp only at g
              rwa [Nat.mul_add_div (by decide), Nat.div_eq_of_lt lt, Nat.add_zero, Nat.mul_add_mod, Nat.mod_eq_of_lt lt] at g
            · split at h <;> cases h
      · next form =>
        refine words_of_short (by simpa using form) ?_
        split at h
        · next mk row => cases h; exact shortCodes_encForm _ (mem_of_codeRow row) _
        · split at h <;> cases h

end Sys2Proof.Proofs.LaneWords
end

section
/-! PROOFS. The two-source operations of lanes that trap by their fields or wait for their operands: O8. -/
namespace Sys2Proof.Proofs.LaneIssue
open Sys2Proof Sys2Proof.Machine Sys2Proof.Claim

/-! ### The two-source operations and their field checks (07 R152, R153) -/

/-- What `mod` may hold: I, and its bit 0 where the operation defines it. -/
def modMask (bit0 : Bool) : Nat := if bit0 then 9 else 8

/-- Each two-source operation is a pass of the arithmetic form with two sources. -/
theorem exec_twoSource : ∀ e ∈ twoSource, ∀ f : LLong, ∃ g, ∀ s : State,
    exec (e.2.1 f) s = runPass (laneBin f 8 e.2.2.2.1 (modMask e.2.2.2.2.1) true g) s := by
  intro e he f
  simp only [twoSource, List.mem_cons, List.not_mem_nil, or_false] at he
  rcases he with rfl | rfl | rfl | rfl | rfl | rfl | rfl | rfl | rfl | rfl | rfl | rfl | rfl | rfl | rfl | rfl | rfl | rfl | rfl <;>
    exact ⟨_, fun _ => rfl⟩

theorem useImm_iff (f : LLong) : useImm f = true ↔ 8 ≤ f.mod.toNat := by
  have lt : f.mod.toNat < 16 := f.mod.isLt
  simp only [useImm, beq_iff_eq]
  omega

theorem modIn_modMask_iff (f : LLong) (bit0 : Bool) :
    modIn f (modMask bit0) = true ↔ f.mod.toNat % 8 = 0 ∨ (f.mod.toNat % 8 = 1 ∧ bit0 = true) := by
  have all : ∀ m : BitVec 4, ∀ b : Bool,
      (Nat.lor m.toNat (modMask b) == modMask b) = true ↔ m.toNat % 8 = 0 ∨ (m.toNat % 8 = 1 ∧ b = true) := by decide
  exact all f.mod bit0

theorem bOk_iff (f : LLong) : bOk f true = true ↔ blegal f true := by
  have zero : f.b.toNat = 0 ↔ f.b = 0 := BitVec.toNat_eq (y := 0) |>.symm
  have imm0 : f.imm.toNat = 0 ↔ f.imm = 0 := BitVec.toNat_eq (y := 0) |>.symm
  by_cases imm : 8 ≤ f.mod.toNat
  · simp [bOk, blegal, useImm_iff, imm, zero]
  · have plain : useImm f = false := by simpa [← useImm_iff] using imm
    have uniform : (f.u = false ∨ f.b.toNat < 32) ↔ (f.u = true → f.b.toNat < 32) := by cases f.u <;> simp
    simp [bOk, blegal, plain, imm, imm0, uniform]

theorem bRegs_eq (f : LLong) (w : Bool) : bRegs f true w = breg f true w := by
  simp only [bRegs, breg, Bool.or_eq_true, Bool.true_and, true_and, useImm_iff]

theorem laneBin_valid_iff (f : LLong) (tys : List Nat) (bit0 : Bool) (g : Nat → Nat → Nat → Nat → Nat × NFlags) :
    (laneBin f 8 tys (modMask bit0) true g).valid = true ↔
      f.ty.toNat ∈ tys ∧ (f.mod.toNat % 8 = 0 ∨ (f.mod.toNat % 8 = 1 ∧ bit0 = true)) ∧ blegal f true := by
  simp [laneBin, laneMean, modIn_modMask_iff, bOk_iff, and_assoc]

theorem laneBin_vs (f : LLong) (tys : List Nat) (mask : Nat) (g : Nat → Nat → Nat → Nat → Nat × NFlags) :
    (laneBin f 8 tys mask true g).vs =
      (f.d.toNat, tyWide f.ty.toNat) :: (f.a.toNat, tyWide f.ty.toNat) :: breg f true (tyWide f.ty.toNat) := by
  simp only [laneBin, laneMean, bRegs_eq]

/-! ### What keeps a pass from issuing (03 R61, R77, R81) -/

section Pass
variable {s : State} {m : LMean}

theorem passLanes_of_fused (h : m.split = false) (l : List LaneRef) : passLanes m l = l := by simp [passLanes, h]

/-- A pass with an illegal field, or a register its gang has not, traps its gang whatever the guards. -/
theorem runPass_illegal (fused : m.split = false) (occupied : pass s ≠ [])
    (h : (m.valid && m.vs.all (vOk (strand s (lead s).slot).nregs)) = false) :
    runPass m s = .next (laneTrapped s (lead s) m.bad 0 0) := by
  have nonempty : s.turn.pass.isEmpty = false := by simpa using occupied
  have bad : (m.valid && m.vs.all (vOk
      ((passEnv m s.turn.core s.turn.part s.turn.pass s).strand (s.turn.pass.headD ⟨0, 0⟩)).nregs)) = false := h
  simp only [runPass, issuePassOf, passResult, passTry, passLanes_of_fused fused, nonempty, bad]
  rfl

/-- A pass of which a lane may not issue, and whose fields are legal, is held. -/
theorem runPass_held (fused : m.split = false) (diverged : m.conv = false)
    (h : m.valid = true) (regs : m.vs.all (vOk (strand s (lead s).slot).nregs) = true)
    (wait : ∃ r ∈ pass s, (lane s r).issuable m = false) : runPass m s = .next s := by
  obtain ⟨r, hr, held⟩ := wait
  have nonempty : s.turn.pass.isEmpty = false := by simpa using List.ne_nil_of_mem hr
  have good : m.vs.all (vOk
      ((passEnv m s.turn.core s.turn.part s.turn.pass s).strand (s.turn.pass.headD ⟨0, 0⟩)).nregs) = true := regs
  have waits : s.turn.pass.all
      (fun r => ((passEnv m s.turn.core s.turn.part s.turn.pass s).lane r).issuable m) = false :=
    List.all_eq_false.mpr ⟨r, hr, ne_true_of_eq_false held⟩
  simp only [runPass, issuePassOf, passResult, passTry, passLanes_of_fused fused, nonempty, good, h, diverged, waits]
  rfl

theorem not_issuable_of_guard {l : Lane} (h : m.gp ∈ l.pendP) : l.issuable m = false := by
  simp [Lane.issuable, Lane.clear, h]

theorem not_issuable_of_operand {l : Lane} {o : Nat × Bool} (guard : l.guard m = true) (ho : o ∈ m.vs) (h : o.1 ∈ l.pendV) :
    l.issuable m = false := by
  have blocked : l.clear m.vs m.ps = false := by
    simp only [Lane.clear, Bool.and_eq_false_iff]
    exact .inl (List.all_eq_false.mpr ⟨o, ho, by simp [h]⟩)
  simp [Lane.issuable, guard, blocked]

end Pass

/-- Settles O8: each operation is a pass of the arithmetic form, whose attempt checks the fields and the registers first, then
the pending bits. -/
theorem laneHoldsAndIllegalFields : Obligations.LaneHoldsAndIllegalFields := by
  intro s f _ occupied e he legal hlegal names hnames
  obtain ⟨g, hexec⟩ := exec_twoSource e he f
  let m := laneBin f 8 e.2.2.2.1 (modMask e.2.2.2.2.1) true g
  have valid : m.valid = true ↔ legal := (laneBin_valid_iff f _ _ g).trans hlegal.symm
  have vs : m.vs = names := (laneBin_vs f _ _ g).trans hnames.symm
  rw [hexec s]
  refine ⟨fun illegal => ?_, fun fields regs wait => ?_⟩
  · refine runPass_illegal (m := m) rfl occupied ?_
    rw [vs, Bool.and_eq_false_iff]
    rcases illegal with fields | ⟨o, ho, missing⟩
    · exact .inl (Bool.eq_false_iff.mpr fun v => fields (valid.mp v))
    · exact .inr (List.all_eq_false.mpr ⟨o, ho, by simp [missing]⟩)
  · refine runPass_held (m := m) rfl rfl (valid.mpr fields) (by rw [vs]; exact List.all_eq_true.mpr regs) ?_
    obtain ⟨r, hr, guard | ⟨act, o, ho, pend⟩⟩ := wait
    · exact ⟨r, hr, not_issuable_of_guard guard⟩
    · exact ⟨r, hr, not_issuable_of_operand (List.mem_filter.mp act).2 (vs ▸ ho) pend⟩

end Sys2Proof.Proofs.LaneIssue
end

section
/-! PROOFS. What happens to strands between their passes: O9. The rotation, the joins, then the hang detector. -/
namespace Sys2Proof.Proofs.StrandRows
open Sys2Proof Sys2Proof.Machine Sys2Proof.Claim Sys2Proof.Laws

variable {s : State} {core part : Nat}

/-! ### The rotation of a partition's strands (03 R63) -/

/-- Of two strands, the one that leaves the active set first: the earlier entered, then the higher slot. -/
def firstOut (b a : Nat × Strand) : Nat × Strand :=
  if a.2.entered < b.2.entered || (a.2.entered == b.2.entered && b.1 < a.1) then a else b

theorem firstOut_entered_le (b a : Nat × Strand) :
    (firstOut b a).2.entered ≤ b.2.entered ∧ (firstOut b a).2.entered ≤ a.2.entered := by
  unfold firstOut
  split
  · next earlier =>
    simp only [Bool.or_eq_true, decide_eq_true_eq, Bool.and_eq_true, beq_iff_eq] at earlier
    omega
  · next later =>
    simp only [Bool.or_eq_true, decide_eq_true_eq, Bool.and_eq_true, beq_iff_eq] at later
    omega

theorem firstOut_mem (b a : Nat × Strand) (r : List (Nat × Strand)) : firstOut b a ∈ b :: a :: r := by
  unfold firstOut
  split <;> simp

theorem oldestActive_cons_cons (b a : Nat × Strand) (r : List (Nat × Strand)) :
    oldestActive (b :: a :: r) = oldestActive (firstOut b a :: r) := by
  simp only [oldestActive, List.foldl_cons, firstOut]
  split <;> rfl

/-- The strand that leaves the active set is one that entered it earliest. -/
theorem oldestActive_cons (l : List (Nat × Strand)) (b : Nat × Strand) :
    ∃ o ∈ b :: l, oldestActive (b :: l) = some o ∧ ∀ e ∈ b :: l, o.2.entered ≤ e.2.entered := by
  induction l generalizing b with
  | nil => exact ⟨b, List.mem_cons_self, rfl, by simp⟩
  | cons a r ih =>
    obtain ⟨o, ho, oldest, least⟩ := ih (firstOut b a)
    obtain ⟨leb, lea⟩ := firstOut_entered_le b a
    rw [List.forall_mem_cons] at least
    obtain ⟨first, others⟩ := least
    refine ⟨o, ?_, (oldestActive_cons_cons b a r).trans oldest, ?_⟩
    · rcases List.mem_cons.mp ho with rfl | ho
      · exact firstOut_mem b a r
      · exact List.mem_cons_of_mem _ (List.mem_cons_of_mem _ ho)
    · rw [List.forall_mem_cons, List.forall_mem_cons]
      exact ⟨Nat.le_trans first leb, Nat.le_trans first lea, others⟩

theorem oldestActive_of_ne_nil {act : List (Nat × Strand)} (h : act ≠ []) :
    ∃ o ∈ act, oldestActive act = some o ∧ ∀ e ∈ act, o.2.entered ≤ e.2.entered := by
  cases act with
  | nil => exact absurd rfl h
  | cons b l => exact oldestActive_cons l b

/-- The state after a rotation: strand `out` leaves the active set and strand `into` enters it. -/
def rotated (s : State) (core part out into : Nat) : State :=
  ((s.modStrand core part out (fun y => { y with active := false, entered := s.cycle })).modStrand core part into
    (fun y => { y with active := true, entered := s.cycle })).modPart core part (fun y => { y with rotated := s.cycle + 1 })

theorem exec_strandRotation {act : List (Nat × Strand)} {w o : Nat × Strand}
    (hact : (s.part core part).strands.filter (fun e => e.2.active) = act)
    (wait : longestWait ((s.part core part).strands.filter (fun e => !e.2.active && (s.readySlots core part).contains e.1)) = some w)
    (oldest : oldestActive act = some o) (full : 8 ≤ act.length) (due : w.2.entered + 128 ≤ s.cycle)
    (once : (s.part core part).rotated ≠ s.cycle + 1) :
    exec (.strandRotation core part) s = .next (rotated s core part o.1 w.1) := by
  have may : (decide (act.length < 8) || decide (s.cycle < w.2.entered + 128) || (s.part core part).rotated == s.cycle + 1) = false := by
    simp [once]; omega
  show execStrandRotation core part s = _
  simp only [execStrandRotation, wait, hact, oldest, may]
  rfl

theorem part_rotated_rotated (out into : Nat) : ((rotated s core part out into).part core part).rotated = s.cycle + 1 := by
  simp only [rotated, part_modPart_same]

theorem strand_rotated (out into sl : Nat) : (rotated s core part out into).strand core part sl =
    ((s.modStrand core part out (fun y => { y with active := false, entered := s.cycle })).modStrand core part into
      (fun y => { y with active := true, entered := s.cycle })).strand core part sl := by
  simp only [rotated, State.strand, part_modPart_same]
  rfl

theorem strand_rotated_into (out into : Nat) :
    ((rotated s core part out into).strand core part into).active = true ∧
      ((rotated s core part out into).strand core part into).entered = s.cycle := by
  rw [strand_rotated, strand_modStrand_same]
  exact ⟨rfl, rfl⟩

theorem strand_rotated_out {out into : Nat} (h : out ≠ into) :
    ((rotated s core part out into).strand core part out).active = false := by
  rw [strand_rotated, strand_modStrand_other _ _ _ _ _ _ h, strand_modStrand_same]

/-! ### What an update of a partition leaves alone -/

theorem core_modPart (s : State) (k p : Nat) (f : Part → Part) (j : Nat) :
    (s.modPart k p f).core j = { s.core j with parts := ((s.modPart k p f).core j).parts } := by
  by_cases h : j = k
  · subst h
    rw [State.modPart, State.setPart, core_modCore_same]
    rfl
  · rw [State.modPart, State.setPart, core_modCore_other _ _ _ _ h]

theorem sameElse_modPart (s : State) (k p : Nat) (f : Part → Part) : sameElse s (s.modPart k p f) := by
  refine ⟨⟨fun _ => rfl, fun j a => ?_, fun j n => ?_⟩, fun j c => ?_⟩
  · rw [core_modPart]
  · rw [core_modPart]
  · rw [State.ctx, core_modPart]
    rfl

theorem strand_setStrand_same (s : State) (k p sl : Nat) (x : Strand) : (s.setStrand k p sl x).strand k p sl = x :=
  strand_modStrand_same s k p sl (fun _ => x)

/-! ### Joins (03 R68, 08 R185) -/

/-- A lane that a join has released: it waits no more, and the predicate of the join holds the timeout flag. -/
def released (j : Join) (flag : Bool) (l : Lane) : Prop := l.wait = .none ∧ (j.pred < 7 → l.getP j.pred = flag)

/-- The release of one lane of a join. -/
def releaseLane (j : Join) (flag : Bool) (st : Strand) (l : Nat) : Strand :=
  if (st.lane l).exited then st else st.modLane l (fun y => { y.setP j.pred flag with wait := .none })

variable (j : Join) (flag : Bool) (st : Strand)

theorem closeJoin_eq : st.closeJoin j flag =
    j.waiting.foldl (releaseLane j flag) { st with joins := st.joins.filter (fun q => q.addr != j.addr) } := rfl

theorem getP_setP_same (l : Lane) {n : Nat} (b : Bool) (h : n < 7) : (l.setP n b).getP n = b := by
  have ne : n ≠ 7 := by omega
  have lt : n < 8 := by omega
  have bit : (BitVec.ofNat 8 (2 ^ n)).getLsbD n = true := by
    rw [BitVec.getLsbD_ofNat, Nat.testBit_two_pow_self, decide_eq_true lt, Bool.and_self]
  have seven : (n == 7) = false := beq_false_of_ne ne
  cases b
  · simp only [Lane.getP, Lane.setP, if_neg ne, seven, Bool.false_or, Bool.false_eq_true, if_false, BitVec.getLsbD_and,
      BitVec.getLsbD_not, bit, Bool.not_true, Bool.and_false]
  · simp only [Lane.getP, Lane.setP, if_neg ne, seven, if_true, BitVec.getLsbD_or, bit, Bool.or_true]

theorem exited_setP (l : Lane) (n : Nat) (b : Bool) : (l.setP n b).exited = l.exited := by
  unfold Lane.setP
  split <;> rfl

theorem releaseLane_joins (l : Nat) : (releaseLane j flag st l).joins = st.joins := by
  unfold releaseLane
  split <;> rfl

theorem releaseLane_other {l k : Nat} (h : k ≠ l) : (releaseLane j flag st l).lane k = st.lane k := by
  unfold releaseLane
  split
  · rfl
  · exact lane_setLane_other _ _ _ _ h

theorem releaseLane_same {l : Nat} (h : (st.lane l).exited = false) :
    released j flag ((releaseLane j flag st l).lane l) ∧ ((releaseLane j flag st l).lane l).exited = false := by
  rw [releaseLane, if_neg (by simp [h]), Strand.modLane, lane_setLane_same]
  exact ⟨⟨rfl, fun small => getP_setP_same (st.lane l) flag small⟩, (exited_setP _ _ _).trans h⟩

/-- The release of the lanes of a list: each of them that has not exited is released, and one released before stays so. -/
theorem foldl_releaseLane (ws : List Nat) (st : Strand) {k : Nat} (live : (st.lane k).exited = false)
    (h : k ∈ ws ∨ released j flag (st.lane k)) : released j flag ((ws.foldl (releaseLane j flag) st).lane k) := by
  induction ws generalizing st with
  | nil => exact h.resolve_left List.not_mem_nil
  | cons w ws ih =>
    rw [List.foldl_cons]
    by_cases here : k = w
    · subst here
      obtain ⟨now, still⟩ := releaseLane_same j flag st live
      exact ih _ still (.inr now)
    · have same := releaseLane_other j flag st here
      refine ih _ (same ▸ live) ?_
      rw [same]
      exact h.imp_left fun m => (List.mem_cons.mp m).resolve_left here

theorem foldl_releaseLane_joins (ws : List Nat) (st : Strand) : (ws.foldl (releaseLane j flag) st).joins = st.joins := by
  induction ws generalizing st with
  | nil => rfl
  | cons w ws ih => rw [List.foldl_cons, ih, releaseLane_joins]

/-- What the end of a join does: no open join stands at its address, and its waiting lanes are released. -/
theorem setStrand_closeJoin (slot : Nat) :
    sameElse s (s.setStrand core part slot (st.closeJoin j flag)) ∧
      (∀ q ∈ ((s.setStrand core part slot (st.closeJoin j flag)).strand core part slot).joins, q.addr ≠ j.addr) ∧
      ∀ l ∈ j.waiting, (st.lane l).exited = false →
        released j flag (((s.setStrand core part slot (st.closeJoin j flag)).strand core part slot).lane l) := by
  rw [strand_setStrand_same, closeJoin_eq]
  refine ⟨sameElse_modPart _ _ _ _, fun q hq => ?_, fun l hl live => foldl_releaseLane j flag _ _ live (.inl hl)⟩
  rw [foldl_releaseLane_joins] at hq
  simpa using (List.mem_filter.mp hq).2

variable {j}

theorem joinDone_iff : st.joinDone j = true ↔ ∀ l < 32, j.mask.getLsbD l = true → (st.lane l).exited = true ∨ l ∈ j.waiting := by
  simp only [Strand.joinDone, Strand.joinLeft, List.all_eq_true, List.mem_filter, List.mem_range, Bool.and_eq_true,
    Bool.not_eq_true', List.contains_iff_mem]
  refine forall_congr' fun l => ?_
  cases (st.lane l).exited <;> simp

theorem late_eq_false {cycle : Nat} (h : ∀ d, j.deadline = some d → cycle ≤ d) : j.late cycle = false := by
  unfold Join.late
  split
  · next d hd => simpa using h d hd
  · rfl

theorem late_eq_true {cycle d : Nat} (hd : j.deadline = some d) (h : d < cycle) : j.late cycle = true := by simp [Join.late, hd, h]

section Exec
variable {slot addr : Nat} {j : Join} (hj : (s.strand core part slot).openJoin addr = some j)
include hj

theorem exec_joinCompletion : exec (.joinCompletion core part slot addr) s =
    if ((s.strand core part slot).joinDone j && !j.late s.cycle) = true
    then .next (s.setStrand core part slot ((s.strand core part slot).closeJoin j false)) else .fault .notEnabled := by
  show execJoinCompletion core part slot addr s = _
  simp only [execJoinCompletion, hj]

theorem exec_joinTimeout : exec (.joinTimeout core part slot addr) s =
    if j.late s.cycle = true then .next (s.setStrand core part slot ((s.strand core part slot).closeJoin j true))
    else .fault .notEnabled := by
  show execJoinTimeout core part slot addr s = _
  simp only [execJoinTimeout, hj]

end Exec

/-! ### The hang detector (03 R70, R71) -/

theorem exec_hangDetect (slot : Nat) : exec (.hangDetect core part slot) s =
    if (s.part core part).hangLimit = 0 || (s.strand core part slot).stopped then .fault .notEnabled
    else match (s.strand core part slot).lanes.find? (fun l => !l.2.exited && decide ((s.part core part).hangLimit ≤ l.2.idle)) with
      | none => .fault .notEnabled
      | some l => .next (s.gangTrap core (s.strand core part slot).gang part (s.strand core part slot).index l.1 l.2.pc .hang 0 l.1) := rfl

/-- Settles O9: each row is one branch of its happening. -/
theorem strandRowsAndJoins : Obligations.StrandRowsAndJoins := by
  intro s core part
  refine ⟨fun w wait full due once => ?_, fun slot addr j hj => ⟨fun arrived inTime => ?_, fun missing => ?_, fun d hd inTime => ?_,
    fun d hd past => ⟨?_, ?_⟩⟩, fun slot l limit going found => ?_, fun slot idle => ?_, fun value => ?_⟩
  · obtain ⟨o, ho, oldest, least⟩ := oldestActive_of_ne_nil (List.ne_nil_of_length_pos (Nat.lt_of_lt_of_le (by decide : 0 < 8) full))
    exact ⟨_, o, ho, exec_strandRotation rfl wait oldest full due once, part_rotated_rotated _ _, least,
      (strand_rotated_into _ _).1, (strand_rotated_into _ _).2, strand_rotated_out⟩
  · refine ⟨_, ?_, setStrand_closeJoin j false _ slot⟩
    rw [exec_joinCompletion hj, if_pos (by simp [(joinDone_iff _).mpr arrived, late_eq_false inTime])]
  · obtain ⟨l, small, masked, live, away⟩ := missing
    have undone : ¬ (s.strand core part slot).joinDone j = true := fun done =>
      (((joinDone_iff _).mp done) l small masked).elim (by simp [live]) away
    rw [exec_joinCompletion hj, if_neg (by simp [undone])]
  · rw [exec_joinTimeout hj, if_neg (by simp [late_eq_false fun e he => Option.some.inj (he.symm.trans hd) ▸ inTime])]
  · rw [exec_joinCompletion hj, if_neg (by simp [late_eq_true hd past])]
  · refine ⟨_, ?_, setStrand_closeJoin j true _ slot⟩
    rw [exec_joinTimeout hj, if_pos (late_eq_true hd past)]
  · rw [exec_hangDetect, if_neg (by simp [limit, going]), found]
  · rw [exec_hangDetect]
    split
    · rfl
    · next on =>
      have below : (s.strand core part slot).lanes.find? (fun l => !l.2.exited && decide ((s.part core part).hangLimit ≤ l.2.idle)) = none := by
        refine List.find?_eq_none.mpr fun l hl => ?_
        have low := (idle.resolve_left (by simp at on; exact on.1)) l hl
        simp [low]
      rw [below]
  · refine ⟨s.setHang core part value, rfl, ?_, ?_, sameElse_modPart _ _ _ _⟩ <;> rw [State.setHang, part_modPart_same]

end Sys2Proof.Proofs.StrandRows
end

section
/-! PROOFS. The happenings of pre-emption and of replies complete where their condition holds: O28. -/
namespace Sys2Proof.Proofs.Completion
open Sys2Proof Sys2Proof.Machine Sys2Proof.Claim Sys2Proof.Laws

variable {s : State} {core ctx k n : Nat}

/-! ### Stopping, saving and restoring (16 R346, R347, R350, R441) -/

theorem stopForSave_tasks (s : State) (k c : Nat) : (s.stopForSave k c).tasks = s.tasks := by
  unfold State.stopForSave
  split
  · rfl
  · exact (drainCtx_agrees s k c).tasks

theorem foldl_stopForSave_tasks (l : List (Nat × Nat)) (s : State) :
    (l.foldl (fun (x : State) e => x.stopForSave e.1 e.2) s).tasks = s.tasks := by
  induction l generalizing s with
  | nil => rfl
  | cons e l ih => rw [List.foldl_cons, ih, stopForSave_tasks]

theorem preStop_stopForSave (h : (s.ctx core ctx).task = some n) :
    ((s.stopForSave core ctx).ctx core ctx).preStop = some s.cycle := by
  simp only [State.stopForSave, h]
  rw [State.ctx, core_modCore_same]
  show (((s.drainCtx core ctx).modCtx core ctx _).ctx core ctx).preStop = _
  rw [ctx_modCtx_same]

theorem preemptStop_stops (h : (s.ctx core ctx).task = some n) (seen : (s.ctx core ctx).preSeen = true)
    (going : (s.ctx core ctx).preStop = none) (point : (s.ctx core ctx).atPoint = true) :
    exec (.preemptStop core ctx) s = .next (s.stopForSave core ctx) := by
  show execPreemptStop core ctx s = _
  simp [execPreemptStop, h, seen, going, point]

theorem preemptStop_saves (h : (s.ctx core ctx).task = some n) (stopped : (s.ctx core ctx).preStop ≠ none)
    (quiet : ∀ e ∈ (s.task n).places, s.quietForSave e.1 e.2 = true) :
    exec (.preemptStop core ctx) s = .next (s.saveTask n) := by
  have all : (s.task n).places.all (fun e => s.quietForSave e.1 e.2) = true := List.all_eq_true.mpr quiet
  show execPreemptStop core ctx s = _
  simp only [execPreemptStop, h, all, Option.isNone_eq_false_iff.mpr (Option.isSome_iff_ne_none.mpr stopped)]
  simp

theorem graceExpiry_next {c0 : Nat} {j : Job} (stopped : (s.ctx core ctx).preStop = some c0) (past : c0 + s.pregrace < s.cycle)
    (hj : j ∈ (s.core core).instances ctx) (sound : j.err = false) (alive : j.killed = false) :
    ∃ t, exec (.graceExpiry core ctx) s = .next t := by
  have left : (((s.core core).instances ctx).filter (fun j => !j.err && !j.killed)).isEmpty = false := by
    rw [List.isEmpty_eq_false_iff]
    exact List.ne_nil_of_mem (List.mem_filter.mpr ⟨hj, by simp [sound, alive]⟩)
  show ∃ t, execGraceExpiry core ctx s = _
  simp only [execGraceExpiry, stopped, left, decide_eq_false (Nat.not_le.mpr past)]
  exact ⟨_, rfl⟩

/-- What the device swaps out waits, as the condition of DEVICE_SWAP says it. -/
theorem swapWait_eq_true {x : Ctx} (h : swapWait x) : (!x.stopped && x.preStop.isNone && !x.preReq && (!x.running ||
    (match x.wait with | .spawnPark _ => true | .sync => true | .twany _ _ => true | _ => false))) = true := by
  obtain ⟨going, stop, req, idle | ⟨sl, wait⟩ | wait | ⟨l, a, wait⟩⟩ := h
  · simp [going, stop, req, idle]
  all_goals simp [going, stop, req, wait]

theorem deviceSwap_next (started : (s.task n).started = true) (going : (s.task n).complete = false) (here : (s.task n).saved = [])
    (runs : ∃ e ∈ (s.task n).places, (s.ctx e.1 e.2).running = true)
    (waits : ∀ e ∈ (s.task n).places, (s.ctx e.1 e.2).task = some n ∧ swapWait (s.ctx e.1 e.2)) :
    ∃ t, exec (.deviceSwap n) s = .next t ∧ (t.task n).swapped = true := by
  have any : (s.task n).places.any (fun e => (s.ctx e.1 e.2).running) = true := List.any_eq_true.mpr runs
  show ∃ t, execDeviceSwap n s = _ ∧ _
  unfold execDeviceSwap
  dsimp only
  rw [if_neg]
  · refine ⟨_, rfl, ?_⟩
    rw [State.task, foldl_stopForSave_tasks]
    exact congrArg Task.swapped (task_modTask_same s n _)
  · rw [started, going, here, any, List.all_eq_true.mpr]
    · decide
    · intro e he
      obtain ⟨task, wait⟩ := waits e he
      exact Bool.and_eq_true_iff.mpr ⟨beq_iff_eq.mpr task, swapWait_eq_true wait⟩

theorem taskRestore_next {die : Nat} {s1 : State} {h : Head} {ps : List Head} {gs : List (Nat × List (Nat × Nat × List Nat))}
    (away : (s.task n).saved ≠ []) (hdie : die = (match (s.task n).restore with | some (d, _) => d | none => (s.task n).lastCore / 36))
    (hs1 : s1 = s.examineHeads die) (causes : ∀ x ∈ s1.openHeads die, s1.headCause die x = 0)
    (chosen : s1.chooseHead die (s1.openHeads die) = some (h, ps)) (kind : h.kind = 0) (task : h.task = n)
    (fits : s1.headFits die h = some gs) : ∃ t, exec (.taskRestore n) s = .next t := by
  rw [hs1] at causes chosen fits
  have saved : (s.task n).saved.isEmpty = false := List.isEmpty_eq_false_iff.mpr away
  have sound : ((s.examineHeads die).openHeads die).any (fun h => (s.examineHeads die).headCause die h != 0) = false :=
    List.any_eq_false.mpr fun x hx => by simp [causes x hx]
  show ∃ t, execTaskRestore n s = _
  rcases place : (s.task n).restore with _ | ⟨d, at_⟩
  all_goals
    rw [place] at hdie
    simp only [execTaskRestore, place, ← hdie, saved, sound, chosen, kind, task, fits, ne_eq, not_true_eq_false, decide_false,
      Bool.or_false, Bool.false_eq_true, if_false]
    exact ⟨_, rfl⟩

theorem checkpointStream_next {i item : Nat} (h : (s.ctx core ctx).task = some n) (place : (s.task n).placeOf core ctx = some i)
    (on : s.ckptEn = true) (runs : (s.ctx core ctx).running = true) (going : (s.ctx core ctx).preStop = none)
    (listed : item ∈ (s.task n).items i) (dirty : s.itemDirty n i core ctx item = true) :
    exec (.checkpointStream core ctx item) s = .next (s.writeItem n i core ctx item) := by
  have has : ((s.task n).items i).contains item = true := List.contains_iff_mem.mpr listed
  show execCheckpointStream core ctx item s = _
  simp only [execCheckpointStream, h, place, on, runs, going, has, dirty]
  rfl

/-! ### A single step (03 R72) -/

theorem get_of_find {α : Type} {t : Tab α} {d v : α} {k : Nat} (h : Tab.find t k = some v) : Tab.get t d k = v := by
  induction t with
  | nil => cases h
  | cons e r ih =>
    obtain ⟨j, u⟩ := e
    rw [Tab.find] at h
    rw [Tab.get]
    split at h
    · next here => rw [if_pos here]; exact Option.some.inj h
    · next other => rw [if_neg other]; exact ih h

theorem singleStep_next {part slot : Nat} {pc : Word} {st : Strand} {b : Subset} (hst : Tab.find (s.part core part).strands slot = some st)
    (stopped : st.stopped = true) (alive : st.finished = false)
    (brk : ∃ e ∈ (s.core core).ctxs, ∃ r ∈ e.2.recs, r.cls = .break_ ∧ r.inst = some st.gang)
    (sub : (s.modJob core st.gang (fun j => { j with err := false })).subsetAt core part slot { st with stopped := false } pc = some b)
    (ready : b.ready (s.modJob core st.gang (fun j => { j with err := false })) core part = true) :
    ∃ t, exec (.singleStep core part slot (some pc)) s = .next t := by
  have strand : s.strand core part slot = st := get_of_find hst
  have any : (s.core core).ctxs.any (fun e => e.2.recs.any (fun r => r.cls == .break_ && r.inst == some st.gang)) = true := by
    obtain ⟨e, he, r, hr, cls, inst⟩ := brk
    exact List.any_eq_true.mpr ⟨e, he, List.any_eq_true.mpr ⟨r, hr, by simp [cls, inst]⟩⟩
  have go : ((Tab.find (s.part core part).strands slot).isNone || !st.stopped || st.finished || !(s.core core).ctxs.any (fun e =>
      e.2.recs.any (fun r => r.cls == .break_ && r.inst == some st.gang))) = false := by rw [hst, stopped, alive, any]; rfl
  show ∃ t, execSingleStep core part slot (some pc) s = _
  simp only [execSingleStep, strand, go, Bool.false_eq_true, if_false, sub, Option.filter_some, ready, if_true]
  exact ⟨_, rfl⟩

/-! ### What comes back to a core (08 R204, 19 R372, R381, R382, R387, R388) -/

theorem takePacket_of_takes {p : Packet} (h : takes s p) : ∃ s1, s.takePacket p = some s1 := by
  obtain ⟨dst, first⟩ := h
  unfold State.takePacket
  rw [if_neg (not_not_intro dst)]
  split
  · next inside => rw [if_pos (by simp [first inside])]; exact ⟨_, rfl⟩
  · exact ⟨_, rfl⟩

section Packets
variable {p : Packet} (h : takes s p)
include h

theorem replyArrival_next (ty : [3, 5, 7, 9, 14].contains p.ptype = true) : ∃ t, exec (.replyArrival k p) s = .next t := by
  obtain ⟨s1, taken⟩ := takePacket_of_takes h
  show ∃ t, execReplyArrival k p s = _
  simp only [execReplyArrival, ty, taken, Bool.not_true, Bool.false_eq_true, if_false]
  split <;> exact ⟨_, rfl⟩

theorem refusalArrival_next (ty : p.ptype = 15) : ∃ t, exec (.refusalArrival k p) s = .next t := by
  obtain ⟨s1, taken⟩ := takePacket_of_takes h
  show ∃ t, execRefusalArrival k p s = _
  simp only [execRefusalArrival, ty, taken, ne_eq, not_true_eq_false, if_false]
  split <;> exact ⟨_, rfl⟩

theorem bulkAckArrival_next (ty : p.ptype = 1) : ∃ t, exec (.bulkAckArrival k p) s = .next t := by
  obtain ⟨s1, taken⟩ := takePacket_of_takes h
  show ∃ t, execBulkAckArrival k p s = _
  simp only [execBulkAckArrival, ty, taken, ne_eq, not_true_eq_false, if_false]
  cases (s1.core k).matching p false <;> exact ⟨_, rfl⟩

end Packets

section Requests
variable {q : Request} (h : (s.core k).requests[n]? = some q)
include h

theorem requestTimeout_next (sent : q.tag ≠ 0xFFFF) (late : q.sent + s.fabric.cwtmo * 1000 ≤ s.devtime) :
    ∃ t, exec (.requestTimeout k n) s = .next t := by
  have go : ¬ (q.tag = noTag ∨ s.devtime < q.sent + s.fabric.cwtmo * 1000) := not_or.mpr ⟨sent, Nat.not_lt.mpr late⟩
  show ∃ t, execRequestTimeout k n s = _
  simp only [execRequestTimeout, h, if_neg go]
  exact ⟨_, rfl⟩

theorem enqueueRetry_next {d : Nat} (waited : q.backoff = some d) (past : d ≤ s.fabNow) :
    ∃ t, exec (.enqueueRetry k n) s = .next t := by
  show ∃ t, execEnqueueRetry k n s = _
  simp only [execEnqueueRetry, h, waited, if_neg (Nat.not_lt.mpr past)]
  exact ⟨_, rfl⟩

end Requests

theorem timedOutTagRelease_next {tag d : Nat} (h : (tag, d) ∈ (s.core k).coolTags) (past : d ≤ s.devtime) :
    ∃ t, exec (.timedOutTagRelease k tag) s = .next t := by
  have any : (s.core k).coolTags.any (fun e => e.1 == tag && decide (e.2 ≤ s.devtime)) = true :=
    List.any_eq_true.mpr ⟨_, h, by simp [past]⟩
  show ∃ t, execTimedOutTagRelease k tag s = _
  simp only [execTimedOutTagRelease, any, if_true]
  exact ⟨_, rfl⟩

/-- The overdue waits of a core's strands, in the order in which they end. -/
def overdueWaits (s : State) (k : Nat) : List (Nat × Nat × LaneResult × Word) :=
  [0, 1, 2, 3].flatMap (fun p => (s.part k p).strands.flatMap (fun e => e.2.results.filterMap (fun r =>
    match r.src with
    | .notice h _ d => if d ≤ s.devtime ∧ (s.noticeOf h).isNone then some (p, e.1, r, h) else none
    | _ => none)))

theorem overdueWaits_ne_nil (h : overdueWait s k) : overdueWaits s k ≠ [] := by
  obtain ⟨p, lt, e, he, r, hr, hd, m, d, src, past, gone⟩ := h
  have part : p ∈ [0, 1, 2, 3] := by simp; omega
  refine List.ne_nil_of_mem (a := (p, e.1, r, hd)) (List.mem_flatMap.mpr ⟨p, part, List.mem_flatMap.mpr ⟨e, he,
    List.mem_filterMap.mpr ⟨r, hr, ?_⟩⟩⟩)
  simp [src, past, gone]

/-- The end of an overdue wait: the gang takes FABRIC_TIMEOUT. -/
def endWait (s : State) (k : Nat) (w : Nat × Nat × LaneResult × Word) : State :=
  let (p, sl, r, h) := w
  (s.modStrand k p sl (fun x => x.dropResult r)).gangTrap k (s.strand k p sl).gang p (s.strand k p sl).index r.lane r.pc
    .fabricTimeout h (fieldNat h 11 0)

theorem exec_rslotGetTimeout (s : State) (k n : Nat) : exec (.rslotGetTimeout k n) s =
    ((overdueWaits s k)[n]?).elim (.fault .notEnabled) (fun w => .next (endWait s k w)) := by
  show execRslotGetTimeout k n s = _
  cases h : (overdueWaits s k)[n]? with
  | none =>
    unfold execRslotGetTimeout
    dsimp only
    split
    · rfl
    · next w e => exact absurd (h.symm.trans e) nofun
  | some w =>
    unfold execRslotGetTimeout
    dsimp only
    split
    · next e => exact absurd (h.symm.trans e) nofun
    · next e => cases h.symm.trans e; rfl

theorem rslotGetTimeout_next (h : overdueWait s k) : ∃ t, exec (.rslotGetTimeout k 0) s = .next t := by
  cases waits : overdueWaits s k with
  | nil => exact absurd waits (overdueWaits_ne_nil h)
  | cons w rest => exact ⟨endWait s k w, by rw [exec_rslotGetTimeout, waits]; rfl⟩

/-- Settles O28: each happening has its condition's branch. -/
theorem preemptionAndReplyRowsComplete : Obligations.PreemptionAndReplyRowsComplete := by
  intro s
  refine ⟨fun i v => ⟨_, rfl⟩, fun core ctx n h => ⟨fun seen going point => ⟨_, preemptStop_stops h seen going point, preStop_stopForSave h⟩,
      fun stopped quiet => ⟨_, preemptStop_saves h stopped quiet⟩⟩,
    fun core ctx c0 j stopped past hj sound alive => graceExpiry_next stopped past hj sound alive,
    fun n started going here runs waits => deviceSwap_next started going here runs waits,
    fun n die s1 h ps gs away hdie hs1 causes chosen kind task fits => taskRestore_next away hdie hs1 causes chosen kind task fits,
    fun core ctx n i item h place on runs going listed dirty => ⟨_, checkpointStream_next h place on runs going listed dirty⟩,
    fun core part slot pc st b hst stopped alive brk sub ready => singleStep_next hst stopped alive brk sub ready,
    fun k p h => ⟨replyArrival_next h, refusalArrival_next h, bulkAckArrival_next h⟩,
    fun k n q h => ⟨requestTimeout_next h, fun d => enqueueRetry_next h⟩,
    fun k tag d h past => timedOutTagRelease_next h past, fun k h => rslotGetTimeout_next h⟩

end Sys2Proof.Proofs.Completion
end
